-- ==== Sys2Proof/Word.lean ====
section
/-! DEFINITION. The word types of the block: 32-bit registers (R13), bytes, and tables kept sorted by a numeric key. -/

namespace Sys2Proof

/-- A 32-bit register or payload word (R13). -/
abbrev Word := BitVec 32

/-- One byte of a packet, a frame or a memory. -/
abbrev Byte := BitVec 8

/-- A sparse table: entries by key, keys strictly rising. -/
abbrev Tab (α : Type) := List (Nat × α)

end Sys2Proof
end

