-- ==== Sys2Proof/Machine/StateScene.lean ====
section
/-! DEFINITION. Scene state: objects, loudspeakers, layouts, arrays, wells, routing (chapters 02 to 04). -/

namespace Sys2Proof.Machine

/-- A position in the frame of R9, each axis Q16.16 metres. -/
structure Pos where
  x : Int := 0
  y : Int := 0
  z : Int := 0
deriving DecidableEq, Repr, Inhabited

/-- An object record (R34); the defaults are the reset record of R553. Gains are signed Q8.8 dB codes. -/
structure ObjRec where
  mode : Nat := 0
  dlaw : Nat := 0
  dtable : Nat := 0
  hw : Nat := 0
  distDelay : Bool := false
  focus : Bool := false
  targetLo : Nat := 0
  targetHi : Nat := 0
  exclLo : Nat := 0
  exclHi : Nat := 0
  rRef : Nat := 0x10000
  rMin : Nat := 0xCCD
  gain : Int := -32768
  extW : Nat := 0
  extH : Nat := 0
  pre : Nat := 0
deriving DecidableEq, Repr, Inhabited

/-- A keyframe after the polar conversion of R36; also an anchor (R38). -/
structure Key where
  time : Nat
  pos : Pos
  gain : Int
  extW : Nat
  extH : Nat
  cut : Bool
  cubic : Bool
deriving DecidableEq, Repr, Inhabited

/-- A speaker record (R42); the defaults are those of R553. -/
structure SpkRec where
  pos : Pos := {}
  aimX : Int := 0
  aimY : Int := 0
  aimZ : Int := 0
  gtrim : Int := 0
  dtrim : Nat := 0
  zone : Nat := 0
  enable : Bool := false
  nozone : Bool := true
deriving DecidableEq, Repr, Inhabited

/-- A layout record (R43). A 2D triangle has two outputs. -/
structure Layout where
  is3d : Bool := false
  members : List Nat := []
  tris : List (List Nat) := []
deriving DecidableEq, Repr, Inhabited

/-- One entry of an array record (R44), the normal in Q2.14. -/
structure ArrEntry where
  out : Nat
  nx : Int
  ny : Int
  nz : Int
deriving DecidableEq, Repr, Inhabited

/-- An array record (R44). -/
structure ArrayRec where
  closed : Bool := false
  taper : Nat := 0
  gain : Int := 0
  entries : List ArrEntry := []
deriving DecidableEq, Repr, Inhabited

/-- A distance table (R45). -/
structure DistTab where
  s : Nat := 0x10000
  g : List Int := List.replicate 32 0
deriving DecidableEq, Repr, Inhabited

/-- A well (R66): base in 256-sample units from the start of the cistern, length in units, birth block (R69). -/
structure Well where
  base : Nat
  units : Nat
  birth : Nat
deriving DecidableEq, Repr, Inhabited

/-- A direct input (R81). -/
structure Din where
  src : Nat := 0
  mute : Bool := true
deriving DecidableEq, Repr, Inhabited

/-- A crosspoint (R82). -/
structure Xp where
  din : Nat
  out : Nat
  en : Bool
  gain : Int
deriving DecidableEq, Repr, Inhabited

/-- An effect-core insert (R229): core, target (object or output), buffers in local data memory. -/
structure Insert where
  core : Nat
  target : Nat
  inBuf : Nat
  outBuf : Nat
deriving DecidableEq, Repr, Inhabited

/-- A receive stream descriptor (R350). -/
structure RxDesc where
  words : List Word
deriving DecidableEq, Repr, Inhabited

/-- A transmit stream descriptor (R360), and the mask committed last (R365). -/
structure TxDesc where
  words : List Word
  mask : Nat := 0
deriving DecidableEq, Repr, Inhabited

/-- One level of a gang: outputs each member presents, number of members, own member index (R448). -/
structure GangLevel where
  per : Nat
  n : Nat
  m : Nat
deriving DecidableEq, Repr, Inhabited

/-- How unit outputs are numbered: levels of the gang from the outermost inwards, none on a single module, and STRIDE. -/
structure Numbering where
  levels : List GangLevel := []
  stride : Nat := 0
  /-- members of the outermost level that left (R451) -/
  gone : List Nat := []
deriving DecidableEq, Repr, Inhabited

/-- The committed state: every table and RWE register an epoch can change. Tables name outputs of this module by their local numbers,
outputs of other members of a gang by 0x10000 + unit output. One copy is kept for each block in flight,
because each stage applies the parameter state of its block's epoch (R20). -/
structure Committed where
  epoch : Nat := 0
  objs : Tab ObjRec := []
  spks : Tab SpkRec := []
  layouts : Tab Layout := []
  arrays : Tab ArrayRec := []
  dists : Tab DistTab := []
  wells : Tab Well := []
  dins : Tab Din := []
  xps : List Xp := []
  inserts : List Insert := []
  rx : Tab RxDesc := []
  tx : Tab TxDesc := []
  /-- RWE registers that differ from their reset value, by byte address (R14). -/
  rwe : Tab Word := []
  num : Numbering := {}
deriving DecidableEq, Repr, Inhabited

/-- A journaled load whose coefficients are awaited (R123): bank, band, tap range, digest. -/
structure CoefWait where
  bank : Bool
  low : Bool
  first : Nat
  count : Nat
  digest : List Byte
deriving DecidableEq, Repr, Inhabited

/-- Trajectory of an object as the journal keeps it (R37, R38). -/
structure KeySt where
  anchor : Option Key := none
  prev : Option Key := none
  queue : List Key := []
deriving DecidableEq, Repr, Inhabited

/-- A checkpoint (R120): the committed state with the epoch and SEQ it covers, where replay starts in the ring, effect-core
programs, trajectories, and the coefficients each output needs. -/
structure Checkpoint where
  cm : Committed := {}
  progs : Tab (Tab (BitVec 64)) := []
  keys : Tab KeySt := []
  coefs : Tab (List CoefWait) := []
  /-- outputs whose active coefficient bank is B -/
  active : List Nat := []
  /-- commit boundary of its epoch -/
  tick : Nat := 0
  seq : Nat := 0
  ringOff : Nat := 0
deriving DecidableEq, Repr, Inhabited

/-- A gain ramp (R262): linear gains with 20 fraction bits, dB codes in Q8.8, first block and length in blocks. -/
structure Ramp where
  fromG : Int := 0
  toG : Int := 0
  fromDb : Int := 0
  toDb : Int := 0
  dbLaw : Bool := false
  start : Nat := 0
  len : Nat := 0
deriving DecidableEq, Repr, Inhabited

/-- Three biquads of headworks state (R70): x1, x2, y1, y2 of each section. -/
abbrev HwState := List (List Int)

/-- What the device remembers of an object beside its record (R35, R38, R46, R69, R70). -/
structure ObjRt where
  anchor : Option Key := none
  prev : Option Key := none
  queue : List Key := []
  /-- record gain as ramped (R35); its target code is `toDb` -/
  gain : Ramp := { toDb := -32768 }
  /-- the retained rule the object keeps evaluating while it is OFF (R554); 0 for the tables in force -/
  rule : Nat := 0
  /-- the pairs are held after the ramp to OFF has ended (R46) -/
  held : Bool := false
  /-- a placement makes the next evaluated block a cut (R35) -/
  placed : Bool := false
  /-- a cut the caps could not take yet (R110) -/
  cutDue : Bool := false
  evPos : Pos := {}
  evGain : Nat := 0
  evExtW : Nat := 0
  evExtH : Nat := 0
  /-- births of its wells and the blocks from which it was primed after them, newest first (R69) -/
  primed : List (Nat × Nat) := []
  /-- release of its pairs after priming (R69) -/
  pw : Ramp := {}
  /-- headworks response in force, and the filter states (R70) -/
  hwSel : Nat := 0
  hw : HwState := []
  /-- the older headworks filter while its crossfade of 256 samples runs: response, states, first sample -/
  hwOld : Option (Nat × HwState × Nat) := none
deriving DecidableEq, Repr, Inhabited

inductive LegKind where
  | plain | xfIn | xfOut
deriving DecidableEq, Repr, Inhabited

/-- One path of an object-output pair through the geometry engine (R40, R61, R112 to R114). -/
structure Leg where
  obj : Nat
  out : Nat
  kind : LegKind
  /-- 0: the tables in force; otherwise the number of the retained rule an outgoing path keeps evaluating. -/
  rule : Nat := 0
  start : Nat := 0
  len : Nat := 0
  /-- weight frozen when an incoming path became outgoing (R114), Q1.20. -/
  w : Option Nat := none
  /-- delay and gain held by the outgoing entries of a cut (R40, R114). -/
  hold : Option (Nat × Nat) := none
  /-- constant targets in its first block (CUT_HOLD, R40). -/
  cutHold : Bool := false
  lastDelay : Nat := 0
  lastGain : Nat := 0
  lastIdx : Option Nat := none
deriving DecidableEq, Repr, Inhabited

/-- An entry of the pair memory with its route (R60, R71). -/
structure Entry where
  obj : Nat
  out : Nat
  delay : Nat
  gain : Nat
  xfOut : Bool
  xfIn : Bool
  cutHold : Bool
  pred : Option Nat
deriving DecidableEq, Repr, Inhabited

/-- One slot of the pair memory (R60). -/
structure Slot where
  block : Nat
  epoch : Nat
  entries : List Entry
deriving DecidableEq, Repr, Inhabited

/-- A running crosspoint (R82, R83). -/
structure XpRt where
  din : Nat
  out : Nat
  ramp : Ramp
deriving DecidableEq, Repr, Inhabited

/-- Automatic scale of an output (R83): start and target, first block of the 75-block ramp, N and AUTO. -/
structure AutoRt where
  fromS : Int := 0x100000
  toS : Int := 0x100000
  start : Nat := 0
  n : Nat := 0
  auto : Nat := 0
deriving DecidableEq, Repr, Inhabited

/-- A change of polarity or mode under way (R84): what it switches to, the block after its ramp, and the switch block
once OUTPUT_MODE_SWITCH has come. -/
structure ModeChange where
  pol : Bool
  sp : Bool
  start : Nat
  due : Nat
  /-- blocks of the route fade it starts (R112, R554) -/
  len : Nat
  sw : Option Nat := none
deriving DecidableEq, Repr, Inhabited

/-- Output stage of one output (R84, R152, R154, R122). -/
structure OutRt where
  trim : Ramp := { fromG := 0x100000, toG := 0x100000 }
  mute : Ramp := { toDb := -32768 }
  /-- polarity and mode applied at present -/
  pol : Bool := false
  sp : Bool := false
  change : Option ModeChange := none
deriving DecidableEq, Repr, Inhabited

/-- One standpipe channel at work (R85, R86). -/
structure SpRt where
  ramp : Ramp := { toDb := -32768 }
  src : Nat := 0
  out : Nat := 0
deriving DecidableEq, Repr, Inhabited

end Sys2Proof.Machine
end

