-- ==== Sys2Proof/Syntax.lean ====
section
/-! DEFINITION. The commands of the block: one constructor for each row of the opcode table. -/

namespace Sys2Proof

/-- Where a command packet came from and what its header says (R253): submission ring, tag, transaction, path depth and
path, fence, and whether it came over the network (R275). -/
structure Hdr where
  sq : Nat := 0
  tag : Nat := 0
  txn : Nat := 0
  depth : Nat := 0
  path : Nat := 0
  fence : Bool := false
  net : Bool := false
deriving DecidableEq, Repr, Inhabited

/-- A move of a P instruction (R207). -/
inductive Mv where
  | none
  | ld (d p : Nat)
  | st (d p : Nat)
  | sta (a sh p : Nat)
deriving DecidableEq, Repr, Inhabited

/-- An address update of a P instruction (R208): pointer and operation, when enabled. -/
inductive Upd where
  | none
  | upd (n op : Nat)
deriving DecidableEq, Repr, Inhabited

/-- The moves and updates issued beside slot A (R205). -/
structure Par where
  m0 : Mv := .none
  m1 : Mv := .none
  u0 : Upd := .none
  u1 : Upd := .none
deriving DecidableEq, Repr, Inhabited

/-- Amount of a SHIFT (R206): an immediate or a register. -/
inductive ShAmt where
  | imm (n : Nat)
  | reg (r : Nat)
deriving DecidableEq, Repr, Inhabited

/-- Count of RPT and LOOP (R209): an immediate or a data register. -/
inductive Cnt where
  | imm (n : Nat)
  | reg (r : Nat)
deriving DecidableEq, Repr, Inhabited

/-- What the world did during the tick that ends at a boundary: PDM bits by microphone line and edge (index 2 × line +
edge), oldest first (R163, R165), and memory upsets in the cistern, by word address, double-bit when true (R296). -/
structure TickIn where
  pdm : Tab (List Bool) := []
  upsets : List (Nat × Bool) := []
deriving DecidableEq, Repr, Inhabited

/-- A received UDP datagram: port, VLAN tag, addresses with octet 0 in the low bits (R337), UDP ports, the UDP length field,
whether its header was well formed, and its payload. -/
structure Dgram where
  port : Nat := 0
  vlan : Nat := 0
  srcIp : Nat := 0
  dstIp : Nat := 0
  srcUdp : Nat := 0
  dstUdp : Nat := 0
  udpLen : Nat := 0
  ok : Bool := true
  payload : List Byte := []
deriving DecidableEq, Repr, Inhabited

/-- A bus-matrix transaction (R298, R300): master, its 5-bit ID, the QoS it supplies, byte address, write or read, length in
bytes, the data of a write, and whether it meets an access of another requester to the same word in its cycle, as the later of the
two (R289). -/
structure BusTxn where
  master : Nat := 0
  id : Nat := 0
  qos : Nat := 0
  addr : Nat := 0
  write : Bool := false
  len : Nat := 4
  data : List Byte := []
  collide : Bool := false
deriving DecidableEq, Repr, Inhabited

/-- A received PTP message (R386 to R390): port, sequence, hardware receive timestamp and the message's own timestamp in
quarter nanoseconds, correction in 2^-16 ns, source identity, flags, domain, and the announced dataset. -/
structure PtpMsg where
  port : Nat := 0
  seq : Nat := 0
  rxT4 : Int := 0
  t4 : Int := 0
  corr : Int := 0
  srcId : Nat := 0
  srcPort : Nat := 1
  reqId : Nat := 0
  reqPort : Nat := 1
  twoStep : Bool := false
  domain : Nat := 0
  gmId : Nat := 0
  prio1 : Nat := 128
  prio2 : Nat := 128
  cls : Nat := 248
  acc : Nat := 254
  variance : Nat := 65535
  steps : Nat := 0
deriving DecidableEq, Repr, Inhabited

/-- A message over the module link: link it arrived on, virtual channel sequence, whether its flit CRC holds, sender, a kind,
numeric fields and a payload; each chapter-14 command says which fields it reads. A JOURNAL message may carry a checkpoint, whose
byte format the spec does not give. -/
structure LinkMsg where
  link : Nat := 0
  seq : Nat := 0
  crcOk : Bool := true
  sender : Nat := 0
  kind : Nat := 0
  args : List Nat := []
  bytes : List Byte := []
  chk : Option Machine.Checkpoint := none
deriving DecidableEq, Repr, Inhabited

/-- A zone of a zoneExclusion element (R429): bounds in millionths, X, Y, Z low and high when cartesian, azimuth and elevation
low and high in degrees when polar. -/
structure AdmZone where
  cart : Bool := false
  bounds : List Int := []
deriving DecidableEq, Repr, Inhabited

/-- An audioBlockFormat as the parser reports it (R428, R429): trackID, whether its channel is of type Objects, times in
nanoseconds, position and extents in millionths of a degree or of one, gain in millionths (linear) or of a dB, and the count of
its elements that have no effect. -/
structure AdmBlock where
  track : Nat := 1
  isObj : Bool := true
  rtime : Nat := 0
  dur : Nat := 0
  cart : Bool := false
  p1 : Int := 0
  p2 : Int := 0
  p3 : Option Int := none
  gainDb : Bool := false
  gain : Int := 1000000
  width : Nat := 0
  height : Nat := 0
  depth : Nat := 0
  jump : Bool := false
  interp : Nat := 0
  zones : Option (List AdmZone) := none
  ignored : Nat := 0
deriving DecidableEq, Repr, Inhabited

/-- An S-ADM frame after the parser (R427, R430): well formed, elements without effect, blocks in frame order. -/
structure AdmFrame where
  ok : Bool := true
  ignored : Nat := 0
  blocks : List AdmBlock := []
deriving DecidableEq, Repr, Inhabited

/-- How a boot stage ended: passed or not, and the failing BIST unit (R487, R488). -/
structure BootIn where
  ok : Bool := true
  fail : Nat := 0
deriving DecidableEq, Repr, Inhabited

/-- The commands: one constructor for each row of the opcode table, rows with operands first. -/
inductive Instr where
  /-- TICK_BOUNDARY (R19) -/
  | tickBoundary (t : TickIn)
  /-- SAMPLE_RELEASE (R353) -/
  | sampleRelease (sap : List (Nat × Word))
  /-- BURST_MUTE_END (R426) -/
  | burstMuteEnd (ch : Nat)
  /-- PACKET_CUTOFF (R355) -/
  | packetCutoff (slot seq : Nat)
  /-- FILL_DEADLINE (R457) -/
  | fillDeadline (slot seq : Nat)
  /-- WELL_PRIMED (R69) -/
  | wellPrimed (obj : Nat)
  /-- ROUTE_FADE_END (R113) -/
  | routeFadeEnd (obj out : Nat)
  /-- OBJ_OFF_RAMP_END (R554) -/
  | objOffRampEnd (obj : Nat)
  /-- OUTPUT_MODE_SWITCH (R84) -/
  | outputModeSwitch (out : Nat)
  /-- COR_FADE_END (R149) -/
  | corFadeEnd (out : Nat)
  /-- COR_SWITCH (R152) -/
  | corSwitch (out : Nat)
  /-- COR_SETTLED (R152) -/
  | corSettled (out : Nat)
  /-- MIC_VALID (R170) -/
  | micValid (mic : Nat)
  /-- STR_RX_FADE_END (R359) -/
  | strRxFadeEnd (slot : Nat)
  /-- EC_OVERRUN (R231) -/
  | ecOverrun (core : Nat)
  /-- LATE_HALT (R234) -/
  | lateHalt (core : Nat)
  /-- EC_STOP_RAMP_END (R235) -/
  | ecStopRampEnd (core : Nat)
  /-- PACKET_FETCH (R251) -/
  | packetFetch (sq : Nat) (bytes : List Byte)
  /-- CMD_TIMEOUT (R260) -/
  | cmdTimeout (fetch : Nat)
  /-- TXN_IDLE_TIMEOUT (R99) -/
  | txnIdleTimeout (txn : Nat)
  /-- OP_NOP (R263) -/
  | opNop (h : Hdr) (p : List Byte)
  /-- OP_SYS_INFO (R263) -/
  | opSysInfo (h : Hdr) (p : List Byte)
  /-- OP_SYS_RATE (R264) -/
  | opSysRate (h : Hdr) (p : List Byte)
  /-- OP_RAMP_SET (R261) -/
  | opRampSet (h : Hdr) (p : List Byte)
  /-- OP_RECOVER_RELEASE (R122) -/
  | opRecoverRelease (h : Hdr) (p : List Byte)
  /-- OP_REG_WRITE (R264) -/
  | opRegWrite (h : Hdr) (p : List Byte)
  /-- OP_REG_READ (R518) -/
  | opRegRead (h : Hdr) (p : List Byte)
  /-- OP_SYS_RESET (R486) -/
  | opSysReset (h : Hdr) (p : List Byte)
  /-- OP_TXN_OPEN (R98) -/
  | opTxnOpen (h : Hdr) (p : List Byte)
  /-- OP_TXN_COMMIT (R103) -/
  | opTxnCommit (h : Hdr) (p : List Byte)
  /-- OP_TXN_COMMIT_AT (R105) -/
  | opTxnCommitAt (h : Hdr) (p : List Byte)
  /-- OP_TXN_COMMIT_CHECK (R259) -/
  | opTxnCommitCheck (h : Hdr) (p : List Byte)
  /-- OP_TXN_ABORT (R101) -/
  | opTxnAbort (h : Hdr) (p : List Byte)
  /-- OP_TXN_STATUS (R116) -/
  | opTxnStatus (h : Hdr) (p : List Byte)
  /-- OP_OBJ_SET (R35) -/
  | opObjSet (h : Hdr) (p : List Byte)
  /-- OP_OBJ_KEYS (R36) -/
  | opObjKeys (h : Hdr) (p : List Byte)
  /-- OP_OBJ_KEYS_CLEAR (R40) -/
  | opObjKeysClear (h : Hdr) (p : List Byte)
  /-- OP_WELL_SIZE (R67) -/
  | opWellSize (h : Hdr) (p : List Byte)
  /-- OP_OBJ_STATE (R265) -/
  | opObjState (h : Hdr) (p : List Byte)
  /-- OP_DIST_TABLE (R45) -/
  | opDistTable (h : Hdr) (p : List Byte)
  /-- OP_SPK_SET (R42) -/
  | opSpkSet (h : Hdr) (p : List Byte)
  /-- OP_LAYOUT_SET (R266) -/
  | opLayoutSet (h : Hdr) (p : List Byte)
  /-- OP_ARRAY_SET (R266) -/
  | opArraySet (h : Hdr) (p : List Byte)
  /-- OP_LAYOUT_READ (R263) -/
  | opLayoutRead (h : Hdr) (p : List Byte)
  /-- OP_DIN_SET (R81) -/
  | opDinSet (h : Hdr) (p : List Byte)
  /-- OP_XP_SET (R82) -/
  | opXpSet (h : Hdr) (p : List Byte)
  /-- OP_OUT_SET (R84) -/
  | opOutSet (h : Hdr) (p : List Byte)
  /-- OP_SP_SET (R85) -/
  | opSpSet (h : Hdr) (p : List Byte)
  /-- OP_ROUTE_READ (R263) -/
  | opRouteRead (h : Hdr) (p : List Byte)
  /-- OP_COR_CFG (R152) -/
  | opCorCfg (h : Hdr) (p : List Byte)
  /-- OP_COR_LOAD (R144) -/
  | opCorLoad (h : Hdr) (p : List Byte)
  /-- OP_COR_SWAP (R149) -/
  | opCorSwap (h : Hdr) (p : List Byte)
  /-- OP_COR_STATUS (R151) -/
  | opCorStatus (h : Hdr) (p : List Byte)
  /-- OP_MEA_METRICS (R181) -/
  | opMeaMetrics (h : Hdr) (p : List Byte)
  /-- OP_MEA_REF_CAPTURE (R182) -/
  | opMeaRefCapture (h : Hdr) (p : List Byte)
  /-- OP_MEA_EXPORT (R191) -/
  | opMeaExport (h : Hdr) (p : List Byte)
  /-- OP_EC_LOAD (R235) -/
  | opEcLoad (h : Hdr) (p : List Byte)
  /-- OP_EC_ATTACH (R229) -/
  | opEcAttach (h : Hdr) (p : List Byte)
  /-- OP_EC_DETACH (R235) -/
  | opEcDetach (h : Hdr) (p : List Byte)
  /-- OP_EC_PARAM (R230) -/
  | opEcParam (h : Hdr) (p : List Byte)
  /-- OP_EC_START (R268) -/
  | opEcStart (h : Hdr) (p : List Byte)
  /-- OP_EC_STOP (R268) -/
  | opEcStop (h : Hdr) (p : List Byte)
  /-- OP_EC_READ (R203) -/
  | opEcRead (h : Hdr) (p : List Byte)
  /-- OP_STR_RX_SET (R359) -/
  | opStrRxSet (h : Hdr) (p : List Byte)
  /-- OP_STR_TX_SET (R366) -/
  | opStrTxSet (h : Hdr) (p : List Byte)
  /-- OP_STR_DELETE (R359) -/
  | opStrDelete (h : Hdr) (p : List Byte)
  /-- OP_STR_MASK (R365) -/
  | opStrMask (h : Hdr) (p : List Byte)
  /-- OP_NET_PORT_SET (R337) -/
  | opNetPortSet (h : Hdr) (p : List Byte)
  /-- OP_STR_STATUS (R375) -/
  | opStrStatus (h : Hdr) (p : List Byte)
  /-- OP_TIM_PTP_SET (R407) -/
  | opTimPtpSet (h : Hdr) (p : List Byte)
  /-- OP_TIM_PATH_ACCEPT (R394) -/
  | opTimPathAccept (h : Hdr) (p : List Byte)
  /-- OP_TIM_TRIG_SET (R403) -/
  | opTimTrigSet (h : Hdr) (p : List Byte)
  /-- OP_TIM_REF_SET (R408) -/
  | opTimRefSet (h : Hdr) (p : List Byte)
  /-- OP_TIM_STATUS (R414) -/
  | opTimStatus (h : Hdr) (p : List Byte)
  /-- OP_SAP_SET (R424) -/
  | opSapSet (h : Hdr) (p : List Byte)
  /-- OP_ADM_SET (R437) -/
  | opAdmSet (h : Hdr) (p : List Byte)
  /-- OP_SAP_STATUS (R433) -/
  | opSapStatus (h : Hdr) (p : List Byte)
  /-- OP_GANG_FORM (R447) -/
  | opGangForm (h : Hdr) (p : List Byte)
  /-- OP_GANG_LEAVE (R451) -/
  | opGangLeave (h : Hdr) (p : List Byte)
  /-- OP_MIR_FORM (R453) -/
  | opMirForm (h : Hdr) (p : List Byte)
  /-- OP_MIR_ROLE (R464) -/
  | opMirRole (h : Hdr) (p : List Byte)
  /-- OP_GANG_STATUS (R477) -/
  | opGangStatus (h : Hdr) (p : List Byte)
  /-- OP_SNP_TRIGGER (R125) -/
  | opSnpTrigger (h : Hdr) (p : List Byte)
  /-- OP_SNP_READ (R263) -/
  | opSnpRead (h : Hdr) (p : List Byte)
  /-- OP_JNL_READ (R120) -/
  | opJnlRead (h : Hdr) (p : List Byte)
  /-- OP_PWR_SET (R483) -/
  | opPwrSet (h : Hdr) (p : List Byte)
  /-- OP_PWR_STATUS (R498) -/
  | opPwrStatus (h : Hdr) (p : List Byte)
  /-- OP_SVC_CHALLENGE (R501) -/
  | opSvcChallenge (h : Hdr) (p : List Byte)
  /-- OP_SVC_RESPONSE (R501) -/
  | opSvcResponse (h : Hdr) (p : List Byte)
  /-- OP_SVC_OWNER (R500) -/
  | opSvcOwner (h : Hdr) (p : List Byte)
  /-- OP_FW_WRITE (R507) -/
  | opFwWrite (h : Hdr) (p : List Byte)
  /-- OP_FW_ACTIVATE (R507) -/
  | opFwActivate (h : Hdr) (p : List Byte)
  /-- NOP (R206) -/
  | nop (core : Nat) (q : Par)
  /-- MPY (R206) -/
  | mpy (core a x y : Nat) (neg : Bool) (q : Par)
  /-- MAC (R206) -/
  | mac (core a x y : Nat) (neg : Bool) (q : Par)
  /-- FIR4 (R206) -/
  | fir4 (core x k : Nat) (neg clr : Bool) (q : Par)
  /-- DMAC (R206) -/
  | dmac (core half x0 y0 x1 y1 : Nat) (q : Par)
  /-- DMPY (R206) -/
  | dmpy (core half x0 y0 x1 y1 : Nat) (q : Par)
  /-- CMAC (R206) -/
  | cmac (core u v half : Nat) (conj clr : Bool) (q : Par)
  /-- ACS2 (R216) -/
  | acs2 (core ma mb bm k : Nat) (min : Bool) (q : Par)
  /-- ACS1 (R216) -/
  | acs1 (core dst s0 s1 bm : Nat) (min : Bool) (q : Par)
  /-- ADD (R215) -/
  | add (core d x y : Nat) (q : Par)
  /-- SUB (R215) -/
  | sub (core d x y : Nat) (q : Par)
  /-- ADDS (R215) -/
  | adds (core d x y : Nat) (q : Par)
  /-- SUBS (R215) -/
  | subs (core d x y : Nat) (q : Par)
  /-- AND (R215) -/
  | and (core d x y : Nat) (q : Par)
  /-- OR (R215) -/
  | or (core d x y : Nat) (q : Par)
  /-- XOR (R215) -/
  | xor (core d x y : Nat) (q : Par)
  /-- SHIFT (R206) -/
  | shift (core kind d x : Nat) (amt : ShAmt) (q : Par)
  /-- MIN (R206) -/
  | min (core d x y : Nat) (q : Par)
  /-- MAX (R206) -/
  | max (core d x y : Nat) (q : Par)
  /-- ABS (R215) -/
  | abs (core d x : Nat) (q : Par)
  /-- NEG (R215) -/
  | neg (core d x : Nat) (q : Par)
  /-- CMP (R215) -/
  | cmp (core x y : Nat) (q : Par)
  /-- MOV (R206) -/
  | mov (core d x : Nat) (q : Par)
  /-- ACLR (R206) -/
  | aclr (core mask : Nat) (q : Par)
  /-- AADD (R206) -/
  | aadd (core d x : Nat) (sub : Bool) (q : Par)
  /-- ASH (R206) -/
  | ash (core d x : Nat) (n : Int) (q : Par)
  /-- ARND (R214) -/
  | arnd (core d a sh : Nat) (q : Par)
  /-- ALD (R206) -/
  | ald (core a d : Nat) (q : Par)
  /-- LD (R207) -/
  | ld (core d p : Nat) (m1 : Mv) (u0 u1 : Upd)
  /-- ST (R207) -/
  | st (core d p : Nat) (m1 : Mv) (u0 u1 : Upd)
  /-- STA (R214) -/
  | sta (core a sh p : Nat) (m1 : Mv) (u0 u1 : Upd)
  /-- ADDRESS_UPDATE (R223) -/
  | addressUpdate (core n op : Nat) (u1 : Upd)
  /-- BR (R209) -/
  | br (core cond target : Nat)
  /-- CALL (R222) -/
  | call (core cond target : Nat)
  /-- RET (R222) -/
  | ret (core cond : Nat)
  /-- RETI (R226) -/
  | reti (core : Nat)
  /-- RPT (R220) -/
  | rpt (core : Nat) (n : Cnt)
  /-- LOOP (R221) -/
  | loop (core stop : Nat) (n : Cnt)
  /-- HALT (R231) -/
  | halt (core : Nat)
  /-- LDI (R209) -/
  | ldi (core id : Nat) (v : Word)
  /-- MOVC (R209) -/
  | movc (core dst src : Nat)
  /-- XMOV (R204) -/
  | xmov (core d p : Nat) (out : Bool) (lines : Nat)
  /-- XWAIT (R204) -/
  | xwait (core : Nat)
  /-- SIGNAL (R315) -/
  | signal (core src : Nat)
  /-- CLRF (R209) -/
  | clrf (core mask : Nat)
  /-- ADDI (R210) -/
  | addi (core d x : Nat) (v : Word)
  /-- ADDSI (R210) -/
  | addsi (core d x : Nat) (v : Word)
  /-- ANDI (R210) -/
  | andi (core d x : Nat) (v : Word)
  /-- ORI (R210) -/
  | ori (core d x : Nat) (v : Word)
  /-- XORI (R210) -/
  | xori (core d x : Nat) (v : Word)
  /-- CMPI (R210) -/
  | cmpi (core x : Nat) (v : Word)
  /-- MINI (R210) -/
  | mini (core d x : Nat) (v : Word)
  /-- MAXI (R210) -/
  | maxi (core d x : Nat) (v : Word)
  /-- XMOV_COMPLETE (R204) -/
  | xmovComplete (core : Nat)
  /-- XWAIT_COMPLETE (R204) -/
  | xwaitComplete (core : Nat)
  /-- IRQ_HANDLER_ENTRY (R226) -/
  | irqHandlerEntry (core : Nat)
  /-- EC_MEM_ACCESS (R203) -/
  | ecMemAccess (master addr : Nat) (write : Bool) (data : Word)
  /-- SQ_DOORBELL (R243) -/
  | sqDoorbell (sq : Nat) (val : Word)
  /-- CQ_DOORBELL (R248) -/
  | cqDoorbell (cq : Nat) (val : Word)
  /-- RING_ENABLE (R241) -/
  | ringEnable (isCq : Bool) (ring : Nat) (val : Word)
  /-- RING_DISABLE (R241) -/
  | ringDisable (isCq : Bool) (ring : Nat) (val : Word)
  /-- NET_PATH_ENABLE (R271) -/
  | netPathEnable (val : Word)
  /-- NET_KEY_WRITE (R271) -/
  | netKeyWrite (idx : Nat) (val : Word)
  /-- NET_COMMAND_DATAGRAM (R272) -/
  | netCommandDatagram (d : Dgram)
  /-- HELLO (R273) -/
  | hello (d : Dgram)
  /-- RWE_WRITE (R521) -/
  | rweWrite (addr : Nat) (val : Word)
  /-- GLB_RWE_CLR (R521) -/
  | glbRweClr (val : Word)
  /-- REGISTER_WRITE (R520) -/
  | registerWrite (addr : Nat) (be : Nat) (val : Word)
  /-- COUNTER_CLEAR (R63) -/
  | counterClear (addr : Nat) (val : Word)
  /-- LATCHING_READ (R517) -/
  | latchingRead (req addr : Nat)
  /-- IRQ_DOORBELL (R315) -/
  | irqDoorbell (val : Word)
  /-- IRQ_CLAIM (R323) -/
  | irqClaim (target : Nat)
  /-- IRQ_HOST_VCLAIM (R323) -/
  | irqHostVclaim (vec : Nat)
  /-- IRQ_COMPLETE (R324) -/
  | irqComplete (target : Nat) (val : Word)
  /-- IRQ_FAULT_CLR_RESUME (R327) -/
  | irqFaultClrResume (target : Nat)
  /-- IRQ_FAULT_CLR_DISCARD (R327) -/
  | irqFaultClrDiscard (target : Nat)
  /-- IRQ_SRC_CFG_WRITE (R316) -/
  | irqSrcCfgWrite (src : Nat) (val : Word)
  /-- HOLDOFF_END (R319) -/
  | holdoffEnd (group : Nat)
  /-- CIS_BANK_OWN_WRITE (R291) -/
  | cisBankOwnWrite (bank : Nat) (val : Word)
  /-- DRAIN_COMPLETE (R291) -/
  | drainComplete (bank : Nat)
  /-- DRAIN_TIMEOUT (R292) -/
  | drainTimeout (bank : Nat)
  /-- BUS_TRANSACTION (R300) -/
  | busTransaction (t : BusTxn)
  /-- BUS_GRANT (R299) -/
  | busGrant (port : Nat)
  /-- WINDOW_ACCESS (R293) -/
  | windowAccess (off : Nat) (write : Bool) (data : List Byte) (collide : Bool)
  /-- SCRUB_WRITEBACK (R296) -/
  | scrubWriteback (bank : Nat)
  /-- FRAME_RECEIVE (R338) -/
  | frameReceive (port : Nat) (frame : List Byte) (fcsOk : Bool)
  /-- PFC_FRAME (R342) -/
  | pfcFrame (port : Nat) (frame : List Byte)
  /-- PFC_PAUSE_END (R342) -/
  | pfcPauseEnd (port cls : Nat)
  /-- PFC_REPEAT (R344) -/
  | pfcRepeat (port cls : Nat)
  /-- FRAME_TRANSMIT (R341) -/
  | frameTransmit (port : Nat)
  /-- LINK_CHANGE (R373) -/
  | linkChange (port : Nat) (up : Bool)
  /-- STREAM_PACKET (R351) -/
  | streamPacket (port : Nat) (d : Dgram)
  /-- SYNC_RECEIVE (R390) -/
  | syncReceive (m : PtpMsg)
  /-- FOLLOW_UP_RECEIVE (R389) -/
  | followUpReceive (m : PtpMsg)
  /-- DELAY_REQ_RECEIVE (R389) -/
  | delayReqReceive (m : PtpMsg)
  /-- DELAY_RESP_RECEIVE (R390) -/
  | delayRespReceive (m : PtpMsg)
  /-- ANNOUNCE_RECEIVE (R386) -/
  | announceReceive (m : PtpMsg)
  /-- SYNC_TRANSMIT (R389) -/
  | syncTransmit (port : Nat)
  /-- ANNOUNCE_TRANSMIT (R385) -/
  | announceTransmit (port : Nat)
  /-- ANNOUNCE_TIMEOUT (R391) -/
  | announceTimeout (port : Nat)
  /-- PPS_IN_EDGE (R396) -/
  | ppsInEdge (t4 : Nat) (falling : Bool)
  /-- REF10M_GATE (R397) -/
  | ref10mGate (ppbQ8 : Int)
  /-- WCLK_IN_EDGE (R400) -/
  | wclkInEdge (t4 : Nat)
  /-- TIM_INCR_WRITE (R379) -/
  | timIncrWrite (val : Word)
  /-- TIM_NOW_READ (R381) -/
  | timNowRead (req : Nat)
  /-- TRIG_FIRE (R403) -/
  | trigFire (pin : Nat)
  /-- TRIG_PULSE_END (R403) -/
  | trigPulseEnd (pin : Nat)
  /-- TRIG_INPUT_EDGE (R405) -/
  | trigInputEdge (pin t4 : Nat) (falling : Bool)
  /-- TIM_CAP_READ (R405) -/
  | timCapRead (req pin : Nat)
  /-- SNP_TRIG (R125) -/
  | snpTrig (val : Word)
  /-- SNP_TIME_ARM (R125) -/
  | snpTimeArm (val : Word)
  /-- SNP_RELEASE (R126) -/
  | snpRelease (val : Word)
  /-- MEA_CF_FREEZE (R174) -/
  | meaCfFreeze (val : Word)
  /-- MEA_LOUD_RESET (R177) -/
  | meaLoudReset (val : Word)
  /-- LRCLK_EDGE (R419) -/
  | lrclkEdge (port : Nat) (samples : List Word)
  /-- SAP_LOST (R420) -/
  | sapLost (port : Nat)
  /-- SAP_RATE_WINDOW (R421) -/
  | sapRateWindow (port : Nat)
  /-- ADM_STAGE (R428) -/
  | admStage (frame : AdmFrame)
  /-- PHASE_MESSAGE (R444) -/
  | phaseMessage (m : LinkMsg)
  /-- PRESENCE_REPORT (R357) -/
  | presenceReport (m : LinkMsg)
  /-- FILL_PAYLOAD (R357) -/
  | fillPayload (m : LinkMsg)
  /-- STAGED_COMMAND (R450) -/
  | stagedCommand (m : LinkMsg)
  /-- ADMIT (R450) -/
  | admitMsg (m : LinkMsg)
  /-- VERDICT (R450) -/
  | verdict (m : LinkMsg)
  /-- COMMIT (R450) -/
  | commit (m : LinkMsg)
  /-- SNAPSHOT_TRIGGER_MESSAGE (R452) -/
  | snapshotTriggerMessage (m : LinkMsg)
  /-- DOORBELL_MESSAGE (R452) -/
  | doorbellMessage (m : LinkMsg)
  /-- DIGEST (R460) -/
  | digest (m : LinkMsg)
  /-- DOWN_NOTICE (R462) -/
  | downNotice (m : LinkMsg)
  /-- JOURNAL_MESSAGE (R466) -/
  | journalMessage (m : LinkMsg)
  /-- PRIME_MESSAGE (R467) -/
  | primeMessage (m : LinkMsg)
  /-- BULK_MESSAGE (R440) -/
  | bulkMessage (m : LinkMsg)
  /-- DISCOVERY (R447) -/
  | discovery (m : LinkMsg)
  /-- DISCOVERY_ANSWER (R447) -/
  | discoveryAnswer (m : LinkMsg)
  /-- RESEND_REQUEST (R442) -/
  | resendRequest (m : LinkMsg)
  /-- LANE_LOCK_LOSS (R443) -/
  | laneLockLoss (link : Nat)
  /-- LINK_TRAINED (R443) -/
  | linkTrained (link : Nat)
  /-- THERMAL_SAMPLE (R489) -/
  | thermalSample (tj tstage tocxo : Int)
  /-- BOOT_STAGE_END (R487) -/
  | bootStageEnd (r : BootIn)
  /-- DRIVER_FAULT (R492) -/
  | driverFault (pin : Nat) (isOpen : Bool)
  /-- DRIVER_RETRY (R492) -/
  | driverRetry (pin : Nat) (good : Bool)
  /-- MIC_STUCK (R493) -/
  | micStuck (mic : Nat)
  /-- MIC_OPEN_PROBE (R493) -/
  | micOpenProbe (mic : Nat) (isOpen : Bool)
  /-- SMBUS_BLOCK_READ (R544) -/
  | smbusBlockRead (cmd : Nat)
  /-- SVC_CLOSE (R503) -/
  | svcClose (val : Word)
  /-- ILLEGAL_INSTRUCTION (R233) -/
  | illegalInstruction (core : Nat)
  /-- MIC_STUCK_CLEAR (R493) -/
  | micStuckClear (mic : Nat)
  /-- FIRMWARE_QUEUE_DRAIN (R344) -/
  | firmwareQueueDrain (port cls : Nat) (n : Nat)
  /-- PCIE_POWER_STATE (R322) -/
  | pciePowerState (d0 : Bool) (l0 : Bool)
  /-- ADMISSION_PASS (R104) -/
  | admissionPass
  /-- FW_TXN_COMMIT (R100) -/
  | fwTxnCommit
  /-- EGRESS_BLOCK_COMPLETE (R362) -/
  | egressBlockComplete
  /-- FINE_FLOAT_UPDATE (R175) -/
  | fineFloatUpdate
  /-- SUBSET_PUBLISH (R179) -/
  | subsetPublish
  /-- EXPORT_COMPLETE (R191) -/
  | exportComplete
  /-- MARGIN_WINDOW_END (R358) -/
  | marginWindowEnd
  /-- BANK_CLEAR_DONE (R286) -/
  | bankClearDone
  /-- DEFERRED_RESET (R486) -/
  | deferredReset
  /-- PCIE_LINK_DOWN (R329) -/
  | pcieLinkDown
  /-- HOST_FALLBACK (R329) -/
  | hostFallback
  /-- PCIE_LINK_UP (R329) -/
  | pcieLinkUp
  /-- DELAY_REQ_TRANSMIT (R390) -/
  | delayReqTransmit
  /-- SYNC_TIMEOUT (R391) -/
  | syncTimeout
  /-- PPS_WINDOW_MISS (R397) -/
  | ppsWindowMiss
  /-- REF10M_LOST (R397) -/
  | ref10mLost
  /-- WCLK_LOST (R400) -/
  | wclkLost
  /-- HOLD_STORE (R398) -/
  | holdStore
  /-- VERDICT_TIMEOUT (R450) -/
  | verdictTimeout
  /-- COMMIT_MISSING (R451) -/
  | commitMissing
  /-- DIGEST_TIMEOUT (R458) -/
  | digestTimeout
  /-- PAIR_LINKS_DOWN (R462) -/
  | pairLinksDown
  /-- PRIME_COMPLETE (R467) -/
  | primeComplete
  /-- VERIFY_STALL (R468) -/
  | verifyStall
  /-- SUPPLY_WARNING (R481) -/
  | supplyWarning
  /-- JOURNAL_SEALED (R482) -/
  | journalSealed
  /-- WARNING_CLEAR (R484) -/
  | warningClear
  /-- BROWN_OUT_RESET (R486) -/
  | brownOutReset
  /-- RESTART (R479) -/
  | restart
  /-- OV_CLAMP (R478) -/
  | ovClamp
  /-- OV_TRIP (R478) -/
  | ovTrip
  /-- INPUT_RECLOSE (R478) -/
  | inputReclose
  /-- THERMAL_POWER_DOWN (R490) -/
  | thermalPowerDown
  /-- THERMAL_RESTART (R490) -/
  | thermalRestart
  /-- RESET_N (R494) -/
  | resetN
  /-- OCXO_WARM (R487) -/
  | ocxoWarm
  /-- CHECKPOINT_COMPLETE (R120) -/
  | checkpointComplete
  /-- CHALLENGE_EXPIRY (R501) -/
  | challengeExpiry
  /-- SESSION_EXPIRY (R503) -/
  | sessionExpiry
  /-- BACKOFF_END (R502) -/
  | backoffEnd
  /-- COMPLETION_POSTED (R260) -/
  | completionPosted
  /-- OV_CLAMP_END (R478) -/
  | ovClampEnd
  /-- ALLOWANCE_REFILL (R478) -/
  | allowanceRefill
  /-- RETENTION_LOSS (R486) -/
  | retentionLoss
  /-- RESET_N_RELEASE (R494) -/
  | resetNRelease
deriving DecidableEq, Repr

end Sys2Proof
end

