-- ==== Sys2Proof/WellFormed.lean ====
section
/-! DEFINITION. Operands that the hardware can be given: ring, bank, pin and port numbers within the device, and effect-core fields within
their encodings. The meanings answer for every operand; a program or a host can only send these. -/

namespace Sys2Proof

/-- A packet header's fields (R253). -/
def hdrOk (h : Hdr) : Bool :=
  decide (h.sq < 32) && decide (h.tag < 0x10000) && decide (h.txn < 0x100000000) && decide (h.depth < 16) && decide (h.path < 0x100000000)

/-- A move (R207). -/
def mvOk : Mv → Bool
  | .none => true
  | .ld d p => decide (d < 16) && decide (p < 8)
  | .st d p => decide (d < 16) && decide (p < 8)
  | .sta a sh p => decide (a < 4) && decide (sh < 4) && decide (p < 8)

/-- An update (R208). -/
def updOk : Upd → Bool
  | .none => true
  | .upd n op => decide (n < 8) && decide (op < 4)

def parOk (q : Par) : Bool := mvOk q.m0 && mvOk q.m1 && updOk q.u0 && updOk q.u1

/-- A word with slot A empty is a NOP when no move or update names its row: neither the first move, nor an update alone. -/
def emptyPar (q : Par) : Bool :=
  match q.m0, q.m1, q.u0 with
  | .none, .none, .upd _ _ => false
  | .none, _, _ => true
  | _, _, _ => false

def shAmtOk : ShAmt → Bool
  | .imm n => decide (n < 32)
  | .reg r => decide (r < 16)

def cntOk (most : Nat) : Cnt → Bool
  | .imm n => decide (n < most)
  | .reg r => decide (r < 16)

/-- A datagram (R337). -/
def dgramOk (d : Dgram) : Bool :=
  decide (d.port < 4) && decide (d.vlan < 4096) && decide (d.srcIp < 0x100000000) && decide (d.dstIp < 0x100000000) &&
  decide (d.srcUdp < 0x10000) && decide (d.dstUdp < 0x10000) && decide (d.udpLen < 0x10000)

/-- A bus-matrix transaction (R298, R300): a write carries its bytes. -/
def busOk (t : BusTxn) : Bool :=
  decide (t.master < 25) && decide (t.id < 32) && decide (t.qos < 16) && decide (0 < t.len) && (!t.write || t.data.length == t.len)

def ptpOk (m : PtpMsg) : Bool := decide (m.port < 4) && decide (m.seq < 0x10000) && decide (m.domain < 256)

def linkOk (m : LinkMsg) : Bool := decide (m.link < 6)

/-- What the world did in a tick: 16 PDM lines with two edges, upsets inside the cistern. -/
def tickOk (t : TickIn) : Bool :=
  t.pdm.all (fun e => decide (e.1 < 32)) && t.upsets.all fun e => decide (e.1 < 0x8000000) && e.1 % 4 == 0

/-- An S-ADM frame: as many bounds as a zone of its kind has. -/
def admOk (f : AdmFrame) : Bool :=
  f.blocks.all fun b => (b.zones.getD []).all fun z => z.bounds.length == if z.cart then 6 else 4

/-- A command within what can be sent. -/
def Instr.wellFormed : Instr → Bool
  | .tickBoundary t => tickOk t
  | .sampleRelease _ => true
  | .burstMuteEnd ch => decide (ch < 16448)
  | .packetCutoff slot seq => decide (slot < 256) && decide (seq < 0x10000)
  | .fillDeadline slot seq => decide (slot < 256) && decide (seq < 0x10000)
  | .wellPrimed obj => decide (obj < 4096)
  | .routeFadeEnd obj out => decide (obj < 4096) && decide (out < 1024)
  | .objOffRampEnd obj => decide (obj < 4096)
  | .outputModeSwitch out => decide (out < 1024)
  | .corFadeEnd out => decide (out < 1024)
  | .corSwitch out => decide (out < 1024)
  | .corSettled out => decide (out < 1024)
  | .micValid mic => decide (mic < 32)
  | .strRxFadeEnd slot => decide (slot < 256)
  | .ecOverrun core => decide (core < 16)
  | .lateHalt core => decide (core < 16)
  | .ecStopRampEnd core => decide (core < 16)
  | .packetFetch sq _ => decide (sq < 32)
  | .cmdTimeout _ => true
  | .txnIdleTimeout txn => decide (txn < 0x100000000)
  | .opNop h p => hdrOk h && decide (p.length < 65536)
  | .opSysInfo h p => hdrOk h && decide (p.length < 65536)
  | .opSysRate h p => hdrOk h && decide (p.length < 65536)
  | .opRampSet h p => hdrOk h && decide (p.length < 65536)
  | .opRecoverRelease h p => hdrOk h && decide (p.length < 65536)
  | .opRegWrite h p => hdrOk h && decide (p.length < 65536)
  | .opRegRead h p => hdrOk h && decide (p.length < 65536)
  | .opSysReset h p => hdrOk h && decide (p.length < 65536)
  | .opTxnOpen h p => hdrOk h && decide (p.length < 65536)
  | .opTxnCommit h p => hdrOk h && decide (p.length < 65536)
  | .opTxnCommitAt h p => hdrOk h && decide (p.length < 65536)
  | .opTxnCommitCheck h p => hdrOk h && decide (p.length < 65536)
  | .opTxnAbort h p => hdrOk h && decide (p.length < 65536)
  | .opTxnStatus h p => hdrOk h && decide (p.length < 65536)
  | .opObjSet h p => hdrOk h && decide (p.length < 65536)
  | .opObjKeys h p => hdrOk h && decide (p.length < 65536)
  | .opObjKeysClear h p => hdrOk h && decide (p.length < 65536)
  | .opWellSize h p => hdrOk h && decide (p.length < 65536)
  | .opObjState h p => hdrOk h && decide (p.length < 65536)
  | .opDistTable h p => hdrOk h && decide (p.length < 65536)
  | .opSpkSet h p => hdrOk h && decide (p.length < 65536)
  | .opLayoutSet h p => hdrOk h && decide (p.length < 65536)
  | .opArraySet h p => hdrOk h && decide (p.length < 65536)
  | .opLayoutRead h p => hdrOk h && decide (p.length < 65536)
  | .opDinSet h p => hdrOk h && decide (p.length < 65536)
  | .opXpSet h p => hdrOk h && decide (p.length < 65536)
  | .opOutSet h p => hdrOk h && decide (p.length < 65536)
  | .opSpSet h p => hdrOk h && decide (p.length < 65536)
  | .opRouteRead h p => hdrOk h && decide (p.length < 65536)
  | .opCorCfg h p => hdrOk h && decide (p.length < 65536)
  | .opCorLoad h p => hdrOk h && decide (p.length < 65536)
  | .opCorSwap h p => hdrOk h && decide (p.length < 65536)
  | .opCorStatus h p => hdrOk h && decide (p.length < 65536)
  | .opMeaMetrics h p => hdrOk h && decide (p.length < 65536)
  | .opMeaRefCapture h p => hdrOk h && decide (p.length < 65536)
  | .opMeaExport h p => hdrOk h && decide (p.length < 65536)
  | .opEcLoad h p => hdrOk h && decide (p.length < 65536)
  | .opEcAttach h p => hdrOk h && decide (p.length < 65536)
  | .opEcDetach h p => hdrOk h && decide (p.length < 65536)
  | .opEcParam h p => hdrOk h && decide (p.length < 65536)
  | .opEcStart h p => hdrOk h && decide (p.length < 65536)
  | .opEcStop h p => hdrOk h && decide (p.length < 65536)
  | .opEcRead h p => hdrOk h && decide (p.length < 65536)
  | .opStrRxSet h p => hdrOk h && decide (p.length < 65536)
  | .opStrTxSet h p => hdrOk h && decide (p.length < 65536)
  | .opStrDelete h p => hdrOk h && decide (p.length < 65536)
  | .opStrMask h p => hdrOk h && decide (p.length < 65536)
  | .opNetPortSet h p => hdrOk h && decide (p.length < 65536)
  | .opStrStatus h p => hdrOk h && decide (p.length < 65536)
  | .opTimPtpSet h p => hdrOk h && decide (p.length < 65536)
  | .opTimPathAccept h p => hdrOk h && decide (p.length < 65536)
  | .opTimTrigSet h p => hdrOk h && decide (p.length < 65536)
  | .opTimRefSet h p => hdrOk h && decide (p.length < 65536)
  | .opTimStatus h p => hdrOk h && decide (p.length < 65536)
  | .opSapSet h p => hdrOk h && decide (p.length < 65536)
  | .opAdmSet h p => hdrOk h && decide (p.length < 65536)
  | .opSapStatus h p => hdrOk h && decide (p.length < 65536)
  | .opGangForm h p => hdrOk h && decide (p.length < 65536)
  | .opGangLeave h p => hdrOk h && decide (p.length < 65536)
  | .opMirForm h p => hdrOk h && decide (p.length < 65536)
  | .opMirRole h p => hdrOk h && decide (p.length < 65536)
  | .opGangStatus h p => hdrOk h && decide (p.length < 65536)
  | .opSnpTrigger h p => hdrOk h && decide (p.length < 65536)
  | .opSnpRead h p => hdrOk h && decide (p.length < 65536)
  | .opJnlRead h p => hdrOk h && decide (p.length < 65536)
  | .opPwrSet h p => hdrOk h && decide (p.length < 65536)
  | .opPwrStatus h p => hdrOk h && decide (p.length < 65536)
  | .opSvcChallenge h p => hdrOk h && decide (p.length < 65536)
  | .opSvcResponse h p => hdrOk h && decide (p.length < 65536)
  | .opSvcOwner h p => hdrOk h && decide (p.length < 65536)
  | .opFwWrite h p => hdrOk h && decide (p.length < 65536)
  | .opFwActivate h p => hdrOk h && decide (p.length < 65536)
  | .nop core q => decide (core < 16) && parOk q && emptyPar q
  | .mpy core a x y _ q => decide (core < 16) && decide (a < 4) && decide (x < 16) && decide (y < 16) && parOk q
  | .mac core a x y _ q => decide (core < 16) && decide (a < 4) && decide (x < 16) && decide (y < 16) && parOk q
  | .fir4 core x k _ _ q => decide (core < 16) && decide (x < 16) && decide (k < 4) && parOk q
  | .dmac core half x0 y0 x1 y1 q => decide (core < 16) && decide (half < 2) && decide (x0 < 16) && decide (y0 < 16) && decide (x1 < 16) && decide (y1 < 16) && parOk q
  | .dmpy core half x0 y0 x1 y1 q => decide (core < 16) && decide (half < 2) && decide (x0 < 16) && decide (y0 < 16) && decide (x1 < 16) && decide (y1 < 16) && parOk q
  | .cmac core u v half _ _ q => decide (core < 16) && decide (u < 8) && decide (v < 8) && decide (half < 2) && parOk q
  | .acs2 core ma mb bm k _ q => decide (core < 16) && decide (ma < 16) && decide (mb < 16) && decide (bm < 16) && decide (k < 8) && parOk q
  | .acs1 core dst s0 s1 bm _ q => decide (core < 16) && decide (dst < 16) && decide (s0 < 16) && decide (s1 < 16) && decide (bm < 16) && parOk q
  | .add core d x y q => decide (core < 16) && decide (d < 16) && decide (x < 16) && decide (y < 16) && parOk q
  | .sub core d x y q => decide (core < 16) && decide (d < 16) && decide (x < 16) && decide (y < 16) && parOk q
  | .adds core d x y q => decide (core < 16) && decide (d < 16) && decide (x < 16) && decide (y < 16) && parOk q
  | .subs core d x y q => decide (core < 16) && decide (d < 16) && decide (x < 16) && decide (y < 16) && parOk q
  | .and core d x y q => decide (core < 16) && decide (d < 16) && decide (x < 16) && decide (y < 16) && parOk q
  | .or core d x y q => decide (core < 16) && decide (d < 16) && decide (x < 16) && decide (y < 16) && parOk q
  | .xor core d x y q => decide (core < 16) && decide (d < 16) && decide (x < 16) && decide (y < 16) && parOk q
  | .shift core kind d x amt q => decide (core < 16) && decide (kind < 4) && decide (d < 16) && decide (x < 16) && shAmtOk amt && parOk q
  | .min core d x y q => decide (core < 16) && decide (d < 16) && decide (x < 16) && decide (y < 16) && parOk q
  | .max core d x y q => decide (core < 16) && decide (d < 16) && decide (x < 16) && decide (y < 16) && parOk q
  | .abs core d x q => decide (core < 16) && decide (d < 16) && decide (x < 16) && parOk q
  | .neg core d x q => decide (core < 16) && decide (d < 16) && decide (x < 16) && parOk q
  | .cmp core x y q => decide (core < 16) && decide (x < 16) && decide (y < 16) && parOk q
  | .mov core d x q => decide (core < 16) && decide (d < 16) && decide (x < 16) && parOk q
  | .aclr core mask q => decide (core < 16) && decide (mask < 16) && parOk q
  | .aadd core d x _ q => decide (core < 16) && decide (d < 4) && decide (x < 4) && parOk q
  | .ash core d x n q => decide (core < 16) && decide (d < 4) && decide (x < 4) && decide (-32 ≤ n) && decide (n < 32) && parOk q
  | .arnd core d a sh q => decide (core < 16) && decide (d < 16) && decide (a < 4) && decide (sh < 4) && parOk q
  | .ald core a d q => decide (core < 16) && decide (a < 4) && decide (d < 16) && parOk q
  | .ld core d p m1 u0 u1 => decide (core < 16) && decide (d < 16) && decide (p < 8) && mvOk m1 && updOk u0 && updOk u1
  | .st core d p m1 u0 u1 => decide (core < 16) && decide (d < 16) && decide (p < 8) && mvOk m1 && updOk u0 && updOk u1
  | .sta core a sh p m1 u0 u1 => decide (core < 16) && decide (a < 4) && decide (sh < 4) && decide (p < 8) && mvOk m1 && updOk u0 && updOk u1
  | .addressUpdate core n op u1 => decide (core < 16) && decide (n < 8) && decide (op < 4) && updOk u1
  | .br core cond target => decide (core < 16) && decide (cond < 16) && decide (target < 8192)
  | .call core cond target => decide (core < 16) && decide (cond < 16) && decide (target < 8192)
  | .ret core cond => decide (core < 16) && decide (cond < 16)
  | .reti core => decide (core < 16)
  | .rpt core n => decide (core < 16) && cntOk 8192 n
  | .loop core stop n => decide (core < 16) && decide (stop < 8192) && cntOk 65536 n
  | .halt core => decide (core < 16)
  | .ldi core id _ => decide (core < 16) && decide (id < 256)
  | .movc core dst src => decide (core < 16) && decide (dst < 256) && decide (src < 256)
  | .xmov core d p _ lines => decide (core < 16) && decide (d < 16) && decide (p < 8) && decide (lines < 8192)
  | .xwait core => decide (core < 16)
  | .signal core src => decide (core < 16) && decide (src < 512)
  | .clrf core mask => decide (core < 16) && decide (mask < 4)
  | .addi core d x _ => decide (core < 16) && decide (d < 16) && decide (x < 16)
  | .addsi core d x _ => decide (core < 16) && decide (d < 16) && decide (x < 16)
  | .andi core d x _ => decide (core < 16) && decide (d < 16) && decide (x < 16)
  | .ori core d x _ => decide (core < 16) && decide (d < 16) && decide (x < 16)
  | .xori core d x _ => decide (core < 16) && decide (d < 16) && decide (x < 16)
  | .cmpi core x _ => decide (core < 16) && decide (x < 16)
  | .mini core d x _ => decide (core < 16) && decide (d < 16) && decide (x < 16)
  | .maxi core d x _ => decide (core < 16) && decide (d < 16) && decide (x < 16)
  | .xmovComplete core => decide (core < 16)
  | .xwaitComplete core => decide (core < 16)
  | .irqHandlerEntry core => decide (core < 16)
  | .ecMemAccess master addr _ _ => decide (master < 25) && decide (addr < 0x100000000)
  | .sqDoorbell sq _ => decide (sq < 32)
  | .cqDoorbell cq _ => decide (cq < 32)
  | .ringEnable _ ring _ => decide (ring < 32)
  | .ringDisable _ ring _ => decide (ring < 32)
  | .netPathEnable _ => true
  | .netKeyWrite idx _ => decide (idx < 8)
  | .netCommandDatagram d => dgramOk d
  | .hello d => dgramOk d
  | .rweWrite addr _ => decide (addr < 0x130000)
  | .glbRweClr _ => true
  | .registerWrite addr be _ => decide (addr < 0x1000000) && decide (be < 16)
  | .counterClear addr _ => decide (addr < 0x130000)
  | .latchingRead req addr => decide (req < 27) && decide (addr < 0x1000000)
  | .irqDoorbell _ => true
  | .irqClaim target => decide (target < 21)
  | .irqHostVclaim vec => decide (vec < 32)
  | .irqComplete target _ => decide (target < 21)
  | .irqFaultClrResume target => decide (target < 21)
  | .irqFaultClrDiscard target => decide (target < 21)
  | .irqSrcCfgWrite src _ => decide (src < 512)
  | .holdoffEnd group => decide (group < 16)
  | .cisBankOwnWrite bank _ => decide (bank < 256)
  | .drainComplete bank => decide (bank < 256)
  | .drainTimeout bank => decide (bank < 256)
  | .busTransaction t => busOk t
  | .busGrant port => decide (port < 21)
  | .windowAccess off _ _ _ => decide (off < 0x8000000)
  | .scrubWriteback bank => decide (bank < 256)
  | .frameReceive port _ _ => decide (port < 4)
  | .pfcFrame port _ => decide (port < 4)
  | .pfcPauseEnd port cls => decide (port < 4) && decide (cls < 8)
  | .pfcRepeat port cls => decide (port < 4) && decide (cls < 8)
  | .frameTransmit port => decide (port < 4)
  | .linkChange port _ => decide (port < 4)
  | .streamPacket port d => decide (port < 4) && dgramOk d
  | .syncReceive m => ptpOk m
  | .followUpReceive m => ptpOk m
  | .delayReqReceive m => ptpOk m
  | .delayRespReceive m => ptpOk m
  | .announceReceive m => ptpOk m
  | .syncTransmit port => decide (port < 4)
  | .announceTransmit port => decide (port < 4)
  | .announceTimeout port => decide (port < 4)
  | .ppsInEdge _ _ => true
  | .ref10mGate _ => true
  | .wclkInEdge _ => true
  | .timIncrWrite _ => true
  | .timNowRead req => decide (req < 27)
  | .trigFire pin => decide (pin < 16)
  | .trigPulseEnd pin => decide (pin < 16)
  | .trigInputEdge pin _ _ => decide (pin < 16)
  | .timCapRead req pin => decide (req < 27) && decide (pin < 16)
  | .snpTrig _ => true
  | .snpTimeArm _ => true
  | .snpRelease _ => true
  | .meaCfFreeze _ => true
  | .meaLoudReset _ => true
  | .lrclkEdge port _ => decide (port < 32)
  | .sapLost port => decide (port < 32)
  | .sapRateWindow port => decide (port < 32)
  | .admStage frame => admOk frame
  | .phaseMessage m => linkOk m
  | .presenceReport m => linkOk m
  | .fillPayload m => linkOk m
  | .stagedCommand m => linkOk m
  | .admitMsg m => linkOk m
  | .verdict m => linkOk m
  | .commit m => linkOk m
  | .snapshotTriggerMessage m => linkOk m
  | .doorbellMessage m => linkOk m
  | .digest m => linkOk m
  | .downNotice m => linkOk m
  | .journalMessage m => linkOk m
  | .primeMessage m => linkOk m
  | .bulkMessage m => linkOk m
  | .discovery m => linkOk m
  | .discoveryAnswer m => linkOk m
  | .resendRequest m => linkOk m
  | .laneLockLoss link => decide (link < 6)
  | .linkTrained link => decide (link < 6)
  | .thermalSample _ _ _ => true
  | .bootStageEnd _ => true
  | .driverFault pin _ => decide (pin < 119)
  | .driverRetry pin _ => decide (pin < 119)
  | .micStuck mic => decide (mic < 32)
  | .micOpenProbe mic _ => decide (mic < 32)
  | .smbusBlockRead cmd => decide (cmd < 256)
  | .svcClose _ => true
  | .illegalInstruction core => decide (core < 16)
  | .micStuckClear mic => decide (mic < 32)
  | .firmwareQueueDrain port cls _ => decide (port < 4) && decide (cls < 8)
  | .pciePowerState _ _ => true
  | .admissionPass => true
  | .fwTxnCommit => true
  | .egressBlockComplete => true
  | .fineFloatUpdate => true
  | .subsetPublish => true
  | .exportComplete => true
  | .marginWindowEnd => true
  | .bankClearDone => true
  | .deferredReset => true
  | .pcieLinkDown => true
  | .hostFallback => true
  | .pcieLinkUp => true
  | .delayReqTransmit => true
  | .syncTimeout => true
  | .ppsWindowMiss => true
  | .ref10mLost => true
  | .wclkLost => true
  | .holdStore => true
  | .verdictTimeout => true
  | .commitMissing => true
  | .digestTimeout => true
  | .pairLinksDown => true
  | .primeComplete => true
  | .verifyStall => true
  | .supplyWarning => true
  | .journalSealed => true
  | .warningClear => true
  | .brownOutReset => true
  | .restart => true
  | .ovClamp => true
  | .ovTrip => true
  | .inputReclose => true
  | .thermalPowerDown => true
  | .thermalRestart => true
  | .resetN => true
  | .ocxoWarm => true
  | .checkpointComplete => true
  | .challengeExpiry => true
  | .sessionExpiry => true
  | .backoffEnd => true
  | .completionPosted => true
  | .ovClampEnd => true
  | .allowanceRefill => true
  | .retentionLoss => true
  | .resetNRelease => true

end Sys2Proof
end

