-- ==== Sys2Proof/Decode.lean ====
section
/-! DEFINITION. The command that a word of the opcode table's bits spells. No row of the table gives bits: a command is a register access, a
packet, a message or an event, and none of them is one word; the words of the effect cores' programs are read in Machine/EcDecode. -/

namespace Sys2Proof

/-- Decoding of a table word: there is none. -/
def decodeTableWord (_nbits _w : Nat) : Option Instr := none

end Sys2Proof
end

