-- ==== Sys2Proof/Config.lean ====
section
/-! DEFINITION. The values the spec leaves open. Each is opaque: no proof can see what it is, so a claim holds whatever it is. -/

namespace Sys2Proof.Config

/-- R58: outcome of a geometry comparison whose exact value lies within 2^-32 of its threshold; by site, value, threshold. -/
opaque freeCompare : Nat → Int → Int → Bool

/-- R58: deviation of a published gain from the exact result, limited to 2 LSB where it is used; by exact value, object, output. -/
opaque gainDev : Int → Nat → Nat → Int

/-- R215: what C holds after a subtraction is not said: true when it holds the borrow, false when its complement. -/
opaque subCarryIsBorrow : Bool

/-- R204: a local data word read while a queued transfer covers it; by core, address and a number that never repeats. -/
opaque xferWord : Nat → Nat → Nat → BitVec 32

/-- R229: the layout of microphone, pilot and burst data in an insert buffer of class 2 or 3 is not given: the word by core,
buffer address, tick and index. -/
opaque insertWord : Nat → Nat → Nat → Nat → BitVec 32

/-- R289: a byte that a read returns when a write to its word meets it in a word-mode bank; by a number that never repeats and
index. -/
opaque collideByte : Nat → Nat → BitVec 8

/-- R162: coefficient word of a half-band ROM entry, by entry and index; the spec gives the responses, not the words. -/
opaque hbCoef : Nat → Nat → BitVec 32

/-- R134: what a tail partition adds beside the exact convolution, in units of 2^-61, by its taps, its 2B inputs and the
sample; it is 0 where the taps or the inputs are all zero, and limited by R134 and `corNoise` where it is used. -/
opaque corDev : List Int → List Int → Nat → Int

/-- R134: most that the roundings inside the transforms of a partition add, in units of 2^-61. -/
opaque corNoise : Nat

/-- R417: a sample out of an asynchronous converter, whose filter is not given: by direction (true toward the port), the
frames it holds, newest first, and the output time. -/
opaque asrc : Bool → List (Nat × Int) → Nat → BitVec 32

/-- R437: the data_type that SMPTE ST 338 assigns to S-ADM. -/
opaque sadmType : Nat

/-- R390: what the PI servo adds to TIM_HOLD, limited by R398 where it is used; by a number that never repeats. -/
opaque servo : Nat → Int

/-- R471: percentage of flit slots a link used, which only traffic timing decides; by a number that never repeats, limited to 100
where it is used. -/
opaque linkUtil : Nat → Nat

/-- R168, R139: a microphone sample behind an IIR stage, whose inner precision is not given; by microphone and sample time. -/
opaque micIir : Nat → Nat → BitVec 32

/-- R175: a tap of the true-peak interpolator of ITU-R BS.1770-4 Annex 2 (4×) and of its 2× counterpart (true), in units of 2^-30, by phase and
index; the spec does not list them. -/
opaque tpTap : Bool → Nat → Nat → Int

/-- R177: K-weighted energy of a channel over 100 ms, in units of 2^-62 of full scale squared times samples; the ROM coefficients
are not given; by a number that never repeats. -/
opaque kEnergy : Nat → Nat

/-- R180, R181: what the identification engine estimates for a response: arrival in Q18.8 samples before the reduction by G / R,
band levels by band, confidence, and the response's taps; by the response's number. -/
opaque identArrival : Nat → Nat
opaque identLevel : Nat → Nat → Int
opaque identConf : Nat → Nat
opaque identTap : Nat → Nat → BitVec 16

/-- R184, R185: the feed of an output carried at least -50 dBFS in the band over the dwell; by a number that never repeats. -/
opaque identFed : Nat → Bool

/-- R187: a chip of a spreading code: by code number and chip; true is +1. -/
opaque pilotChip : Nat → Nat → Bool

/-- R188: whether the pilot decoder of an effect core decoded a frame well; by a number that never repeats. -/
opaque pilotOk : Nat → Bool

/-- R120: a byte of the MRAM whose layout the spec does not give (headers, checkpoint images, persistent store); by a number that
never repeats and offset. -/
opaque mramByte : Nat → Nat → BitVec 8

/-- R504: whether the signature of a firmware image verifies against the key that Sorunsia burns; by the digest of what is signed and the
signature. -/
opaque fwSigOk : Nat → Nat → Bool

/-- R501: a random byte of a challenge, by a number that never repeats and index. -/
opaque challenge : Nat → Nat → BitVec 8

/-- R495: a measured electrical value (1 input mV, 2 HOLD mV, 3 input mA, 4 input mW), by cycle. -/
opaque telemetry : Nat → Nat → BitVec 32

/-- R316: target and priority of the firmware's own interrupt sources 480 to 511 (target code, priority, vector). -/
opaque fwRoute : Nat → BitVec 32

/-- R509: a byte of the flash controller's register window, whose layout is not given; by a number that never repeats and offset. -/
opaque flashByte : Nat → Nat → BitVec 8

/-- R89, R305: counts that only cycle timing inside the pumps and banks decides (PMP_CNT_STALL, CIS_CNT_STARVE), by address and cycle. -/
opaque timingCount : Nat → Nat → BitVec 32

end Sys2Proof.Config
end

