-- ==== Sys2Proof/Machine/Num.lean ====
section
/-! DEFINITION. The arithmetic every chapter shares: rounding and saturation (R7), sorted tables, bytes and words,
and exact real functions in fixed point with 128 fraction bits. -/

namespace Sys2Proof.Machine

/-! ### Rounding and saturation (R7) -/

/-- Round `a / d` to the nearest integer, ties to even (R7); `d` is positive. -/
def rneDiv (a : Int) (d : Nat) : Int :=
  let q := a.fdiv d
  let r2 := 2 * (a - q * d)
  if r2 < d then q else if r2 > d then q + 1 else if q % 2 == 0 then q else q + 1

/-- Drop `n` fraction bits, rounding to nearest, ties to even (R7, R74). -/
def rne (a : Int) (n : Nat) : Int := rneDiv a (2 ^ n)

/-- Saturate to a two's-complement width (R7). -/
def satS (w : Nat) (a : Int) : Int :=
  if a > 2 ^ (w - 1) - 1 then 2 ^ (w - 1) - 1 else if a < -(2 ^ (w - 1)) then -(2 ^ (w - 1)) else a

def sat32 (a : Int) : Int := satS 32 a
def sat64 (a : Int) : Int := satS 64 a

/-- The signed value of the low `w` bits of a number. -/
def signedOf (w a : Nat) : Int :=
  let m := a % 2 ^ w
  if m < 2 ^ (w - 1) then (m : Int) else (m : Int) - 2 ^ w

/-- The low `w` bits of an integer, as a number. -/
def bitsOf (w : Nat) (a : Int) : Nat := (a % (2 ^ w : Int)).toNat

def ceilDiv (a b : Nat) : Nat := (a + b - 1) / b

def clampInt (lo hi a : Int) : Int := if a < lo then lo else if a > hi then hi else a

/-- Bits `[hi:lo]` of a word. -/
def fld (w : Word) (hi lo : Nat) : Nat := (w.toNat / 2 ^ lo) % 2 ^ (hi - lo + 1)

def bit (w : Word) (i : Nat) : Bool := w.toNat.testBit i

def natBit (n i : Nat) : Bool := n.testBit i

def b2n (b : Bool) : Nat := if b then 1 else 0

def wd (n : Nat) : Word := BitVec.ofNat 32 n

def wdI (n : Int) : Word := BitVec.ofInt 32 n

/-- Set bit `i` of a word. -/
def setBitW (w : Word) (i : Nat) : Word := w ||| wd (2 ^ i)

def clrBitW (w : Word) (i : Nat) : Word := w &&& ~~~ (wd (2 ^ i))

/-- Replace bits `[hi:lo]` of a word. -/
def setFld (w : Word) (hi lo v : Nat) : Word :=
  let m := (2 ^ (hi - lo + 1) - 1) * 2 ^ lo
  (w &&& ~~~ (wd m)) ||| (wd (v * 2 ^ lo) &&& wd m)

/-- A 32-bit counter that saturates. -/
def satInc (w : Word) (k : Nat) : Word := wd (min (w.toNat + k) 0xFFFFFFFF)

/-! ### Sorted tables -/

def tabGet {α : Type} : Tab α → Nat → Option α
  | [], _ => none
  | (k, v) :: t, i => if k == i then some v else tabGet t i

def tabGetD {α : Type} (t : Tab α) (i : Nat) (d : α) : α := (tabGet t i).getD d

def tabSet {α : Type} : Tab α → Nat → α → Tab α
  | [], i, a => [(i, a)]
  | (k, v) :: t, i, a =>
    if k == i then (i, a) :: t else if k > i then (i, a) :: (k, v) :: t else (k, v) :: tabSet t i a

def tabDel {α : Type} (t : Tab α) (i : Nat) : Tab α := t.filter (fun e => e.1 != i)

/-- Insert into a list sorted by `key`, keeping it sorted; an element of equal key stays first. -/
def insertBy {α : Type} (key : α → Nat) (a : α) : List α → List α
  | [] => [a]
  | b :: t => if key b ≤ key a then b :: insertBy key a t else a :: b :: t

def sortBy {α : Type} (key : α → Nat) (l : List α) : List α := l.foldl (fun acc a => insertBy key a acc) []

def sumInt (l : List Int) : Int := l.foldl (· + ·) 0
def sumNat (l : List Nat) : Nat := l.foldl (· + ·) 0
def maxNat (l : List Nat) : Nat := l.foldl max 0

def listSet {α : Type} (l : List α) (i : Nat) (a : α) : List α := l.set i a

/-- No two equal elements. -/
def noDup (l : List Nat) : Bool :=
  match l with
  | [] => true
  | a :: t => !(t.contains a) && noDup t

/-! ### Bytes and words (R13, R255) -/

/-- Little-endian 32-bit words of a byte list; a last partial word is filled with zero bytes. -/
def wordsOf : List Byte → List Word
  | a :: b :: c :: d :: t => (d ++ c ++ b ++ a : BitVec 32) :: wordsOf t
  | [] => []
  | [a] => [(0#24 ++ a : BitVec 32)]
  | [a, b] => [(0#16 ++ b ++ a : BitVec 32)]
  | [a, b, c] => [(0#8 ++ c ++ b ++ a : BitVec 32)]

/-- The four little-endian bytes of a word. -/
def bytesOfWord (w : Word) : List Byte :=
  [w.extractLsb' 0 8, w.extractLsb' 8 8, w.extractLsb' 16 8, w.extractLsb' 24 8]

def bytesOfWords (l : List Word) : List Byte := l.flatMap bytesOfWord

/-- Little-endian value of a byte list. -/
def leNat : List Byte → Nat
  | [] => 0
  | b :: t => b.toNat + 256 * leNat t

/-- Big-endian value of a byte list (network fields). -/
def beNat (l : List Byte) : Nat := l.foldl (fun a b => a * 256 + b.toNat) 0

/-- `n` little-endian bytes of a number. -/
def leBytes : Nat → Nat → List Byte
  | 0, _ => []
  | k + 1, v => BitVec.ofNat 8 v :: leBytes k (v / 256)

/-- `n` big-endian bytes of a number. -/
def beBytes (n v : Nat) : List Byte := (leBytes n v).reverse

/-- `n` words of a number, low word first. -/
def leWords : Nat → Nat → List Word
  | 0, _ => []
  | k + 1, v => wd v :: leWords k (v / 2 ^ 32)

/-- Word `i` of a list of words, zero beyond its end. -/
def wAt (l : List Word) (i : Nat) : Word := l.getD i 0

/-- Cut a list into pieces of `n` (the first `fuel` of them). -/
def chunk {α : Type} (n : Nat) : Nat → List α → List (List α)
  | 0, _ => []
  | f + 1, l => if l.isEmpty then [] else l.take n :: chunk n f (l.drop n)

/-- The words of a COUNT list (R255): records of `k` words, when the layout holds. -/
def listRecords (k : Nat) (p : List Byte) : Option (List (List Word)) :=
  match wordsOf p with
  | [] => none
  | c :: t =>
    if fld c 31 16 == 0 && fld c 15 0 ≥ 1 && p.length == 4 + fld c 15 0 * k * 4
    then some (chunk k (fld c 15 0) t) else none

/-! ### Integer roots -/

/-- Largest `r` below `2^n` beyond the accumulated bits with `r^k ≤ a`. -/
def rootBits (k a : Nat) : Nat → Nat → Nat
  | 0, r => r
  | n + 1, r => if (r + 2 ^ n) ^ k ≤ a then rootBits k a n (r + 2 ^ n) else rootBits k a n r

/-- Integer `k`-th root, rounded down; `n` bits of result suffice. -/
def iroot (k n a : Nat) : Nat := rootBits k a n 0

/-- Integer square root by bits. -/
def isqrt (a : Nat) : Nat := iroot 2 (a.log2 / 2 + 1) a

/-! ### Reals in fixed point: integers scaled by 2^128 -/

/-- Fraction bits of the fixed-point reals. -/
def fxBits : Nat := 128

/-- One, as a fixed-point real. -/
def fxOne : Int := 2 ^ 128

def fxOfInt (a : Int) : Int := a * fxOne

/-- `a / 2^n` as a fixed-point real (`n ≤ 128`). -/
def fxOfQ (a : Int) (n : Nat) : Int := a * 2 ^ (128 - n)

/-- `a / b`, exact up to one unit of the last place. -/
def fxRat (a : Int) (b : Nat) : Int := (a * fxOne).fdiv b

def fxMul (a b : Int) : Int := (a * b).fdiv fxOne

/-- Quotient; a zero divisor gives zero, and every caller rules it out. -/
def fxDiv (a b : Int) : Int := if b == 0 then 0 else if b > 0 then (a * fxOne).fdiv b else (-a * fxOne).fdiv (-b)

/-- Square root of a fixed-point real, zero for a negative one. -/
def fxSqrt (a : Int) : Int := if a ≤ 0 then 0 else (isqrt (a.toNat * 2 ^ 128) : Nat)

/-- Pi. -/
def fxPi : Int := 0x3243F6A8885A308D313198A2E03707344

/-- Taylor sum of the sine: term `t` = x^(2i+1)/(2i+1)!. -/
def fxSinAux (x2 : Int) : Nat → Nat → Int → Int
  | 0, _, _ => 0
  | f + 1, i, t => t + fxSinAux x2 f (i + 1) (-(fxMul t x2).fdiv ((2 * i + 2) * (2 * i + 3)))

/-- Sine of an angle in radians between -pi and pi. -/
def fxSinRad (x : Int) : Int := fxSinAux (fxMul x x) 40 0 x

/-- Angle in degrees reduced to -180 ≤ a < 180 (R10). -/
def degReduce (a : Int) : Int := (a + fxOfInt 180) % (fxOfInt 360) - fxOfInt 180

/-- Sine of an angle in degrees. Angles beyond ±90° fold back, so that the series stays short. -/
def fxSinDeg (a : Int) : Int :=
  let r := degReduce a
  let r := if r > fxOfInt 90 then fxOfInt 180 - r else if r < -(fxOfInt 90) then -(fxOfInt 180) - r else r
  fxSinRad (fxMul r fxPi / 180)

def fxCosDeg (a : Int) : Int := fxSinDeg (a + fxOfInt 90)

/-- Taylor sum of the arctangent for small `x`: term `t` = x^(2i+1). -/
def fxAtanAux (x2 : Int) : Nat → Nat → Int → Int
  | 0, _, _ => 0
  | f + 1, i, t => t.fdiv (2 * i + 1) + fxAtanAux x2 f (i + 1) (-(fxMul t x2))

/-- Halve the angle: `x / (1 + sqrt(1 + x^2))`. -/
def fxHalfTan (x : Int) : Int := fxDiv x (fxOne + fxSqrt (fxOne + fxMul x x))

/-- Arctangent in radians for `0 ≤ x ≤ 1`. -/
def fxAtan01 (x : Int) : Int :=
  let y := fxHalfTan (fxHalfTan (fxHalfTan x))
  8 * fxAtanAux (fxMul y y) 30 0 y

/-- atan2 in degrees, between -180 and 180; zero when both are zero. -/
def fxAtan2Deg (y x : Int) : Int :=
  let ay := y.natAbs; let ax := x.natAbs
  if ax == 0 && ay == 0 then 0 else
  let base := if ay ≤ ax then fxAtan01 (fxDiv ay ax) else fxPi / 2 - fxAtan01 (fxDiv ax ay)
  let q := if x < 0 then fxPi - base else base
  let q := if y < 0 then -q else q
  fxDiv (q * 180) fxPi

/-- asin in degrees, the argument limited to ±1. -/
def fxAsinDeg (v : Int) : Int :=
  let v := clampInt (-fxOne) fxOne v
  fxAtan2Deg v (fxSqrt (fxOne - fxMul v v))

/-- Round a fixed-point real to `n` fraction bits, ties to even. A value whose distance from a tie is below 2^-60 of the
last kept place is the tie itself: the exact values rounded here are algebraic, and the series err by less than 2^-100. -/
def fxRound (a : Int) (n : Nat) : Int :=
  let d : Int := 2 ^ (128 - n)
  let q := a.fdiv d
  let r2 := 2 * (a - q * d)
  let tol : Int := 2 * d / 2 ^ 60
  if (r2 - d).natAbs ≤ tol.natAbs then (if q % 2 == 0 then q else q + 1)
  else if r2 < d then q else q + 1

/-- Round a fixed-point real down to an integer, with the same guard below an integer as `fxRound`. -/
def fxFloor (a : Int) : Int := (a + 2 ^ 68).fdiv fxOne

/-- `10^(num/den)` for any sign of `num`. -/
def fxPow10 (num : Int) (den : Nat) : Int :=
  if num ≥ 0 then (iroot den (132 + 4 * (num.toNat / den + 1)) (10 ^ num.toNat * 2 ^ (128 * den)) : Nat)
  else (iroot den 129 (2 ^ (128 * den) / 10 ^ (-num).toNat) : Nat)

/-- R8: the linear gain of a signed Q8.8 dB code, 20 fraction bits: `10^(c/5120)` rounded to nearest, zero for 0x8000.
`iroot` finds twice the value rounded down, so that the rounding compares integers only. -/
def gainOfDb (c : Int) : Nat :=
  if c ≤ -32768 then 0
  else if c ≥ 0 then (iroot 5120 44 (10 ^ c.toNat * 2 ^ (21 * 5120)) + 1) / 2
  else (iroot 5120 44 (2 ^ (21 * 5120) / 10 ^ (-c).toNat) + 1) / 2

/-- `10^c < v^5120 / 2^(20*5120)` and the like: compare the linear gain `g / 2^20` with `10^(c2/10240)`, where `c2` counts
half codes. True when the gain is above that threshold. -/
def gainAbove (g : Nat) (c2 : Int) : Bool :=
  if c2 ≥ 0 then 10 ^ c2.toNat * 2 ^ (20 * 10240) < g ^ 10240
  else 2 ^ (20 * 10240) < g ^ 10240 * 10 ^ (-c2).toNat

/-- Largest code `c` in the range whose lower half-code boundary the gain passes, found by bisection of 17 steps. -/
def dbSearch (g : Nat) : Nat → Int → Int → Int
  | 0, lo, _ => lo
  | f + 1, lo, hi =>
    if hi - lo ≤ 1 then lo else
    let mid := (lo + hi) / 2
    if gainAbove g (2 * mid - 1) then dbSearch g f mid hi else dbSearch g f lo mid

/-- 20 log10 of a linear gain with 20 fraction bits, rounded to Q8.8 (R262); -32768 for zero. No gain but a power of ten
is at a code, and none is at the middle of two, so there is no tie. -/
def dbOfGain (g : Nat) : Int := if g == 0 then -32768 else dbSearch g 18 (-32768) 32768

/-- The equal-power weights of R112, unsigned Q1.20. -/
def xfSin (m M : Nat) : Nat :=
  if m ≥ M then 0x100000 else (fxRound (fxSinDeg (fxRat (90 * m) M)) 20).toNat

def xfCos (m M : Nat) : Nat :=
  if m ≥ M then 0 else (fxRound (fxCosDeg (fxRat (90 * m) M)) 20).toNat

/-! ### Ramps inside a block -/

/-- The per-sample values of a ramp from `a` to `b` across a block of `n` samples, exactly as in R74: six more fraction
bits, exact division by the block length, one rounding. -/
def rampSamples (n : Nat) (a b : Int) : List Int :=
  (List.range n).map fun j => rne (a * 64 + ((b - a) * 64 * (j + 1)) / n) 6

end Sys2Proof.Machine
end

