-- ==== Sys2Proof/Machine/GeoMath.lean ====
section
/-! DEFINITION. Geometry as pure functions (chapter 02): positions, trajectories, pair sets, panning, wave field synthesis. -/

namespace Sys2Proof.Machine

/-! ### Vectors of fixed-point reals -/

structure V3 where
  x : Int
  y : Int
  z : Int
deriving DecidableEq, Repr

def V3.dot (a b : V3) : Int := fxMul a.x b.x + fxMul a.y b.y + fxMul a.z b.z
def V3.cross (a b : V3) : V3 :=
  ⟨fxMul a.y b.z - fxMul a.z b.y, fxMul a.z b.x - fxMul a.x b.z, fxMul a.x b.y - fxMul a.y b.x⟩
def V3.add (a b : V3) : V3 := ⟨a.x + b.x, a.y + b.y, a.z + b.z⟩
def V3.sub (a b : V3) : V3 := ⟨a.x - b.x, a.y - b.y, a.z - b.z⟩
def V3.scale (k : Int) (a : V3) : V3 := ⟨fxMul k a.x, fxMul k a.y, fxMul k a.z⟩
def V3.len (a : V3) : Int := fxSqrt (a.dot a)
def V3.unit (a : V3) : V3 := let l := a.len; ⟨fxDiv a.x l, fxDiv a.y l, fxDiv a.z l⟩
def Pos.v3 (p : Pos) : V3 := ⟨fxOfQ p.x 16, fxOfQ p.y 16, fxOfQ p.z 16⟩

/-- Exact squared length of a Q16.16 position, 32 fraction bits. -/
def Pos.sq (p : Pos) : Int := p.x * p.x + p.y * p.y + p.z * p.z

/-- 2^-16 and 2^-32 as fixed-point reals. -/
def fxEps16 : Int := 2 ^ 112
def fxEps32 : Int := 2 ^ 96

/-- `v ≥ th` as the device decides it (R58): free when the exact value lies within 2^-32 of the threshold. -/
def geTh (site : Nat) (v th : Int) : Bool :=
  if (v - th).natAbs ≤ fxEps32.natAbs then Config.freeCompare site v th else decide (v > th)

/-- `v > th`, equal to "not `th ≥ v`" (R58). -/
def gtTh (site : Nat) (v th : Int) : Bool := geTh site v th

/-! ### Polar conversion (R10) -/

/-- R10: polar to Cartesian; azimuth and elevation in Q9.7 degrees, distance in Q16.16 m. -/
def polarPos (az el r : Int) : Pos :=
  let a := degReduce (fxOfQ az 7)
  let e := clampInt (-(fxOfInt 90)) (fxOfInt 90) (fxOfQ el 7)
  let ce := fxCosDeg e
  { x := sat32 (fxRound (-(r * fxMul (fxSinDeg a) ce)) 0)
    y := sat32 (fxRound (r * fxMul (fxCosDeg a) ce) 0)
    z := sat32 (fxRound (r * fxSinDeg e) 0) }

/-! ### Trajectories (R33, R38, R41) -/

/-- R33: evaluation point of block `k`. -/
def evalPoint (B k : Nat) : Int := (k : Int) * B + B - 1

/-- R38: promotion of the keyframes that are due. -/
structure Promo where
  anchor : Option Key
  prev : Option Key
  queue : List Key
  promoted : Nat := 0
  late : Nat := 0
  cut : Bool := false
deriving DecidableEq, Repr

def promote (B k : Nat) (anchor prev : Option Key) : List Key → Nat → Nat → Bool → Promo
  | [], n, l, c => { anchor, prev, queue := [], promoted := n, late := l, cut := c }
  | q :: t, n, l, c =>
    if (q.time : Int) ≤ evalPoint B k then
      let isLate := decide ((q.time : Int) ≤ evalPoint B (k - 1))
      promote B k (some q) anchor t (n + 1) (l + b2n isLate) (c || q.cut || isLate)
    else { anchor, prev, queue := q :: t, promoted := n, late := l, cut := c }

/-- One axis of R38, at parameter `u` in Q0.32: the exact value rounded once. -/
def interpAxis (cubic : Bool) (p0 a n p3 : Int) (u : Int) : Int :=
  if cubic then
    rneDiv (2 * a * 2 ^ 96 + (n - p0) * u * 2 ^ 64 + (2 * p0 - 5 * a + 4 * n - p3) * u * u * 2 ^ 32
      + (3 * a - p0 - 3 * n + p3) * u * u * u) (2 ^ 97)
  else rneDiv (a * 2 ^ 32 + u * (n - a)) (2 ^ 32)

/-- Position, keyframe gain and extent evaluated for a block (R38). -/
structure Evald where
  pos : Pos
  gain : Int
  extW : Nat
  extH : Nat
deriving DecidableEq, Repr

def evalTraj (B k : Nat) (anchor prev : Option Key) (queue : List Key) : Evald :=
  match anchor, queue with
  | none, [] => { pos := {}, gain := 0, extW := 0, extH := 0 }
  | none, q :: _ => { pos := q.pos, gain := q.gain, extW := q.extW, extH := q.extH }
  | some a, [] => { pos := a.pos, gain := a.gain, extW := a.extW, extH := a.extH }
  | some a, n :: t =>
    if n.cut || n.time ≤ a.time then { pos := a.pos, gain := a.gain, extW := a.extW, extH := a.extH } else
    let u := rneDiv ((evalPoint B k - a.time) * 2 ^ 32) (n.time - a.time)
    let p0 := if a.cut then a.pos else (prev.map (·.pos)).getD a.pos
    let p3 := match t with
      | [] => n.pos
      | q1 :: _ => if q1.cut then n.pos else q1.pos
    let lin (x y : Int) := rneDiv (x * 2 ^ 32 + u * (y - x)) (2 ^ 32)
    { pos := { x := sat32 (interpAxis n.cubic p0.x a.pos.x n.pos.x p3.x u)
               y := sat32 (interpAxis n.cubic p0.y a.pos.y n.pos.y p3.y u)
               z := sat32 (interpAxis n.cubic p0.z a.pos.z n.pos.z p3.z u) }
      gain := lin a.gain n.gain
      extW := (lin a.extW n.extW).toNat
      extH := (lin a.extH n.extH).toNat }

/-! ### Table access with the reset contents of R553 -/

def Committed.obj (c : Committed) (i : Nat) : ObjRec := tabGetD c.objs i {}
def Committed.spk (c : Committed) (i : Nat) : SpkRec := tabGetD c.spks i {}
def Committed.dist (c : Committed) (i : Nat) : DistTab := tabGetD c.dists i {}
def Committed.din (c : Committed) (i : Nat) : Din := tabGetD c.dins i {}

/-! ### Pair sets (R46) -/

def Layout.vertices (l : Layout) : List Nat := sortBy id (l.tris.flatten.dedup)

/-- Layouts of a mask, in order. -/
def maskLayouts (c : Committed) (mask : Nat) : List (Nat × Layout) := c.layouts.filter (fun e => mask.testBit e.1)

def maskArrays (c : Committed) (r : ObjRec) : List (Nat × ArrayRec) :=
  c.arrays.filter (fun e => (r.targetLo + r.targetHi * 2 ^ 32).testBit e.1)

/-- R46: the outputs of an object's pair set, ascending; OFF has none here (its held pairs are paths of their own). -/
def pairOuts (c : Committed) (r : ObjRec) : List Nat :=
  match r.mode with
  | 1 => sortBy id ((maskLayouts c r.targetLo).flatMap (·.2.vertices)).dedup
  | 2 => sortBy id ((maskArrays c r).flatMap (fun e => e.2.entries.map (·.out))).dedup
  | 3 => (c.spks.filter (fun e => !e.2.nozone && e.2.zone == r.targetLo % 64)).map (·.1)
  | 4 => [r.targetLo]
  | _ => []

/-! ### Distance laws (R45, R51) -/

/-- R45: the gain of a distance table at distance `r`, 20 fraction bits. -/
def distTabGain (t : DistTab) (rfx : Int) : Nat :=
  let s := fxOfQ t.s 16
  let i := (rfx.fdiv s).toNat
  if rfx ≥ 31 * s then gainOfDb (t.g.getD 31 0) else
  let f := fxDiv (rfx - i * s) s
  let a := t.g.getD i 0
  let b := t.g.getD (i + 1) 0
  gainOfDb (fxRound (fxOfInt a + f * (b - a)) 0)

/-- R51: the distance gain, a fixed-point real. -/
def distGain (c : Committed) (r : ObjRec) (rfx : Int) : Int :=
  match r.dlaw with
  | 1 => fxDiv (fxOfQ r.rRef 16) (max rfx (fxOfQ r.rMin 16))
  | 2 => fxOfQ (distTabGain (c.dist r.dtable) rfx) 20
  | _ => fxOne

/-! ### Directions, cells and triangles (R43, R48) -/

/-- Unit direction of a speaker; horizontal in a 2D layout (R43). -/
def spkDir (is3d : Bool) (p : Pos) : V3 := (if is3d then p.v3 else { p with z := 0 }.v3).unit

/-- Rows of the inverse of the matrix whose columns are the vertex directions, and its determinant. -/
def triInverse (is3d : Bool) (d : List V3) : Int × List V3 :=
  let a := d.getD 0 ⟨0, 0, 0⟩
  let b := d.getD 1 ⟨0, 0, 0⟩
  if is3d then
    let c := d.getD 2 ⟨0, 0, 0⟩
    let det := a.dot (b.cross c)
    let f (v : V3) : V3 := ⟨fxDiv v.x det, fxDiv v.y det, fxDiv v.z det⟩
    (det, [f (b.cross c), f (c.cross a), f (a.cross b)])
  else
    let det := fxMul a.x b.y - fxMul a.y b.x
    (det, [⟨fxDiv b.y det, fxDiv (-b.x) det, 0⟩, ⟨fxDiv (-a.y) det, fxDiv a.x det, 0⟩])

def triDirs (c : Committed) (l : Layout) (t : List Nat) : List V3 := t.map fun s => spkDir l.is3d (c.spk s).pos

/-- Gains of a direction in a triangle. -/
def triGains (inv : List V3) (c : V3) : List Int := inv.map (·.dot c)

def minInt (l : List Int) : Int := match l with
  | [] => 0
  | a :: t => t.foldl min a

/-- Face of a direction (R43): 0 to 5. -/
def faceOf (c : V3) : Nat :=
  if c.x.natAbs ≥ c.y.natAbs && c.x.natAbs ≥ c.z.natAbs then (if c.x ≥ 0 then 0 else 1)
  else if c.y.natAbs ≥ c.z.natAbs then (if c.y ≥ 0 then 2 else 3)
  else if c.z ≥ 0 then 4 else 5

/-- Face coordinates of a direction on its face (R43). -/
def faceCoord (face : Nat) (c : V3) : Int × Int :=
  if face < 2 then (fxDiv c.y c.x.natAbs, fxDiv c.z c.x.natAbs)
  else if face < 4 then (fxDiv c.x c.y.natAbs, fxDiv c.z c.y.natAbs)
  else (fxDiv c.x c.z.natAbs, fxDiv c.y c.z.natAbs)

/-- The direction (not normalised) of face coordinates. -/
def faceDir (face : Nat) (a b : Int) : V3 :=
  match face with
  | 0 => ⟨fxOne, a, b⟩
  | 1 => ⟨-fxOne, a, b⟩
  | 2 => ⟨a, fxOne, b⟩
  | 3 => ⟨a, -fxOne, b⟩
  | 4 => ⟨a, b, fxOne⟩
  | _ => ⟨a, b, -fxOne⟩

def cellIdx (a : Int) : Nat := min 7 (fxFloor (4 * (a + fxOne))).toNat

/-- Azimuth of a horizontal direction in degrees (R10): 0 at +y, anticlockwise. -/
def azimuthDeg (c : V3) : Int :=
  let a := fxAtan2Deg (-c.x) c.y
  if a ≥ fxOfInt 180 then a - fxOfInt 360 else a

/-- R43: cell of a direction in a 3D layout, sector in a 2D one. -/
def cellOf (is3d : Bool) (c : V3) : Nat :=
  if is3d then
    let f := faceOf c
    let (a, b) := faceCoord f c
    64 * f + 8 * cellIdx b + cellIdx a
  else min 63 (fxFloor (fxDiv (azimuthDeg c + fxOfInt 180) (fxRat 5625 1000))).toNat

/-- Tolerance of the exact decisions of R43: the computed values err by far less, and a region that touches a cell is listed. -/
def fxTiny : Int := 2 ^ 48

/-- A direction, not normalised, lies in a triangle's region (R43). -/
def inRegion (inv : List V3) (d : V3) : Bool :=
  let l := d.len
  inv.all fun m => decide (m.dot d ≥ -(fxMul fxEps16 l) - fxTiny)

/-- Real roots of `a t^2 + b t + c`. -/
def quadRoots (a b c : Int) : List Int :=
  if a.natAbs ≤ fxTiny.natAbs then (if b == 0 then [] else [fxDiv (-c) b]) else
  let disc := fxMul b b - 4 * fxMul a c
  if disc < 0 then [] else
  let s := fxSqrt disc
  [fxDiv (-b + s) (2 * a), fxDiv (-b - s) (2 * a)]

/-- Points of the segment from `p` to `q` (parameter 0 to 1) where `m . c = -2^-16 |c|`. -/
def edgeHits (m p q : V3) : List V3 :=
  let e := q.sub p
  let mp := m.dot p
  let me := m.dot e
  let e2 := fxMul fxEps16 fxEps16
  let roots := quadRoots (fxMul me me - fxMul e2 (e.dot e)) (2 * (fxMul mp me - fxMul e2 (p.dot e)))
    (fxMul mp mp - fxMul e2 (p.dot p))
  (roots.filter (fun t => decide (t ≥ -fxTiny) && decide (t ≤ fxOne + fxTiny))).map fun t => p.add (e.scale t)

/-- Directions where two region bounds meet: `m . c = n . c = -2^-16` on unit `c`. -/
def pairHits (m n : V3) : List V3 :=
  let k := m.cross n
  let kk := k.dot k
  if kk ≤ fxTiny then [] else
  let e := -fxEps16
  -- particular solution in the plane of m and n
  let mm := m.dot m
  let nn := n.dot n
  let mn := m.dot n
  let det := fxMul mm nn - fxMul mn mn
  if det ≤ fxTiny then [] else
  let al := fxDiv (fxMul e (nn - mn)) det
  let be := fxDiv (fxMul e (mm - mn)) det
  let c0 := (m.scale al).add (n.scale be)
  let rest := fxOne - c0.dot c0
  if rest < 0 then [] else
  let t := fxSqrt (fxDiv rest kk)
  [c0.add (k.scale t), c0.sub (k.scale t)]

/-- A direction lies in a closed cell (R43). -/
def inCell (face i j : Nat) (d : V3) : Bool :=
  let main : Int := match face with
    | 0 => d.x
    | 1 => -d.x
    | 2 => d.y
    | 3 => -d.y
    | 4 => d.z
    | _ => -d.z
  if main ≤ 0 then false else
  let (p, q) := if face < 2 then (d.y, d.z) else if face < 4 then (d.x, d.z) else (d.x, d.y)
  let lo (n : Nat) : Int := -main + n * main / 4
  decide (p ≥ lo i - fxTiny) && decide (p ≤ lo (i + 1) + fxTiny) &&
    decide (q ≥ lo j - fxTiny) && decide (q ≤ lo (j + 1) + fxTiny)

/-- R43: the region of a triangle meets a cell. The bounds of a region are the outsides of convex cones, so a common point
exists exactly when one does at a corner of the cell, where a bound crosses an edge of it, or where two bounds meet. -/
def regionMeetsCell (inv : List V3) (face i j : Nat) : Bool :=
  let co (n : Nat) : Int := -fxOne + n * fxOne / 4
  let p00 := faceDir face (co i) (co j)
  let p10 := faceDir face (co (i + 1)) (co j)
  let p01 := faceDir face (co i) (co (j + 1))
  let p11 := faceDir face (co (i + 1)) (co (j + 1))
  let edges := [(p00, p10), (p10, p11), (p11, p01), (p01, p00)]
  let m0 := inv.getD 0 ⟨0, 0, 0⟩
  let m1 := inv.getD 1 ⟨0, 0, 0⟩
  let m2 := inv.getD 2 ⟨0, 0, 0⟩
  [p00, p10, p01, p11].any (inRegion inv) ||
  (inv.any fun m => edges.any fun e => (edgeHits m e.1 e.2).any (inRegion inv)) ||
  ([(m0, m1), (m1, m2), (m0, m2)].any fun e => (pairHits e.1 e.2).any fun d => inCell face i j d && inRegion inv d)

/-- Direction of azimuth `a` degrees. -/
def azDir (a : Int) : V3 := ⟨-(fxSinDeg a), fxCosDeg a, 0⟩

/-- Horizontal unit directions where `m . c = -2^-16`. -/
def bound2d (m : V3) : List V3 :=
  let mm := m.dot m
  if mm ≤ fxTiny then [] else
  let k := fxDiv (-fxEps16) mm
  let c0 := m.scale k
  let rest := fxOne - c0.dot c0
  if rest < 0 then [] else
  let t := fxDiv (fxSqrt rest) (fxSqrt mm)
  let p : V3 := ⟨-m.y, m.x, 0⟩
  [c0.add (p.scale t), c0.sub (p.scale t)]

/-- R43: the region of a segment meets a sector. -/
def regionMeetsSector (inv : List V3) (s : Nat) : Bool :=
  let lo := fxRat (5625 * s) 1000 - fxOfInt 180
  let hi := fxRat (5625 * (s + 1)) 1000 - fxOfInt 180
  let tol : Int := 2 ^ 60
  inRegion inv (azDir lo) || inRegion inv (azDir hi) ||
  ((inv.flatMap bound2d).any fun d =>
    let a := azimuthDeg d
    inRegion inv d && (decide (a ≥ lo - tol) && decide (a ≤ hi + tol) ||
      decide (a + fxOfInt 360 ≤ hi + tol)))

/-- A layout's triangles with their inverses, in triangle order. -/
structure TriInv where
  idx : Nat
  verts : List Nat
  inv : List V3
  centroid : V3
deriving DecidableEq, Repr

def layoutTris (c : Committed) (l : Layout) : List TriInv :=
  (l.tris.zipIdx).map fun (t, i) =>
    let ds := triDirs c l t
    { idx := i, verts := t, inv := (triInverse l.is3d ds).2, centroid := (ds.foldl V3.add ⟨0, 0, 0⟩).unit }

def cellCentre (is3d : Bool) (cell : Nat) : V3 :=
  if is3d then
    let f := cell / 64
    let j := cell % 64 / 8
    let i := cell % 8
    (faceDir f (-fxOne + (2 * i + 1) * fxOne / 8) (-fxOne + (2 * j + 1) * fxOne / 8)).unit
  else azDir (fxRat (5625 * cell) 1000 + fxRat 28125 10000 - fxOfInt 180)

/-- The three triangles whose centroids lie nearest a direction, ties to the lower index, in ascending index (R43). -/
def nearestTris (ts : List TriInv) (d : V3) : List TriInv :=
  -- a larger dot product is a smaller angle; distinct values differ by more than the tolerance
  let key (t : TriInv) : Nat := (2 * fxOne - (t.centroid.dot d / 2 ^ 48) * 2 ^ 48).toNat
  sortBy (·.idx) ((sortBy key ts).take 3)

/-- R43: the candidate list of a cell or sector. -/
def cellList (is3d : Bool) (ts : List TriInv) (cell : Nat) : List TriInv :=
  let hit := ts.filter fun t =>
    if is3d then regionMeetsCell t.inv (cell / 64) (cell % 8) (cell % 64 / 8) else regionMeetsSector t.inv cell
  if hit.isEmpty then nearestTris ts (cellCentre is3d cell) else hit

/-! ### POINT mode (R48 to R51) -/

/-- R48: the direction of an object in a layout. -/
def pointDir (is3d : Bool) (p : Pos) : V3 :=
  let ahead : V3 := ⟨0, fxOne, 0⟩
  let v := p.v3
  let c := if geTh 0 v.len fxEps16 then v.unit else ahead
  if is3d then c else
  let h : V3 := ⟨c.x, c.y, 0⟩
  if geTh 1 h.len fxEps16 then h.unit else ahead

/-- R48: walk over the candidates; the chosen triangle, its gains, and whether it contains the direction. -/
def pickTri (c : V3) : List TriInv → Option (TriInv × List Int) → Option (TriInv × List Int × Bool)
  | [], none => none
  | [], some (t, g) => some (t, g, false)
  | t :: ts, best =>
    let g := triGains t.inv c
    if geTh 2 (minInt g) (-fxEps16) then some (t, g, true) else
    match best with
    | none => pickTri c ts (some (t, g))
    | some (bt, bg) => if gtTh 3 (minInt g) (minInt bg) then pickTri c ts (some (t, g)) else pickTri c ts (some (bt, bg))

/-- The panned gains of one layout (R48), by output ascending, and whether a hull gap was met. -/
def panLayout (ts : List TriInv) (is3d : Bool) (verts : List Nat) (c : V3) : List (Nat × Int) × Bool :=
  match pickTri c (cellList is3d ts (cellOf is3d c)) none with
  | none => (verts.map fun s => (s, 0), false)
  | some (t, g, ok) =>
    let g1 := if ok then g else g.map (max · 0)
    let g2 := if g.all (fun x => !(gtTh 4 x 0)) then g1.map (fun _ => fxOne) else g1
    let v := verts.map fun s => (s, match t.verts.idxOf? s with | some j => g2.getD j 0 | none => 0)
    let n := fxSqrt (sumInt (v.map fun e => fxMul e.2 e.2))
    (v.map fun e => (e.1, fxDiv e.2 n), !ok)

/-- R49: extent widening. -/
def widen (is3d : Bool) (c : V3) (extW extH : Nat) (dirs : Nat → V3) (v : List (Nat × Int)) : List (Nat × Int) :=
  let w := fxOfQ extW 7
  let h := if is3d then fxOfQ extH 7 else 0
  if w == 0 && h == 0 then v else
  let zc := V3.cross ⟨0, 0, fxOne⟩ c
  let u : V3 := if geTh 5 zc.len fxEps16 then zc.unit else ⟨-fxOne, 0, 0⟩
  let vv := c.cross u
  let qf := v.map fun (s, _) =>
    let d := dirs s
    let a := fxAtan2Deg (d.dot u) (d.dot c)
    let b := fxAsinDeg (d.dot vv)
    let qa := if w == 0 then 0 else let t := fxDiv (2 * a) w; fxMul t t
    let qb := if h == 0 then 0 else let t := fxDiv (2 * b) h; fxMul t t
    let q := qa + qb
    (q, if q < fxOne then let k := fxCosDeg (90 * fxSqrt q); fxMul k k else 0)
  let f := qf.map (·.2)
  let F := sumInt f
  -- F is exactly zero when every q is clear of 1; only a q at 1 leaves the choice open
  if qf.all (fun e => decide (e.1 > fxOne + fxEps32)) || !(gtTh 6 F 0) then v else
  let beta := min fxOne (fxDiv (max w h) (fxOfInt 90))
  (v.zip f).map fun ((s, g), fs) =>
    (s, fxSqrt (fxMul (fxOne - beta) (fxMul g g) + fxMul beta (fxDiv fs F)))

/-- R50: disabled and excluded speakers; the gains and whether GEO_CNT_EXCL counts. -/
def exclude (live : Nat → Bool) (v : List (Nat × Int)) : List (Nat × Int) × Bool :=
  let v1 := v.map fun e => (e.1, if live e.1 then e.2 else 0)
  if v.all (fun e => live e.1) then (v, false) else
  let p := sumInt (v1.map fun e => fxMul e.2 e.2)
  if geTh 7 p (2 ^ 108) then
    let n := fxSqrt p
    (v1.map fun e => (e.1, fxDiv e.2 n), false)
  else
    let k := (v.filter (fun e => live e.1)).length
    let g := if k == 0 then 0 else fxSqrt (fxRat 1 k)
    (v.map fun e => (e.1, if live e.1 then g else 0), true)

/-- A pair's target before the object gain: spatial, distance and array gain, and delay in samples. -/
structure Target where
  out : Nat
  gain : Int
  delay : Int
deriving DecidableEq, Repr

/-- The targets of one object and what its evaluation counts (R63). -/
structure Targets where
  list : List Target := []
  gap : Nat := 0
  excl : Nat := 0
  zone : Nat := 0
  /-- outputs whose focused delay was below zero (R53). -/
  focus : List Nat := []
deriving DecidableEq, Repr

/-- What the evaluation needs beside the tables: block length, system rate, c_eff (Q10.22), outputs in standpipe mode. -/
structure GeoEnv where
  fs : Nat
  ceff : Nat
  sp : Nat → Bool

/-- `r × f_s / c_eff` in samples, a fixed-point real. -/
def travel (env : GeoEnv) (rfx : Int) : Int := (rfx * env.fs * 2 ^ 22).fdiv (max env.ceff 1)

def Committed.enabled (c : Committed) (env : GeoEnv) (s : Nat) : Bool := (c.spk s).enable && !(env.sp s)

/-- R48 to R51: a POINT object. -/
def pointTargets (c : Committed) (env : GeoEnv) (r : ObjRec) (e : Evald) : Targets :=
  let rlen := e.pos.v3.len
  let gd := distGain c r rlen
  let excl := r.exclLo + r.exclHi * 2 ^ 32
  let live (s : Nat) := c.enabled env s && ((c.spk s).nozone || !(excl.testBit (c.spk s).zone))
  let per := (maskLayouts c r.targetLo).map fun (_, l) =>
    let ts := layoutTris c l
    let dir := pointDir l.is3d e.pos
    let (v, gap) := panLayout ts l.is3d l.vertices dir
    let g := widen l.is3d dir e.extW e.extH (fun s => spkDir l.is3d (c.spk s).pos) v
    let (g, ex) := exclude live g
    (g, gap, ex)
  let base := if r.distDelay then travel env rlen else 0
  { list := (pairOuts c r).map fun s =>
      { out := s
        gain := fxMul (sumInt (per.map fun p => sumInt ((p.1.filter (·.1 == s)).map (·.2)))) gd
        delay := base + fxOfQ (c.spk s).dtrim 8 }
    gap := (per.filter (·.2.1)).length
    excl := (per.filter (·.2.2)).length }

/-! ### WAVE mode (R52 to R54) -/

/-- R44: spacing of entry `i`. -/
def spacing (ps : List V3) (closed : Bool) (i : Nat) : Int :=
  let n := ps.length
  let d (a b : Nat) : Int := ((ps.getD a ⟨0, 0, 0⟩).sub (ps.getD b ⟨0, 0, 0⟩)).len
  if closed then (d i ((i + n - 1) % n) + d i ((i + 1) % n)) / 2
  else if i == 0 then d 0 1 else if i + 1 == n then d i (i - 1) else (d i (i - 1) + d i (i + 1)) / 2

/-- Distance of visible entry `i` from the nearer end of its run; none where the run has no end (R52). -/
def runEnd (vis : List Bool) (closed : Bool) (i : Nat) : Option Nat :=
  let n := vis.length
  let back := (List.range n).find? fun k =>
    if closed then !(vis.getD ((i + n - (k + 1) % n) % n) true) else i ≤ k || !(vis.getD (i - (k + 1)) true)
  let fwd := (List.range n).find? fun k =>
    if closed then !(vis.getD ((i + k + 1) % n) true) else n ≤ i + k + 1 || !(vis.getD (i + k + 1) true)
  match back, fwd with
  | some a, some b => some (min a b)
  | some a, none => some a
  | none, b => b

/-- 1 / sqrt(2 pi). -/
def fxK : Int := fxDiv fxOne (fxSqrt (2 * fxPi))

def unitOr (x y z : Int) (d : V3) : V3 :=
  if x == 0 && y == 0 && z == 0 then d else (V3.mk (fxOfQ x 14) (fxOfQ y 14) (fxOfQ z 14)).unit

/-- R52 to R54: one array. The second part lists the outputs whose focused delay was below zero. -/
def arrayTargets (c : Committed) (env : GeoEnv) (r : ObjRec) (e : Evald) (a : ArrayRec) : List Target × List Nat :=
  let p := e.pos.v3
  let gd := fxMul (distGain c r p.len) (fxOfQ (gainOfDb a.gain) 20)
  let ps := a.entries.map fun x => (c.spk x.out).pos.v3
  let quarter := fxRat 1 4
  let cphi (x : ArrEntry) : Int :=
    let s := c.spk x.out
    let n := unitOr x.nx x.ny x.nz (unitOr s.aimX s.aimY s.aimZ ⟨0, 0, 0⟩)
    let d := s.pos.v3.sub p
    let k := fxDiv (d.dot n) (max d.len quarter)
    if r.focus then -k else k
  let vis := a.entries.map fun x => gtTh 8 (cphi x) 0 && c.enabled env x.out
  let ts := (a.entries.zipIdx).map fun (x, i) =>
    let s := c.spk x.out
    let d := s.pos.v3.sub p
    let rr := max d.len quarter
    let rho := max s.pos.v3.len quarter
    let tr := travel env rr
    let delay := (if r.focus then fxOfQ r.pre 8 - tr else tr) + fxOfQ s.dtrim 8
    let g := if vis.getD i false then
        let base := fxMul (fxMul fxK (spacing ps a.closed i)) (fxMul (cphi x) (fxSqrt (fxDiv rho (fxMul rr (rho + rr)))))
        let w := match runEnd vis a.closed i with
          | none => fxOne
          | some k => if k < a.taper then (fxOne - fxCosDeg (fxRat (180 * (k + 1)) (a.taper + 1))) / 2 else fxOne
        fxMul (fxMul base w) gd
      else 0
    ({ out := x.out, gain := max g 0, delay := delay } : Target)
  (ts, if r.focus then (ts.filter (fun t => t.delay < 0)).map (·.out) else [])

def waveTargets (c : Committed) (env : GeoEnv) (r : ObjRec) (e : Evald) : Targets :=
  let all := (maskArrays c r).map fun x => arrayTargets c env r e x.2
  { list := sortBy (·.out) (all.flatMap (·.1)), focus := all.flatMap (·.2) }

/-! ### ZONE and DIRECT (R55, R56), and the whole object -/

def zoneTargets (c : Committed) (env : GeoEnv) (r : ObjRec) : Targets :=
  let outs := pairOuts c r
  let n := (outs.filter (c.enabled env)).length
  let g := if n == 0 then 0 else fxSqrt (fxRat 1 n)
  { list := outs.map fun s =>
      { out := s, gain := if c.enabled env s then g else 0, delay := fxOfQ (c.spk s).dtrim 8 }
    zone := b2n (n == 0) }

def directTargets (c : Committed) (env : GeoEnv) (r : ObjRec) : Targets :=
  { list := (pairOuts c r).map fun s =>
      { out := s, gain := if c.enabled env s then fxOne else 0, delay := fxOfQ (c.spk s).dtrim 8 } }

/-- The targets of an object under a rule (tables and record). -/
def objTargets (c : Committed) (env : GeoEnv) (r : ObjRec) (e : Evald) : Targets :=
  match r.mode with
  | 1 => pointTargets c env r e
  | 2 => waveTargets c env r e
  | 3 => zoneTargets c env r
  | 4 => directTargets c env r
  | _ => {}

/-- R58: a published delay, Q18.8, never below zero (R53). -/
def pubDelay (d : Int) : Nat := min (fxRound (max d 0) 8).toNat (2 ^ 26 - 1)

/-- R57, R58: a published gain in Q4.20 and whether it was clamped. `factors` are linear gains with 20 fraction bits. An
exact result of zero publishes zero; any other may deviate by up to 2 LSB. -/
def pubGain (obj out : Nat) (g : Int) (factors : List Nat) : Nat × Bool :=
  let x := factors.foldl (fun a f => fxMul a (fxOfQ f 20)) g
  if factors.any (· == 0) || g ≤ 0 then (0, false) else
  let v := fxRound x 20 + clampInt (-2) 2 (Config.gainDev x obj out)
  if v ≥ 0x7FFFFF then (0x7FFFFF, true) else (v.toNat, false)

/-- R59: one block's slew of c_eff toward its target, Q10.22. -/
def slewSos (ceff target : Nat) : Nat :=
  let lim := ceff / 1500000
  if ceff + lim < target then ceff + lim else if target + lim < ceff then ceff - lim else target

/-- R59: c_target from GEO_SOS_NOM and the clamped GEO_SOS_DELTA (Q1.31). -/
def sosTarget (nom : Nat) (delta : Int) : Nat :=
  (rne ((nom : Int) * (2 ^ 31 + clampInt (-0x03D70A3D) 0x03D70A3D delta)) 31).toNat

end Sys2Proof.Machine
end

