-- ==== Sys2Proof/Machine/PumpMath.lean ====
section
/-! DEFINITION. Headworks, interpolator, pumps, sumps and bus mixer as pure functions (chapter 03). -/

namespace Sys2Proof.Machine

/-! ### Interpolator ROM (R75) -/

/-- Lagrange basis value of node `j` at `-phi/256` through the nodes +2 to -3, rounded to Q2.22. -/
def lagrange (phi : Nat) (j : Int) : Int :=
  let others := ([2, 1, 0, -1, -2, -3] : List Int).filter (· != j)
  let num := others.foldl (fun a m => a * (-(phi : Int) - 256 * m)) 1
  let den := others.foldl (fun a m => a * (j - m)) 1
  let n := num * 2 ^ 22
  if den < 0 then rneDiv (-n) ((-den).toNat * 256 ^ 5) else rneDiv n (den.toNat * 256 ^ 5)

/-- R75: the six coefficients of a phase, node +2 first, summing to 0x40_0000. -/
def romPhase (phi : Nat) : List Int :=
  let c := ([2, 1, 0, -1, -2, -3] : List Int).map (lagrange phi)
  let res := 0x400000 - sumInt c
  let i := if phi < 128 then 2 else 3
  c.set i (c.getD i 0 + res)

/-! ### Headworks (R70) -/

/-- b0, b1, b2, a1, a2 of the identity section, Q2.30. -/
def hwIdentity : List Int := [0x40000000, 0, 0, 0, 0]

/-- A section of the WFS pre-filter. -/
def hwWfs (fs s : Nat) : List Int :=
  let fz := 110 * fxPow10 s 3
  let fp := 110 * fxPow10 (2 * s + 1) 6
  let wz := fxMul (2 * fxPi) fz
  let wp := fxMul (2 * fxPi) fp
  let K := fxOfInt (2 * fs)
  let g := fxDiv wp wz
  [fxRound (fxMul g (fxDiv (K + wz) (K + wp))) 30, fxRound (fxMul g (fxDiv (wz - K) (K + wp))) 30, 0,
   fxRound (fxDiv (wp - K) (K + wp)) 30, 0]

/-- The high shelf of G dB (in tenths) at 5 kHz. -/
def hwShelf (fs : Nat) (g10 : Int) : List Int :=
  let A := fxPow10 g10 400
  let sA := fxPow10 g10 800
  let w := fxRat (360 * 5000) fs
  let cw := fxCosDeg w
  let al := fxDiv (fxSinDeg w) (fxSqrt (2 * fxOne))
  let be := 2 * fxMul sA al
  let p := A + fxOne
  let m := A - fxOne
  let a0 := p - fxMul m cw + be
  let f (v : Int) := fxRound (fxDiv v a0) 30
  [f (fxMul A (p + fxMul m cw + be)), f (-2 * fxMul A (m + fxMul p cw)), f (fxMul A (p + fxMul m cw - be)),
   f (2 * (m - fxMul p cw)), f (p - fxMul m cw - be)]

/-- R70: the three sections of response `h` at rate `fs`. -/
def hwCoefs (fs h : Nat) : List (List Int) :=
  match h with
  | 1 => [hwWfs fs 0, hwWfs fs 1, hwWfs fs 2]
  | 2 => [hwShelf fs (-15), hwIdentity, hwIdentity]
  | 3 => [hwShelf fs (-30), hwIdentity, hwIdentity]
  | 4 => [hwShelf fs (-60), hwIdentity, hwIdentity]
  | 5 => [hwShelf fs (-100), hwIdentity, hwIdentity]
  | _ => [hwIdentity, hwIdentity, hwIdentity]

/-- One biquad in direct form I: output and new state (x1, x2, y1, y2). -/
def biquad (c st : List Int) (x : Int) : Int × List Int :=
  let v (i : Nat) := c.getD i 0
  let q (i : Nat) := st.getD i 0
  let y := sat32 (rne (v 0 * x + v 1 * q 0 + v 2 * q 1 - v 3 * q 2 - v 4 * q 3) 30)
  (y, [x, q 0, y, q 2])

/-- A cascade of biquads. -/
def cascade : List (List Int) → HwState → Int → Int × HwState
  | [], _, x => (x, [])
  | c :: cs, st, x =>
    let (y, s0) := biquad c (st.headD []) x
    let (z, r) := cascade cs st.tail y
    (z, s0 :: r)

/-! ### Pumps (R74) -/

/-- Result of one entry over a block: products (Q5.51) and the per-block flags of R68 and R76. -/
structure PumpOut where
  prods : List Int
  wclamp : Bool
  submin : Bool
deriving DecidableEq, Repr

/-- One sample of R74. `weight` scales the gain while the object is held for priming (R69). -/
def pumpSample (t0 j : Nat) (d g : Int) (dmax : Option Nat) (well : Int → Int) : Int × Bool × Bool :=
  let (d, cl) := match dmax with
    | some m => if d > m then ((m : Int), true) else (d, false)
    | none => (d, false)
  let d := d.toNat
  let m := d / 256
  let ph := d % 256
  let low := decide (m < 2) && ph != 0
  let m := if low then (if ph > 128 || (ph == 128 && m % 2 == 1) then m + 1 else m) else m
  let ph := if low then 0 else ph
  let b : Int := (t0 : Int) + j - m
  let acc := sumInt ((romPhase ph).zipIdx.map fun (c, i) => c * (if c == 0 then 0 else well (b + 2 - i)))
  (sat32 (rne acc 22) * g, cl, low)

/-- R74 over one block. `w0`, `w1`: block-end weights (Q1.20) before and after, when the object is held or released. -/
def pumpEntry (B t0 d0 g0 d1 g1 : Nat) (dmax : Option Nat) (well : Int → Int) (w : Option (Int × Int)) : PumpOut :=
  let ds := rampSamples B d0 d1
  let gs := rampSamples B g0 g1
  let gs := match w with
    | none => gs
    | some (a, b) => (gs.zip (rampSamples B a b)).map fun (g, x) => rne (g * x) 20
  let r := (ds.zip gs).zipIdx.map fun ((d, g), j) => pumpSample t0 j d g dmax well
  { prods := r.map (·.1), wclamp := r.any (·.2.1), submin := r.any (·.2.2) }

/-- R78: add a contribution to a sump, sample by sample; the flag tells whether an addition saturated. -/
def sumpAdd (s p : List Int) : List Int × Bool :=
  let r := (s.zip p).map fun (a, b) => (sat64 (a + b), decide (sat64 (a + b) ≠ a + b))
  (r.map (·.1), r.any (·.2))

/-- R79: the stored block and whether a store saturated. -/
def sumpStore (s : List Int) : List Int × Bool :=
  let r := s.map fun a => rne a 20
  (r.map sat32, r.any fun a => decide (sat32 a ≠ a))

/-! ### Bus mixer (R83) -/

/-- Scale target: 1/N or 1/sqrt(N) in Q4.20, 1.0 when AUTO is off. -/
def autoScale (auto n : Nat) : Int :=
  match auto with
  | 1 => if n == 0 then 0x100000 else rneDiv 0x100000 n
  | 2 => if n == 0 then 0x100000 else fxRound (fxSqrt (fxRat 1 n)) 20
  | _ => 0x100000

/-- Whole samples and phase of a delay, with the rounding of R76 below 2.0 samples. -/
def tapOf (d : Nat) : Nat × Nat :=
  let m := d / 256
  let ph := d % 256
  if m < 2 ∧ ph ≠ 0 then ((if ph > 128 || (ph == 128 && m % 2 == 1) then m + 1 else m), 0) else (m, ph)

/-- Oldest and newest tap of an entry over a block (R73). -/
def tapRange (B t0 d0 d1 : Nat) (dmax : Option Nat) : Int × Int :=
  let bs := ((rampSamples B d0 d1).zipIdx).map fun (d, j) =>
    let d := match dmax with
      | some m => min d.toNat m
      | none => d.toNat
    (t0 : Int) + j - (tapOf d).1
  match bs with
  | [] => ((t0 : Int), (t0 : Int))
  | b :: t => (t.foldl min b - 3, t.foldl max b + 2)

/-- R83: the scale at the end of block `b`. -/
def AutoRt.at (a : AutoRt) (b : Nat) : Int :=
  if b < a.start then a.fromS else
  let m := b - a.start + 1
  if m ≥ 75 then a.toS else rneDiv (a.fromS * 75 + (a.toS - a.fromS) * m) 75

/-- R262: the gain of a ramp at the end of block `b`, 20 fraction bits. -/
def Ramp.at (r : Ramp) (b : Nat) : Int :=
  if b < r.start then r.fromG else
  let m := b - r.start + 1
  if m ≥ r.len then r.toG else
  if r.dbLaw then gainOfDb (rneDiv (r.fromDb * r.len + (r.toDb - r.fromDb) * m) r.len)
  else rneDiv (r.fromG * r.len + (r.toG - r.fromG) * m) r.len

/-- A ramp has ended by the end of block `b`. -/
def Ramp.done (r : Ramp) (b : Nat) : Bool := b + 1 ≥ r.start + r.len

/-- Length of a ramp or fade of `ms` milliseconds in blocks: ⌈1.5 × T⌉ (R112, R262). -/
def msBlocks (ms : Nat) : Nat := (3 * ms + 1) / 2

/-- R262: a new ramp at block `k` from the value reached, to the dB code `code`, with a class register value (R280). -/
def newRamp (cls : Word) (g0 : Int) (code : Int) (k : Nat) : Ramp :=
  let l0 := dbOfGain g0.toNat
  let db := bit cls 31 && decide (code ≠ -32768) && decide (g0 ≠ 0) && decide (l0 > -32367)
  { fromG := g0, toG := gainOfDb code, fromDb := l0, toDb := code, dbLaw := db, start := k, len := msBlocks (fld cls 13 0) }

/-- Follow a dB code: a change starts a new ramp at block `k` (R262). -/
def Ramp.follow (r : Ramp) (cls : Word) (code : Int) (k : Nat) : Ramp :=
  if r.toDb = code then r else newRamp cls (r.at (k - 1)) code k

/-- A mute ramp (R261, class 2): between off and unity, which is code 0. -/
def newMuteRamp (cls : Word) (g0 : Int) (open_ : Bool) (k : Nat) : Ramp :=
  newRamp cls g0 (if open_ then 0 else -32768) k

end Sys2Proof.Machine
end

