-- ==== Sys2Proof/Machine/StateRen.lean ====
section
/-! DEFINITION. State of the render path: geometry (chapter 02), mixer, sumps and output stage (03), correction (05), and the
cistern with its bus matrix (09). -/

namespace Sys2Proof.Machine

/-- Tables frozen for paths that keep an older rule (R112, R554): the committed state, c_eff when a cut of it froze it, the
outputs in standpipe mode, and the ramp of an object going OFF. -/
structure Rule where
  cm : Committed
  ceff : Option Nat := none
  sps : List Nat := []
  off : Option Ramp := none
deriving DecidableEq, Repr, Inhabited

structure GeoSt where
  rts : Tab ObjRt := []
  /-- every path of every pair, in the entry order of R61 -/
  legs : List Leg := []
  rules : Tab Rule := []
  ruleNum : Nat := 1
  /-- pair memory, newest block first, at most four slots (R60) -/
  slots : List Slot := []
  /-- c_eff of the newest published block, Q10.22 (R59) -/
  ceff : Nat := 0x55C00000
deriving DecidableEq, Repr, Inhabited

structure SmpSt where
  /-- mute weight of each direct input (R81, R83) -/
  dins : Tab Ramp := []
  xps : List XpRt := []
  autos : Tab AutoRt := []
  /-- accumulators of the block in the sumps (R78), and the newest stored block (R79) -/
  sumps : Tab (List Int) := []
  stored : Tab (List Int) := []
  outs : Tab OutRt := []
  sps : Tab SpRt := []
  /-- standpipe channels whose old path ramps out -/
  spDying : List SpRt := []
  /-- outputs held for priming, by block (R69) -/
  primeHold : List (Nat × List Nat) := []
  /-- the newest blocks at the output of correction and of the output stage, by block and output -/
  corOut : List (Nat × Tab (List Int)) := []
  outBuf : List (Nat × Tab (List Int)) := []
  /-- samples released and not yet rendered, by direct input and by ingress channel used: sample time and value, newest first -/
  dinBuf : Tab (List (Nat × Int)) := []
  spBuf : Tab (List (Nat × Int)) := []
deriving DecidableEq, Repr, Inhabited

/-- A coefficient bank (R144): taps by index, absent ones zero. -/
structure CorBank where
  upper : Tab Int := []
  low : Tab Int := []
  loaded : Bool := false
deriving DecidableEq, Repr, Inhabited

/-- A load waiting for its block, or for the switch block when none (R144, R146). -/
structure CorLoad where
  blk : Option Nat
  bank : Bool
  low : Bool
  first : Nat
  taps : List Int
deriving DecidableEq, Repr, Inhabited

/-- A bank crossfade (R148): first block, length, linear shape. The target is the active bank. -/
structure CorFade where
  start : Nat
  len : Nat
  lin : Bool
deriving DecidableEq, Repr, Inhabited

inductive Supp where
  | open_ | down | hold | rampIn
deriving DecidableEq, Repr, Inhabited

/-- Correction chain of one output (R131 to R154). -/
structure CorRt where
  /-- configuration in force: COR_CFG, COR_LEN, COR_PD -/
  cfg : Word := 0
  len : Word := 0
  pd : Word := 0
  a : CorBank := {}
  b : CorBank := {}
  /-- active bank: false A, true B; during a fade its target -/
  active : Bool := false
  fade : Option CorFade := none
  /-- queued return: length and shape (R149) -/
  queued : Option (Nat × Bool) := none
  supp : Supp := .open_
  /-- first block of the ramp-down, switch block w, release block j (R152) -/
  k : Nat := 0
  w : Nat := 0
  j : Nat := 0
  pend : Option (Word × Word × Word) := none
  loads : List CorLoad := []
  /-- swaps waiting for their effective block: block, bank, fade length, linear (R148) -/
  swaps : List (Nat × Bool × Nat × Bool) := []
  /-- allocation: base and size in KiB of the correction region (R142); the next one and its block -/
  alloc : Option (Nat × Nat) := none
  allocNext : Option (Nat × Nat) := none
  /-- input samples since the chain started, newest first, and samples at the phase delay's input -/
  hist : List Int := []
  pdHist : List Int := []
deriving DecidableEq, Repr, Inhabited

/-- A transaction waiting at a target port, or at its master (R299, R300, R304). -/
structure BusWait where
  num : Nat
  t : BusTxn
  /-- alias access (R303) -/
  aliased : Bool
  port : Nat
  /-- 0 at its master, 1 at its bridge, 2 presented at its port -/
  stage : Nat := 0
  /-- cycle it came to its stage -/
  since : Nat := 0
  /-- granted: its target serves it -/
  granted : Bool := false
  /-- RESP, BUSY and data, held until the alias order lets them go (R304) -/
  ans : Option (Nat × Bool × List Byte) := none
deriving DecidableEq, Repr, Inhabited

/-- A window access that waits for a handover or for clearing (R286, R291): offset, write, data, collision. -/
structure WinWait where
  off : Nat
  write : Bool
  data : List Byte
  collide : Bool
deriving DecidableEq, Repr, Inhabited

structure CisSt where
  /-- cistern bytes that are not zero, by offset from 0x1000_0000 -/
  mem : List Host.Cell := []
  /-- memory upsets: offset of the word, double-bit when true (R296) -/
  upsets : Tab Bool := []
  /-- banks being cleared (R286) -/
  clearing : List Nat := []
  /-- cycle at which a bank's drain expires (R292) -/
  drains : Tab Nat := []
  /-- single-bit errors whose word waits to be written back (R296) -/
  fixes : List Nat := []
  waits : List WinWait := []
  /-- the unit's self-check holds for the tick (R80, R296) -/
  selfOk : Bool := true
  /-- bus transactions not yet answered, in issue order, their numbers, and the master each port granted last -/
  bus : List BusWait := []
  busNum : Nat := 0
  lastGrant : Tab Nat := []
deriving DecidableEq, Repr, Inhabited

end Sys2Proof.Machine
end

