-- ==== Sys2Proof/Machine/CorMath.lean ====
section
/-! DEFINITION. Correction filters as pure functions (R132 to R142, R148, R153). -/

namespace Sys2Proof.Machine

/-! ### Configuration fields (R156 to R159) -/

def corMode (cfg : Word) : Nat := fld cfg 1 0
def corStages (cfg : Word) : Nat := fld cfg 3 2 + 2
def corD (cfg : Word) : Nat := 2 ^ corStages cfg

/-- HB1 to HBs of a split-mode output. -/
def corHbs (cfg : Word) : List Nat := (List.range (corStages cfg)).map fun i => fld cfg (4 * i + 7) (4 * i + 4)

def corNF (len : Word) : Nat := fld len 6 0
def corNL (len : Word) : Nat := fld len 23 16
def corPd (pd : Word) : Nat := fld pd 13 0
def corPdSel (pd : Word) : Bool := bit pd 14

/-- Tap counts of HB0 to HB9 (R139); their settle times are the same numbers. -/
def hbLen (h : Nat) : Nat := [7, 11, 15, 19, 23, 31, 47, 63, 95, 127].getD h 0

/-- R138: the chain delay. -/
def corTau (cfg : Word) : Nat := sumNat ((corHbs cfg).zipIdx.map fun (h, i) => (hbLen h - 1) * 2 ^ i)

/-- R141: partitions a configuration charges with one bank. -/
def corParts (B : Nat) (cfg len : Word) : Nat :=
  match corMode cfg with
  | 1 => B / 32 * corNF len
  | 2 => B / 32 * (corNF len + ceilDiv (corNL len) (corD cfg))
  | _ => 0

/-- R142: KiB of an output's allocation, none in bypass with PD = 0. -/
def corKiB (B : Nat) (cfg len pd : Word) : Nat :=
  let c := match corMode cfg with
    | 1 => 128 * (B / 32) * corNF len
    | 2 => 128 * (B / 32) * (corNF len + corNL len)
    | _ => 0
  ceilDiv (4 * c) 1024 + (if corPd pd = 0 then 0 else ceilDiv (corPd pd / 16 + 4) 256)

/-- R153: the settle time. -/
def corSettle (B : Nat) (cfg len pd : Word) : Nat :=
  let P := ceilDiv (corPd pd) 16
  match corMode cfg with
  | 1 => corNF len * B + P
  | 2 =>
    let sd := sumNat ((corHbs cfg).zipIdx.map fun (h, i) => hbLen h * 2 ^ i)
    let pu := if corPdSel pd then P else 0
    let po := if corPdSel pd then 0 else P
    max (sd + corD cfg * corNL len * B + sd) (max (corTau cfg) (sd + sd) + corNF len * B + pu) + po
  | _ => P

/-- R133, R136, R137, R140, R156, R157: the registers of an output fit together. -/
def corRegsOk (rate96 : Bool) (cfg len pd xf : Word) : Bool :=
  let k := if rate96 then 2 else 1
  let nf := corNF len
  let nl := corNL len
  fld cfg 31 20 == 0 && corMode cfg != 3 && fld len 31 24 == 0 && fld len 15 7 == 0 && fld pd 31 15 == 0 &&
  fld xf 31 11 == 0 && decide (10 ≤ fld xf 9 0 ∧ fld xf 9 0 ≤ 1000) &&
  (corMode cfg == 2 || !corPdSel pd) &&
  (match corMode cfg with
   | 0 => nf == 0 && nl == 0
   | 1 => nl == 0 && decide (1 ≤ nf ∧ nf * k ≤ 64)
   | _ => fld cfg 3 2 != 3 && (corHbs cfg).all (fun h => decide (h ≤ 9)) && fld cfg 19 (4 * corStages cfg + 4) == 0 &&
      decide (1 ≤ nf ∧ nf * k ≤ 16) && decide (2 ≤ nl ∧ nl * k ≤ 128))

/-- Fields that matter in a configuration; a change of the rest suppresses nothing (R152, R156). -/
def corNorm (cfg len pd : Word) : Word × Word × Word := (if corMode cfg = 2 then cfg else wd (corMode cfg), len, pd)

/-- A change after which both banks are cleared (R146). -/
def corClears (a b : Word × Word) : Bool :=
  corMode a.1 != corMode b.1 || a.2 != b.2 || (corMode b.1 == 2 && fld a.1 3 2 != fld b.1 3 2)

/-! ### Half-band stages (R136, R139) -/

/-- Tap `j` of a linear-phase half-band, Q1.31. -/
def hbTap (h j : Nat) : Int :=
  let c := (hbLen h - 1) / 2
  let d := max j c - min j c
  if d = 0 then 2 ^ 30 else if d % 2 = 1 then (Config.hbCoef h ((d + 1) / 2)).toInt else 0

/-- One decimator stage at its output index `n`. -/
def decStage (h : Nat) (x : Int → Int) (n : Int) : Int :=
  sat32 (rne (sumInt ((List.range (hbLen h)).map fun (j : Nat) => hbTap h j * x (2 * n - j))) 31)

/-- One interpolator stage at its output index `m`. -/
def intStage (h : Nat) (x : Int → Int) (m : Int) : Int :=
  sat32 (rne (sumInt ((List.range (hbLen h)).map fun (j : Nat) =>
    if (m - j) % 2 == 0 then 2 * hbTap h j * x ((m - j) / 2) else 0)) 31)

def decChain : List Nat → (Int → Int) → Int → Int
  | [], x => x
  | h :: t, x => decChain t (decStage h x)

/-- The interpolators in the order HBs to HB1; the list is HB1 to HBs. -/
def intChain : List Nat → (Int → Int) → Int → Int
  | [], x => x
  | h :: t, x => intStage h (intChain t x)

/-! ### Partitioned FIR (R133, R134, R137) -/

def bankTap (t : Tab Int) (i : Nat) : Int := tabGetD t i 0

/-- -90 dB of a partition: its taps' magnitudes times its inputs' magnitudes, by 10^-4.5 (R134). -/
def corLimit (taps xs : List Int) : Int :=
  let a (l : List Int) : Nat := sumNat (l.map Int.natAbs)
  ((a taps * a xs / 31622 + Config.corNoise : Nat) : Int)

/-- Contribution of tail partition `p` at index `n`, Q3.61. -/
def tailPart (taps : Tab Int) (B p : Nat) (x : Int → Int) (n : Int) : Int :=
  let h := (List.range B).map fun i => bankTap taps (p * B + i)
  let n0 := n / B * B
  let xs := (List.range (2 * B)).map fun (i : Nat) => x (n0 - p * B - B + i)
  if h.all (· == 0) || xs.all (· == 0) then 0
  else
    let lim := corLimit h xs
    sumInt ((h.zipIdx).map fun (c, i) => c * x (n - (p * B + i : Nat))) +
      clampInt (-lim) lim (Config.corDev h xs (n - n0).toNat)

/-- A filter of `parts` partitions, the first `head` of them in direct form: exact sum, Q3.61. -/
def firExact (taps : Tab Int) (B parts head : Nat) (x : Int → Int) (n : Int) : Int :=
  sumInt ((List.range (min head parts * B)).map fun (i : Nat) => bankTap taps i * x (n - i)) +
  sumInt ((List.range (parts - head)).map fun p => tailPart taps B (head + p) x n)

/-! ### Phase delay (R140) -/

/-- A signal delayed by PD sixteenths of a sample. -/
def phaseDelay (pd : Nat) (x : Int → Int) (n : Int) : Int :=
  if pd = 0 then x n
  else
    let t := tapOf (pd * 16)
    if t.2 = 0 then x (n - t.1)
    else sat32 (rne (sumInt ((romPhase t.2).zipIdx.map fun (c, i) => c * x (n - t.1 + 2 - i))) 22)

/-! ### One chain (R135) -/

/-- Output of a chain with one bank at sample time `t`, before any phase delay of PD_SEL = 0, not yet stored. -/
def chainExact (B : Nat) (cfg len pd : Word) (bk : CorBank) (x : Int → Int) (t : Int) : Int :=
  match corMode cfg with
  | 1 => firExact bk.upper B (corNF len) 1 x t
  | 2 =>
    let hb := corHbs cfg
    let xd := decChain hb x
    let yl (n : Int) : Int := sat32 (rne (firExact bk.low B (corNL len) 2 xd n) 30)
    let xh (n : Int) : Int := sat32 (x (n - corTau cfg) - intChain hb xd n)
    let up := if corPdSel pd then phaseDelay (corPd pd) xh else xh
    intChain hb yl t * 2 ^ 30 + firExact bk.upper B (corNF len) 1 up t
  | _ => x t * 2 ^ 30

/-- Weights of a fade at the end of its block `m`: incoming and outgoing (R148). -/
def corWeights (f : CorFade) (m : Nat) : Int × Int :=
  if f.lin then
    let w := if m ≥ f.len then 2 ^ 20 else rneDiv (2 ^ 20 * m) f.len
    (w, 2 ^ 20 - w)
  else (xfSin m f.len, xfCos m f.len)

end Sys2Proof.Machine
end

