-- ==== Sys2Proof/Machine/Crypto.lean ====
section
/-! DEFINITION. The standard functions the spec names without restating them: CRC-32C (R120), SHA-256 (R121, R505),
HMAC-SHA-256 (R271) and ECDSA verification on P-256 (R500). PRESUMED from their standards. -/

namespace Sys2Proof.Machine

/-! ### CRC-32C -/

def crcByte (c : Nat) (b : Byte) : Nat :=
  (List.range 8).foldl (fun c _ => if c % 2 = 1 then (c / 2) ^^^ 0x82F63B78 else c / 2) (c ^^^ b.toNat)

/-- CRC-32C of a byte list. -/
def crc32c (l : List Byte) : Nat := (l.foldl crcByte 0xFFFFFFFF) ^^^ 0xFFFFFFFF

/-- Ethernet FCS polynomial (IEEE 802.3), for the frame check sequence. -/
def fcsByte (c : Nat) (b : Byte) : Nat :=
  (List.range 8).foldl (fun c _ => if c % 2 = 1 then (c / 2) ^^^ 0xEDB88320 else c / 2) (c ^^^ b.toNat)

def crc32 (l : List Byte) : Nat := (l.foldl fcsByte 0xFFFFFFFF) ^^^ 0xFFFFFFFF

/-! ### SHA-256 -/

def firstPrimes : List Nat :=
  [2, 3, 5, 7, 11, 13, 17, 19, 23, 29, 31, 37, 41, 43, 47, 53, 59, 61, 67, 71, 73, 79, 83, 89, 97, 101, 103, 107, 109, 113,
   127, 131] ++
  [137, 139, 149, 151, 157, 163, 167, 173, 179, 181, 191, 193, 197, 199, 211, 223, 227, 229, 233, 239, 241, 251, 257, 263,
   269, 271, 277, 281, 283, 293, 307, 311]

/-- The round constants: first 32 fraction bits of the cube roots of the primes. -/
def shaK : List Word := firstPrimes.map fun p => wd (iroot 3 36 (p * 2 ^ 96))

/-- The initial state: first 32 fraction bits of the square roots of the first eight primes. -/
def shaInit : List Word := (firstPrimes.take 8).map fun p => wd (isqrt (p * 2 ^ 64))

def rotr (x : Word) (n : Nat) : Word := x.rotateRight n

def shaS0 (x : Word) : Word := rotr x 7 ^^^ rotr x 18 ^^^ (x >>> 3)
def shaS1 (x : Word) : Word := rotr x 17 ^^^ rotr x 19 ^^^ (x >>> 10)
def shaB0 (x : Word) : Word := rotr x 2 ^^^ rotr x 13 ^^^ rotr x 22
def shaB1 (x : Word) : Word := rotr x 6 ^^^ rotr x 11 ^^^ rotr x 25

/-- Message schedule: `w` holds the words so far, newest first. -/
def shaExpand : Nat → List Word → List Word
  | 0, w => w.reverse
  | k + 1, w =>
    shaExpand k ((shaS1 (w.getD 1 0) + w.getD 6 0 + shaS0 (w.getD 14 0) + w.getD 15 0) :: w)

def shaRound (h : List Word) (kw : Word × Word) : List Word :=
  match h with
  | [a, b, c, d, e, f, g, hh] =>
    let t1 := hh + shaB1 e + ((e &&& f) ^^^ (~~~e &&& g)) + kw.1 + kw.2
    let t2 := shaB0 a + ((a &&& b) ^^^ (a &&& c) ^^^ (b &&& c))
    [t1 + t2, a, b, c, d + t1, e, f, g]
  | l => l

def beWord (l : List Byte) : Word := wd (beNat l)

def shaBlock (h : List Word) (blk : List Byte) : List Word :=
  let w := shaExpand 48 ((chunk 4 16 blk).map beWord).reverse
  List.zipWith (· + ·) h ((shaK.zip w).foldl shaRound h)

/-- Padding of a message of `n` bytes. -/
def shaPad (n : Nat) : List Byte :=
  (0x80 : Byte) :: List.replicate ((119 - n % 64) % 64) 0 ++ beBytes 8 (8 * n)

/-- SHA-256 digest, 32 bytes. -/
def sha256 (m : List Byte) : List Byte :=
  let p := m ++ shaPad m.length
  ((chunk 64 (p.length / 64) p).foldl shaBlock shaInit).flatMap fun w => beBytes 4 w.toNat

/-- HMAC-SHA-256 under a 32-byte key. -/
def hmac (key m : List Byte) : List Byte :=
  let k := key ++ List.replicate (64 - key.length) 0
  sha256 (k.map (· ^^^ 0x5C) ++ sha256 (k.map (· ^^^ 0x36) ++ m))

/-! ### ECDSA on P-256 -/

def p256p : Nat := 0xffffffff00000001000000000000000000000000ffffffffffffffffffffffff
def p256n : Nat := 0xffffffff00000000ffffffffffffffffbce6faada7179e84f3b9cac2fc632551
def p256b : Nat := 0x5ac635d8aa3a93e7b3ebbd55769886bc651d06b0cc53b0f63bce3c3e27d2604b
def p256gx : Nat := 0x6b17d1f2e12c4247f8bce6e563a440f277037d812deb33a0f4a13945d898c296
def p256gy : Nat := 0x4fe342e2fe1a7f9b8ee7eb4a7c0f9e162bce33576b315ececbb6406837bf51f5

/-- Power modulo `m`, over the bits of a 256-bit exponent, high bit first. -/
def subMod (m a b : Nat) : Nat := (a + m - b % m) % m

/-- Euclid's algorithm on `a` and `b`, with what multiplies x in each of them modulo `m`. -/
def modInvStep (m : Nat) : Nat → Nat → Nat → Nat → Nat → Nat
  | 0, _, _, u, _ => u
  | f + 1, a, b, u, v => if b = 0 then u else modInvStep m f b (a % b) v (subMod m u (a / b * v))

/-- Inverse modulo a prime; 0 for multiples of it. -/
def modInv (m x : Nat) : Nat := modInvStep m 512 m (x % m) 0 1

/-- Addition on the curve; none is the point at infinity. -/
def ecAdd (p q : Option (Nat × Nat)) : Option (Nat × Nat) :=
  match p, q with
  | none, r => r
  | r, none => r
  | some (x1, y1), some (x2, y2) =>
    if x1 = x2 ∧ (y1 + y2) % p256p = 0 then none
    else
      let l :=
        if x1 = x2 then (3 * x1 * x1 + p256p - 3) % p256p * modInv p256p (2 * y1) % p256p
        else subMod p256p y2 y1 * modInv p256p (subMod p256p x2 x1) % p256p
      let x3 := subMod p256p (l * l) (x1 + x2)
      some (x3, subMod p256p (l * subMod p256p x1 x3) y1)

def ecScale (k : Nat) (p : Option (Nat × Nat)) : Option (Nat × Nat) :=
  (List.range 256).foldl (fun a i => let d := ecAdd a a; if k.testBit (255 - i) then ecAdd d p else d) none

/-- The point a 64-byte key x ‖ y names, if it lies on the curve. -/
def p256Point (key : List Byte) : Option (Nat × Nat) :=
  let x := beNat (key.take 32)
  let y := beNat ((key.drop 32).take 32)
  if x < p256p ∧ y < p256p ∧ y * y % p256p = (x * x * x + (p256p - 3) * x + p256b) % p256p then some (x, y) else none

/-- ECDSA verification of r ‖ s over a SHA-256 digest. -/
def ecdsaOk (key digest sig : List Byte) : Bool :=
  let r := beNat (sig.take 32)
  let s := beNat ((sig.drop 32).take 32)
  match p256Point key with
  | none => false
  | some q =>
    if r = 0 ∨ s = 0 ∨ p256n ≤ r ∨ p256n ≤ s then false
    else
      let w := modInv p256n s
      let u1 := beNat digest * w % p256n
      let u2 := r * w % p256n
      match ecAdd (ecScale u1 (some (p256gx, p256gy))) (ecScale u2 (some q)) with
      | none => false
      | some (x, _) => x % p256n == r

end Sys2Proof.Machine
end

