-- ==== Sys2Proof/Machine/RegMap.lean ====
section
/-! DEFINITION. The register map: every register of the index (R528), with its access code (R14), reset value and the bits a
write can change, from the register tables of chapters 02 to 17. Addresses are byte addresses of the register space (R515). -/

namespace Sys2Proof.Machine

/-- Access codes (R14). -/
inductive Acc where
  | ro | rw | w1c | wo | rwe
deriving DecidableEq, Repr

/-- A row: first offset in the block, number of registers, their distance, access, reset value, writable bits. -/
structure RegRow where
  off : Nat
  n : Nat
  stride : Nat
  acc : Acc
  reset : Nat
  mask : Nat
deriving DecidableEq, Repr

namespace R
def geoVersion : Nat := 0x050000
def geoPubEpoch : Nat := 0x050004
def geoPubTickLo : Nat := 0x050008
def geoPubTickHi : Nat := 0x05000C
def geoSosNom : Nat := 0x050010
def geoSosDelta : Nat := 0x050014
def geoSosCtrl : Nat := 0x050018
def geoSosEff : Nat := 0x05001C
def geoPairs : Nat := 0x050020
def geoPairsXf : Nat := 0x050024
def geoEvals : Nat := 0x050028
def geoCntKfLate : Nat := 0x050030
def geoCntKfPassed : Nat := 0x050034
def geoCntGap : Nat := 0x050038
def geoCntExcl : Nat := 0x05003C
def geoCntGclamp : Nat := 0x050040
def geoCntSlew : Nat := 0x050044
def geoCntZone : Nat := 0x050048
def geoCntFocus : Nat := 0x05004C
def geoCntClr : Nat := 0x050050
def geoEvtStatus : Nat := 0x050054
def geoEvtEn : Nat := 0x050058
def pmpVersion : Nat := 0x060000
def pmpCtrl : Nat := 0x060004
def pmpWellDflt : Nat := 0x060008
def pmpWellFree : Nat := 0x06000C
def pmpWellRun : Nat := 0x060010
def pmpBlkEpoch : Nat := 0x060014
def pmpBlkTickLo : Nat := 0x060018
def pmpBlkTickHi : Nat := 0x06001C
def pmpCntWclamp : Nat := 0x060020
def pmpCntSubmin : Nat := 0x060024
def pmpCntEcc : Nat := 0x060028
def pmpCntStall : Nat := 0x06002C
def pmpCntClr : Nat := 0x060030
def pmpEvtStatus : Nat := 0x060034
def pmpEvtEn : Nat := 0x060038
def pmpLoad : Nat := 0x060100
def pmpHwCoef : Nat := 0x060400
def pmpInterpRom : Nat := 0x060800
def smpVersion : Nat := 0x070000
def smpXpActive : Nat := 0x070004
def smpEvtStatus : Nat := 0x070008
def smpEvtEn : Nat := 0x07000C
def smpOvf : Nat := 0x070100
def smpSat : Nat := 0x070180
def smpAuto : Nat := 0x071000
def smpOut : Nat := 0x072000
def smpSp : Nat := 0x073000
def smpSpGain : Nat := 0x073100
def cmdEpoch : Nat := 0x010800
def cmdEpochTickLo : Nat := 0x010804
def cmdEpochTickHi : Nat := 0x010808
def cmdTxnCount : Nat := 0x01080C
def cmdRouteXfade : Nat := 0x010810
def cmdTxnIdle : Nat := 0x010814
def cmdAdmPumpPeak : Nat := 0x010818
def cmdAdmModPeak : Nat := 0x01081C
def cmdAdmEvalPeak : Nat := 0x010820
def cmdAdmPartPeak : Nat := 0x010824
def cmdCntBudget : Nat := 0x010830
def cmdCntLate : Nat := 0x010834
def cmdCntDiscard : Nat := 0x010838
def cmdCntCutDefer : Nat := 0x01083C
def cmdCntClr : Nat := 0x010840
def cmdJnlCtrl : Nat := 0x010844
def cmdJnlStatus : Nat := 0x010848
def cmdJnlEpoch : Nat := 0x01084C
def cmdJnlUsed : Nat := 0x010850
def snpVersion : Nat := 0x120000
def snpCtrl : Nat := 0x120004
def snpTrig : Nat := 0x120008
def snpTimeLo : Nat := 0x12000C
def snpTimeHi : Nat := 0x120010
def snpPin : Nat := 0x120014
def snpCause : Nat := 0x120018
def snpStatus : Nat := 0x12001C
def snpRelease : Nat := 0x120020
def snpCntDrop : Nat := 0x120024
def snpACause : Nat := 0x120040
def snpAFault : Nat := 0x120044
def snpAEpoch : Nat := 0x120048
def snpATickLo : Nat := 0x12004C
def snpATickHi : Nat := 0x120050
def snpAStamp : Nat := 0x120054
def snpB : Nat := 0x120060
def snpAImg : Nat := 0x124000
def snpBImg : Nat := 0x12A000
def corVersion : Nat := 0x080000
def corBlkEpoch : Nat := 0x080004
def corBlkTickLo : Nat := 0x080008
def corBlkTickHi : Nat := 0x08000C
def corParts : Nat := 0x080010
def corMemFree : Nat := 0x080014
def corMemRun : Nat := 0x080018
def corCntSupersede : Nat := 0x080020
def corCntNoop : Nat := 0x080024
def corCntQueued : Nat := 0x080028
def corCntSuppress : Nat := 0x08002C
def corCntClr : Nat := 0x080030
def corEvtStatus : Nat := 0x080034
def corEvtEn : Nat := 0x080038
def corSat : Nat := 0x080100
def corHold : Nat := 0x080180
def corCfg : Nat := 0x081000
def corLen : Nat := 0x082000
def corPd : Nat := 0x083000
def corXf : Nat := 0x084000
def corState : Nat := 0x085000
def corHbRom : Nat := 0x086000
def meaVersion : Nat := 0x090000
def meaCtrl : Nat := 0x090004
def meaChain : Nat := 0x090008
def meaChainDelay : Nat := 0x09000C
def meaChainSettle : Nat := 0x090010
def meaMicValid : Nat := 0x090014
def meaEvtStatus : Nat := 0x090018
def meaEvtEn : Nat := 0x09001C
def meaBlkEpoch : Nat := 0x090020
def meaBlkTickLo : Nat := 0x090024
def meaBlkTickHi : Nat := 0x090028
def meaCfCtrl : Nat := 0x090030
def meaCfStatus : Nat := 0x090034
def meaCfFirst : Nat := 0x090038
def meaCfLast : Nat := 0x09003C
def meaFfSeq : Nat := 0x090040
def meaFfTick : Nat := 0x090044
def meaLoudEn : Nat := 0x090048
def meaLoudReset : Nat := 0x09004C
def meaIdCtrl : Nat := 0x090050
def meaIdDwell : Nat := 0x090054
def meaIdSubset : Nat := 0x090058
def meaPilotRel : Nat := 0x09005C
def meaConfMin : Nat := 0x090060
def meaDriftT : Nat := 0x090064
def meaDriftL : Nat := 0x090068
def meaSosEst : Nat := 0x09006C
def meaSosPairs : Nat := 0x090070
def meaCntPilotOk : Nat := 0x090074
def meaCntPilotBad : Nat := 0x090078
def meaCntLowconf : Nat := 0x09007C
def meaCntSosSkip : Nat := 0x090080
def meaCntClr : Nat := 0x090084
def meaMic : Nat := 0x090100
def meaMicPos : Nat := 0x090200
def meaIdList : Nat := 0x090400
def meaDead : Nat := 0x090480
def meaDrift : Nat := 0x090500
def meaFfSrc : Nat := 0x090800
def meaFfVal : Nat := 0x091000
def meaLoud : Nat := 0x091800
def meaCf : Nat := 0x098000
def ecxVersion : Nat := 0x0A0000
def ecxCtrl : Nat := 0x0A0004
def ecxState : Nat := 0x0A0008
def ecxEntry : Nat := 0x0A000C
def ecxIrqVec : Nat := 0x0A0010
def ecxDecl : Nat := 0x0A0014
def ecxIrqQuota : Nat := 0x0A0018
def ecxLastIssue : Nat := 0x0A001C
def ecxPeakIssue : Nat := 0x0A0020
def ecxLastWall : Nat := 0x0A0024
def ecxFlags : Nat := 0x0A0028
def ecxFaultPc : Nat := 0x0A002C
def ecxTickLo : Nat := 0x0A0030
def ecxTickHi : Nat := 0x0A0034
def ecxCntOverrun : Nat := 0x0A0038
def ecxCntLateHalt : Nat := 0x0A003C
def ecxCntFault : Nat := 0x0A0040
def ecxCntIrqHeld : Nat := 0x0A0044
def ecxCntClr : Nat := 0x0A0048
def ecxEvtStatus : Nat := 0x0A004C
def ecxEvtEn : Nat := 0x0A0050
def ecxRegs : Nat := 0x0A0100
def ecxAcc : Nat := 0x0A0200
def cmdVersion : Nat := 0x010000
def cmdFetchBudget : Nat := 0x010004
def cmdWeights : Nat := 0x010008
def cmdTimeout : Nat := 0x01000C
def cmdCntTimeout : Nat := 0x010010
def cmdCntLateCpl : Nat := 0x010014
def cmdCntBadDb : Nat := 0x010018
def cmdCntPromote : Nat := 0x01001C
def cmdCntPkts : Nat := 0x010020
def cmdRingClr : Nat := 0x010024
def cmdEvtStatus : Nat := 0x010028
def cmdEvtEn : Nat := 0x01002C
def cmdNetCtrl : Nat := 0x010040
def cmdNetPeer : Nat := 0x010044
def cmdNetSession : Nat := 0x010048
def cmdNetSeq : Nat := 0x01004C
def cmdNetCntDrop : Nat := 0x010050
def cmdNetCntAuth : Nat := 0x010054
def cmdNetCntReplay : Nat := 0x010058
def cmdNetKey : Nat := 0x010060
def cmdRamp : Nat := 0x010900
def cmdDb : Nat := 0x011000
def cmdRingWin : Nat := 0x018000
def cmdSqBaseLo : Nat := 0x010400
def cmdCqBaseLo : Nat := 0x010C00
def cmdSqBaseHi : Nat := 0x010404
def cmdCqBaseHi : Nat := 0x010C04
def cmdSqCfg : Nat := 0x010408
def cmdCqCfg : Nat := 0x010C08
def cmdSqHead : Nat := 0x01040C
def cmdCqHead : Nat := 0x010C0C
def cmdSqTail : Nat := 0x010410
def cmdCqTail : Nat := 0x010C10
def cmdSqStat : Nat := 0x010414
def cmdCqCredit : Nat := 0x010C14
def cisVersion : Nat := 0x040000
def cisCtrl : Nat := 0x040004
def cisScrubRate : Nat := 0x040008
def cisScrubPos : Nat := 0x04000C
def cisDrainTo : Nat := 0x040010
def cisWinStatus : Nat := 0x040014
def cisEvtStatus : Nat := 0x040018
def cisEvtEn : Nat := 0x04001C
def cisForeignAddr : Nat := 0x040020
def cisForeignInfo : Nat := 0x040024
def cisUeAddr : Nat := 0x040028
def cisUeInfo : Nat := 0x04002C
def cisCntCe : Nat := 0x040030
def cisCntUe : Nat := 0x040034
def cisCntForeign : Nat := 0x040038
def cisCntBusy : Nat := 0x04003C
def cisCntDrainTo : Nat := 0x040040
def cisCntStarve : Nat := 0x040044
def cisCntClr : Nat := 0x040048
def cisBankCfg : Nat := 0x040400
def cisBankOwn : Nat := 0x040800
def busVersion : Nat := 0x030000
def busCtrl : Nat := 0x030004
def busEvtStatus : Nat := 0x030008
def busEvtEn : Nat := 0x03000C
def busErrAddr : Nat := 0x030010
def busErrInfo : Nat := 0x030014
def busCntDecode : Nat := 0x030020
def busCntAged : Nat := 0x030024
def busCntClr : Nat := 0x030028
def busMqos : Nat := 0x030100
def busPark : Nat := 0x030200
def busOutst : Nat := 0x030300
def irqVersion : Nat := 0x020000
def irqHostCfg : Nat := 0x020004
def irqHostFallbackMs : Nat := 0x020008
def irqDoorbell : Nat := 0x02000C
def irqStatus : Nat := 0x020010
def irqEvtStatus : Nat := 0x020014
def irqEvtEn : Nat := 0x020018
def irqFaultClr : Nat := 0x02001C
def irqCntEmpty : Nat := 0x020020
def irqCntDbMerge : Nat := 0x020024
def irqCntMsgErr : Nat := 0x020028
def irqCntFb : Nat := 0x02002C
def irqCntClr : Nat := 0x020030
def irqFbPos : Nat := 0x020034
def irqPend : Nat := 0x020100
def irqGrpHold : Nat := 0x020140
def irqHostVclaim : Nat := 0x020800
def irqStack : Nat := 0x022000
def irqSrcCfg : Nat := 0x024000
def irqFbLog : Nat := 0x025000
def irqClaim : Nat := 0x021000
def irqComplete : Nat := 0x021004
def irqStackStat : Nat := 0x021008
def irqFaultInfo : Nat := 0x02100C
def netVersion : Nat := 0x0B0000
def netEvtStatus : Nat := 0x0B0004
def netEvtEn : Nat := 0x0B0008
def netCntClr : Nat := 0x0B000C
def netCfg : Nat := 0x0B0100
def netMacLo : Nat := 0x0B0104
def netMacHi : Nat := 0x0B0108
def netIp : Nat := 0x0B010C
def netPrefix : Nat := 0x0B0110
def netGw : Nat := 0x0B0114
def netCtrlIp : Nat := 0x0B0118
def netVlan : Nat := 0x0B011C
def netMaxframe : Nat := 0x0B0120
def netPfc : Nat := 0x0B0124
def netStatus : Nat := 0x0B0140
def netCntRxFrames : Nat := 0x0B0144
def netCntRxRunt : Nat := 0x0B0148
def netCntRxOversize : Nat := 0x0B014C
def netCntRxFcs : Nat := 0x0B0150
def netCntRxVlan : Nat := 0x0B0154
def netCntRxOther : Nat := 0x0B0158
def netCntRxPause : Nat := 0x0B015C
def netCntRxPfc : Nat := 0x0B0160
def netCntPfcIgnored : Nat := 0x0B0164
def netCntTxFrames : Nat := 0x0B0168
def netCntTxOversize : Nat := 0x0B016C
def netCntTxDrop : Nat := 0x0B0170
def netCntTxPfc : Nat := 0x0B0174
def netCntRxNomatch : Nat := 0x0B0178
def strVersion : Nat := 0x0C0000
def strEvtStatus : Nat := 0x0C0004
def strEvtEn : Nat := 0x0C0008
def strCntClr : Nat := 0x0C000C
def strRxActive : Nat := 0x0C0010
def strTxActive : Nat := 0x0C0014
def strBufFree : Nat := 0x0C0018
def strBufRun : Nat := 0x0C001C
def strMarginWarn : Nat := 0x0C0020
def strBlkEpoch : Nat := 0x0C0024
def strBlkTickLo : Nat := 0x0C0028
def strBlkTickHi : Nat := 0x0C002C
def strCntLate : Nat := 0x0C0030
def strCntLost : Nat := 0x0C0034
def strCntFilled : Nat := 0x0C0038
def strCntDup : Nat := 0x0C003C
def strRxLossMap : Nat := 0x0C0100
def strRx : Nat := 0x0C4000
def strTx : Nat := 0x0C8000
def timVersion : Nat := 0x0D0000
def timCtrl : Nat := 0x0D0004
def timState : Nat := 0x0D0008
def timEvtStatus : Nat := 0x0D000C
def timEvtEn : Nat := 0x0D0010
def timNowLo : Nat := 0x0D0014
def timEpochHi : Nat := 0x0D0018
def timSecLo : Nat := 0x0D001C
def timSecHi : Nat := 0x0D0020
def timNsec : Nat := 0x0D0024
def timSampleLo : Nat := 0x0D0028
def timSampleHi : Nat := 0x0D002C
def timTickLo : Nat := 0x0D0030
def timTickHi : Nat := 0x0D0034
def timIncrLo : Nat := 0x0D0038
def timIncrHi : Nat := 0x0D003C
def timHoldLo : Nat := 0x0D0040
def timHoldHi : Nat := 0x0D0044
def timOffset : Nat := 0x0D0048
def timMpd : Nat := 0x0D004C
def timMpdNew : Nat := 0x0D0050
def timAsym : Nat := 0x0D0054
def timSlewMax : Nat := 0x0D0058
def timStepThresh : Nat := 0x0D005C
def timGmIdLo : Nat := 0x0D0060
def timGmIdHi : Nat := 0x0D0064
def timRefStatus : Nat := 0x0D0068
def timPpsErr : Nat := 0x0D006C
def timRef10mErr : Nat := 0x0D0070
def timWclkPhase : Nat := 0x0D0074
def timCntAnnTo : Nat := 0x0D0078
def timCntSyncTo : Nat := 0x0D007C
def timCntOutlier : Nat := 0x0D0080
def timCntTrigLate : Nat := 0x0D0084
def timCntTrigDiscard : Nat := 0x0D0088
def timCntCapOvf : Nat := 0x0D008C
def timCntPpsBad : Nat := 0x0D0090
def timCntClr : Nat := 0x0D0094
def timPtpCfg : Nat := 0x0D0100
def timRefCfg : Nat := 0x0D0140
def timPinSkew : Nat := 0x0D0180
def timTrigStat : Nat := 0x0D0200
def timTrigNextLo : Nat := 0x0D0204
def timTrigNextHi : Nat := 0x0D0208
def timTrigLateness : Nat := 0x0D020C
def timTrigFired : Nat := 0x0D0210
def timCapStat : Nat := 0x0D0800
def timCapLo : Nat := 0x0D0804
def timCapHi : Nat := 0x0D0808
def timCapInfo : Nat := 0x0D080C
def sapVersion : Nat := 0x0E0000
def sapEvtStatus : Nat := 0x0E0004
def sapEvtEn : Nat := 0x0E0008
def sapCntClr : Nat := 0x0E000C
def sapLostMap : Nat := 0x0E0010
def sapBurstMap : Nat := 0x0E0014
def sapBurstCnt : Nat := 0x0E0018
def sapAdmCfg : Nat := 0x0E0100
def sapAdmCntFrames : Nat := 0x0E0120
def sapAdmCntBlocks : Nat := 0x0E0124
def sapAdmCntIgnored : Nat := 0x0E0128
def sapAdmCntDrop : Nat := 0x0E012C
def sapAdmCntErr : Nat := 0x0E0130
def sapAdmCntRefused : Nat := 0x0E0134
def sapAdmEpoch : Nat := 0x0E0138
def sapCfg : Nat := 0x0E1000
def sapObj : Nat := 0x0E1004
def sapOut : Nat := 0x0E1008
def sapStat : Nat := 0x0E1010
def sapRatio : Nat := 0x0E1014
def sapTsTick : Nat := 0x0E1018
def sapTsFrame : Nat := 0x0E101C
def sapTsEdge : Nat := 0x0E1020
def sapCntGlitch : Nat := 0x0E1024
def sapCntLost : Nat := 0x0E1028
def sapCntRate : Nat := 0x0E102C
def sapCntBurst : Nat := 0x0E1030
def nylVersion : Nat := 0x0F0000
def nylEvtStatus : Nat := 0x0F0004
def nylEvtEn : Nat := 0x0F0008
def nylCntClr : Nat := 0x0F000C
def nylPortCfg : Nat := 0x0F0010
def nylGangState : Nat := 0x0F0018
def nylMemberMap : Nat := 0x0F001C
def nylAdmFail : Nat := 0x0F0020
def nylStepThresh : Nat := 0x0F0024
def nylCntDesync : Nat := 0x0F0028
def nylCntMemberLost : Nat := 0x0F002C
def nylGangCfg : Nat := 0x0F0100
def nylLinkStat : Nat := 0x0F0200
def nylLinkRtt : Nat := 0x0F0204
def nylPeerIdLo : Nat := 0x0F0208
def nylPeerIdHi : Nat := 0x0F020C
def nylCntCrc : Nat := 0x0F0210
def nylCntResend : Nat := 0x0F0214
def nylCntDown : Nat := 0x0F0218
def nylTxUtil : Nat := 0x0F021C
def mirState : Nat := 0x0F0800
def mirCtrl : Nat := 0x0F0804
def mirDigTo : Nat := 0x0F0808
def mirLossTicks : Nat := 0x0F080C
def mirVerifyCnt : Nat := 0x0F0810
def mirVerifyMax : Nat := 0x0F0814
def mirReturnCnt : Nat := 0x0F0818
def mirLastMismatch : Nat := 0x0F081C
def mirCntMismatch : Nat := 0x0F0820
def mirCntScFail : Nat := 0x0F0824
def mirCntDigTo : Nat := 0x0F0828
def mirCntFillTo : Nat := 0x0F082C
def mirCntSilent : Nat := 0x0F0830
def mirCntClr : Nat := 0x0F0834
def mirEvtStatus : Nat := 0x0F0838
def mirEvtEn : Nat := 0x0F083C
def mirCfg : Nat := 0x0F0900
def pwrVersion : Nat := 0x100000
def pwrCtrl : Nat := 0x100004
def pwrStatus : Nat := 0x100008
def pwrEvtStatus : Nat := 0x10000C
def pwrEvtEn : Nat := 0x100010
def pwrFaultMask : Nat := 0x100014
def pwrResetCause : Nat := 0x100018
def pwrBootMs : Nat := 0x10001C
def pwrBistFail : Nat := 0x100020
def pwrVin : Nat := 0x100024
def pwrVhold : Nat := 0x100028
def pwrIin : Nat := 0x10002C
def pwrPin : Nat := 0x100030
def pwrTj : Nat := 0x100034
def pwrTstage : Nat := 0x100038
def pwrTocxo : Nat := 0x10003C
def pwrTjPeak : Nat := 0x100040
def pwrCntWarn : Nat := 0x100044
def pwrCntOv : Nat := 0x100048
def pwrCntDrvRetry : Nat := 0x10004C
def pwrCntMic : Nat := 0x100050
def pwrCntClr : Nat := 0x100054
def pwrDrvShort : Nat := 0x100100
def pwrDrvOpen : Nat := 0x100110
def pwrDrvOff : Nat := 0x100120
def pwrDrvOpenEn : Nat := 0x100130
def pwrMicStuck : Nat := 0x100140
def pwrMicOpen : Nat := 0x100144
def svcVersion : Nat := 0x110000
def svcCtrl : Nat := 0x110004
def svcState : Nat := 0x110008
def svcChalTo : Nat := 0x11000C
def svcSessionTo : Nat := 0x110010
def svcSessionLeft : Nat := 0x110014
def svcDevidLo : Nat := 0x110018
def svcDevidHi : Nat := 0x11001C
def svcRbCounter : Nat := 0x110020
def svcFwAVer : Nat := 0x110024
def svcFwBVer : Nat := 0x110028
def svcCntFail : Nat := 0x11002C
def svcCntClr : Nat := 0x110030
def svcEvtStatus : Nat := 0x110034
def svcEvtEn : Nat := 0x110038
def svcOwnerHash : Nat := 0x110040
def glbVersion : Nat := 0x000000
def glbId : Nat := 0x000004
def glbFwVer : Nat := 0x000008
def glbOutputs : Nat := 0x00000C
def glbObjects : Nat := 0x000010
def glbPairCap : Nat := 0x000014
def glbPumps : Nat := 0x000018
def glbRate : Nat := 0x00001C
def glbPciId : Nat := 0x000020
def glbRwePend : Nat := 0x000024
def glbRweClr : Nat := 0x000028
def glbErr : Nat := 0x00002C
def glbErrAddr : Nat := 0x000030
def glbCntRweDiscard : Nat := 0x000034
def glbCntClr : Nat := 0x000038
def glbScratch : Nat := 0x000040
def glbMsixTable : Nat := 0x008000
def glbMsixPba : Nat := 0x009000
end R

def glbRows0 : List RegRow := [
  ⟨0x0000, 1, 4, .ro, 0x10000, 0x0⟩,
  ⟨0x0004, 1, 4, .ro, 0x0, 0x0⟩,
  ⟨0x0008, 1, 4, .ro, 0x0, 0x0⟩,
  ⟨0x000C, 1, 4, .ro, 0x0, 0x0⟩,
  ⟨0x0010, 1, 4, .ro, 0x0, 0x0⟩,
  ⟨0x0014, 1, 4, .ro, 0x0, 0x0⟩,
  ⟨0x0018, 1, 4, .ro, 0x0, 0x0⟩,
  ⟨0x001C, 1, 4, .ro, 0x0, 0x0⟩,
  ⟨0x0020, 1, 4, .ro, 0x0, 0x0⟩,
  ⟨0x0024, 1, 4, .ro, 0x0, 0x0⟩,
  ⟨0x0028, 1, 4, .wo, 0x0, 0x0⟩,
  ⟨0x002C, 1, 4, .w1c, 0x0, 0xF⟩,
  ⟨0x0030, 1, 4, .ro, 0x0, 0x0⟩,
  ⟨0x0034, 1, 4, .ro, 0x0, 0x0⟩,
  ⟨0x0038, 1, 4, .wo, 0x0, 0x0⟩,
  ⟨0x0040, 4, 4, .rw, 0x0, 0xFFFFFFFF⟩,
  ⟨0x8000, 128, 4, .rw, 0x0, 0xFFFFFFFF⟩,
  ⟨0x9000, 2, 4, .ro, 0x0, 0x0⟩]

/-- Rows of block GLB. -/
def glbRows : List RegRow :=
  glbRows0

def cmdRows0 : List RegRow := [
  ⟨0x0800, 1, 4, .ro, 0x0, 0x0⟩,
  ⟨0x0804, 1, 4, .ro, 0x0, 0x0⟩,
  ⟨0x0808, 1, 4, .ro, 0x0, 0x0⟩,
  ⟨0x080C, 1, 4, .ro, 0x0, 0x0⟩,
  ⟨0x0810, 1, 4, .rwe, 0xA, 0x3FF⟩,
  ⟨0x0814, 1, 4, .rw, 0x1388, 0xFFFF⟩,
  ⟨0x0818, 1, 4, .ro, 0x0, 0x0⟩,
  ⟨0x081C, 1, 4, .ro, 0x0, 0x0⟩,
  ⟨0x0820, 1, 4, .ro, 0x0, 0x0⟩,
  ⟨0x0824, 1, 4, .ro, 0x0, 0x0⟩,
  ⟨0x0830, 1, 4, .ro, 0x0, 0x0⟩,
  ⟨0x0834, 1, 4, .ro, 0x0, 0x0⟩,
  ⟨0x0838, 1, 4, .ro, 0x0, 0x0⟩,
  ⟨0x083C, 1, 4, .ro, 0x0, 0x0⟩,
  ⟨0x0840, 1, 4, .wo, 0x0, 0x0⟩,
  ⟨0x0844, 1, 4, .rw, 0x0, 0x1⟩,
  ⟨0x0848, 1, 4, .ro, 0x0, 0x0⟩,
  ⟨0x084C, 1, 4, .ro, 0x0, 0x0⟩,
  ⟨0x0850, 1, 4, .ro, 0x0, 0x0⟩,
  ⟨0x0000, 1, 4, .ro, 0x10000, 0x0⟩]

def cmdRows1 : List RegRow := [
  ⟨0x0004, 1, 4, .rw, 0x400, 0x1FFF⟩,
  ⟨0x0008, 1, 4, .rw, 0x1020408, 0xFFFFFFFF⟩,
  ⟨0x000C, 1, 4, .rw, 0x4E20, 0xFFFFF⟩,
  ⟨0x0010, 1, 4, .ro, 0x0, 0x0⟩,
  ⟨0x0014, 1, 4, .ro, 0x0, 0x0⟩,
  ⟨0x0018, 1, 4, .ro, 0x0, 0x0⟩,
  ⟨0x001C, 1, 4, .ro, 0x0, 0x0⟩,
  ⟨0x0020, 1, 4, .ro, 0x0, 0x0⟩,
  ⟨0x0024, 1, 4, .wo, 0x0, 0x0⟩,
  ⟨0x0028, 1, 4, .w1c, 0x0, 0x1F⟩,
  ⟨0x002C, 1, 4, .rw, 0x0, 0x1F⟩,
  ⟨0x0040, 1, 4, .rw, 0x0, 0xFFFFF81⟩,
  ⟨0x0044, 1, 4, .ro, 0x0, 0x0⟩,
  ⟨0x0048, 1, 4, .ro, 0x0, 0x0⟩,
  ⟨0x004C, 1, 4, .ro, 0x0, 0x0⟩,
  ⟨0x0050, 1, 4, .ro, 0x0, 0x0⟩,
  ⟨0x0054, 1, 4, .ro, 0x0, 0x0⟩,
  ⟨0x0058, 1, 4, .ro, 0x0, 0x0⟩,
  ⟨0x0060, 8, 4, .wo, 0x0, 0x0⟩,
  ⟨0x0900, 5, 4, .rwe, 0x0, 0x80003FFF⟩]

def cmdRows2 : List RegRow := [
  ⟨0x1000, 64, 4, .wo, 0x0, 0x0⟩,
  ⟨0x8000, 8192, 4, .rw, 0x0, 0xFFFFFFFF⟩,
  ⟨0x0400, 32, 32, .rw, 0x0, 0xFFFFFFFF⟩,
  ⟨0x0C00, 32, 32, .rw, 0x0, 0xFFFFFFFF⟩,
  ⟨0x0404, 32, 32, .rw, 0x0, 0xFFFFFFFF⟩,
  ⟨0x0C04, 32, 32, .rw, 0x0, 0xFFFFFFFF⟩,
  ⟨0x0408, 32, 32, .rw, 0x0, 0x1F3F03⟩,
  ⟨0x0C08, 32, 32, .rw, 0x0, 0x1F3F03⟩,
  ⟨0x040C, 32, 32, .ro, 0x0, 0x0⟩,
  ⟨0x0C0C, 32, 32, .ro, 0x0, 0x0⟩,
  ⟨0x0410, 32, 32, .ro, 0x0, 0x0⟩,
  ⟨0x0C10, 32, 32, .ro, 0x0, 0x0⟩,
  ⟨0x0414, 32, 32, .ro, 0x0, 0x0⟩,
  ⟨0x0C14, 32, 32, .ro, 0x0, 0x0⟩]

/-- Rows of block CMD. -/
def cmdRows : List RegRow :=
  cmdRows0 ++ cmdRows1 ++ cmdRows2

def irqRows0 : List RegRow := [
  ⟨0x0000, 1, 4, .ro, 0x10000, 0x0⟩,
  ⟨0x0004, 1, 4, .rw, 0x0, 0x1⟩,
  ⟨0x0008, 1, 4, .rw, 0x14, 0xFFFF⟩,
  ⟨0x000C, 1, 4, .wo, 0x0, 0x0⟩,
  ⟨0x0010, 1, 4, .ro, 0x0, 0x0⟩,
  ⟨0x0014, 1, 4, .w1c, 0x0, 0x7⟩,
  ⟨0x0018, 1, 4, .rw, 0x1, 0x7⟩,
  ⟨0x001C, 1, 4, .wo, 0x0, 0x0⟩,
  ⟨0x0020, 1, 4, .ro, 0x0, 0x0⟩,
  ⟨0x0024, 1, 4, .ro, 0x0, 0x0⟩,
  ⟨0x0028, 1, 4, .ro, 0x0, 0x0⟩,
  ⟨0x002C, 1, 4, .ro, 0x0, 0x0⟩,
  ⟨0x0030, 1, 4, .wo, 0x0, 0x0⟩,
  ⟨0x0034, 1, 4, .ro, 0x0, 0x0⟩,
  ⟨0x0100, 16, 4, .w1c, 0x0, 0xFFFFFFFF⟩,
  ⟨0x0140, 16, 4, .rw, 0x0, 0x1FFFF⟩,
  ⟨0x0800, 32, 4, .ro, 0x3FF, 0x0⟩,
  ⟨0x2000, 336, 4, .ro, 0x0, 0x0⟩,
  ⟨0x4000, 512, 4, .rw, 0x0, 0xC01F0F1F⟩,
  ⟨0x5000, 128, 4, .ro, 0x0, 0x0⟩]

def irqRows1 : List RegRow := [
  ⟨0x1000, 21, 32, .ro, 0x3FF, 0x0⟩,
  ⟨0x1004, 21, 32, .wo, 0x0, 0x0⟩,
  ⟨0x1008, 21, 32, .ro, 0x3FF00, 0x0⟩,
  ⟨0x100C, 21, 32, .ro, 0x0, 0x0⟩]

/-- Rows of block IRQ. -/
def irqRows : List RegRow :=
  irqRows0 ++ irqRows1

def busRows0 : List RegRow := [
  ⟨0x0000, 1, 4, .ro, 0x10000, 0x0⟩,
  ⟨0x0004, 1, 4, .rw, 0x0, 0xF1⟩,
  ⟨0x0008, 1, 4, .w1c, 0x0, 0x1⟩,
  ⟨0x000C, 1, 4, .rw, 0x0, 0x1⟩,
  ⟨0x0010, 1, 4, .ro, 0x0, 0x0⟩,
  ⟨0x0014, 1, 4, .ro, 0x0, 0x0⟩,
  ⟨0x0020, 1, 4, .ro, 0x0, 0x0⟩,
  ⟨0x0024, 1, 4, .ro, 0x0, 0x0⟩,
  ⟨0x0028, 1, 4, .wo, 0x0, 0x0⟩,
  ⟨0x0100, 25, 4, .rw, 0x0, 0x10F⟩,
  ⟨0x0200, 21, 4, .rw, 0x0, 0x1F⟩,
  ⟨0x0300, 25, 4, .ro, 0x0, 0x0⟩]

/-- Rows of block BUS. -/
def busRows : List RegRow :=
  busRows0

def cisRows0 : List RegRow := [
  ⟨0x0000, 1, 4, .ro, 0x10000, 0x0⟩,
  ⟨0x0004, 1, 4, .rw, 0x1, 0x1⟩,
  ⟨0x0008, 1, 4, .rw, 0x1000, 0xFFFF⟩,
  ⟨0x000C, 1, 4, .ro, 0x0, 0x0⟩,
  ⟨0x0010, 1, 4, .rw, 0x1000, 0xFFFF⟩,
  ⟨0x0014, 1, 4, .w1c, 0x0, 0x7⟩,
  ⟨0x0018, 1, 4, .w1c, 0x0, 0x1F⟩,
  ⟨0x001C, 1, 4, .rw, 0x0, 0x1F⟩,
  ⟨0x0020, 1, 4, .ro, 0x0, 0x0⟩,
  ⟨0x0024, 1, 4, .ro, 0x0, 0x0⟩,
  ⟨0x0028, 1, 4, .ro, 0x0, 0x0⟩,
  ⟨0x002C, 1, 4, .ro, 0x0, 0x0⟩,
  ⟨0x0030, 1, 4, .ro, 0x0, 0x0⟩,
  ⟨0x0034, 1, 4, .ro, 0x0, 0x0⟩,
  ⟨0x0038, 1, 4, .ro, 0x0, 0x0⟩,
  ⟨0x003C, 1, 4, .ro, 0x0, 0x0⟩,
  ⟨0x0040, 1, 4, .ro, 0x0, 0x0⟩,
  ⟨0x0044, 1, 4, .ro, 0x0, 0x0⟩,
  ⟨0x0048, 1, 4, .wo, 0x0, 0x0⟩,
  ⟨0x0400, 256, 4, .rwe, 0x0, 0x107⟩]

def cisRows1 : List RegRow := [
  ⟨0x0800, 256, 4, .rw, 0x0, 0x1F⟩]

/-- Rows of block CIS. -/
def cisRows : List RegRow :=
  cisRows0 ++ cisRows1

def geoRows0 : List RegRow := [
  ⟨0x0000, 1, 4, .ro, 0x10000, 0x0⟩,
  ⟨0x0004, 1, 4, .ro, 0x0, 0x0⟩,
  ⟨0x0008, 1, 4, .ro, 0x0, 0x0⟩,
  ⟨0x000C, 1, 4, .ro, 0x0, 0x0⟩,
  ⟨0x0010, 1, 4, .rwe, 0x55C00000, 0xFFFFFFFF⟩,
  ⟨0x0014, 1, 4, .rwe, 0x0, 0xFFFFFFFF⟩,
  ⟨0x0018, 1, 4, .rwe, 0x0, 0x3⟩,
  ⟨0x001C, 1, 4, .ro, 0x55C00000, 0x0⟩,
  ⟨0x0020, 1, 4, .ro, 0x0, 0x0⟩,
  ⟨0x0024, 1, 4, .ro, 0x0, 0x0⟩,
  ⟨0x0028, 1, 4, .ro, 0x0, 0x0⟩,
  ⟨0x0030, 1, 4, .ro, 0x0, 0x0⟩,
  ⟨0x0034, 1, 4, .ro, 0x0, 0x0⟩,
  ⟨0x0038, 1, 4, .ro, 0x0, 0x0⟩,
  ⟨0x003C, 1, 4, .ro, 0x0, 0x0⟩,
  ⟨0x0040, 1, 4, .ro, 0x0, 0x0⟩,
  ⟨0x0044, 1, 4, .ro, 0x0, 0x0⟩,
  ⟨0x0048, 1, 4, .ro, 0x0, 0x0⟩,
  ⟨0x004C, 1, 4, .ro, 0x0, 0x0⟩,
  ⟨0x0050, 1, 4, .wo, 0x0, 0x1⟩]

def geoRows1 : List RegRow := [
  ⟨0x0054, 1, 4, .w1c, 0x0, 0x1F⟩,
  ⟨0x0058, 1, 4, .rw, 0x0, 0x1F⟩]

/-- Rows of block GEO. -/
def geoRows : List RegRow :=
  geoRows0 ++ geoRows1

def pmpRows0 : List RegRow := [
  ⟨0x0000, 1, 4, .ro, 0x10000, 0x0⟩,
  ⟨0x0004, 1, 4, .rwe, 0x0, 0x1⟩,
  ⟨0x0008, 1, 4, .rwe, 0x40, 0x1FF⟩,
  ⟨0x000C, 1, 4, .ro, 0x10000, 0x0⟩,
  ⟨0x0010, 1, 4, .ro, 0x10000, 0x0⟩,
  ⟨0x0014, 1, 4, .ro, 0x0, 0x0⟩,
  ⟨0x0018, 1, 4, .ro, 0x0, 0x0⟩,
  ⟨0x001C, 1, 4, .ro, 0x0, 0x0⟩,
  ⟨0x0020, 1, 4, .ro, 0x0, 0x0⟩,
  ⟨0x0024, 1, 4, .ro, 0x0, 0x0⟩,
  ⟨0x0028, 1, 4, .ro, 0x0, 0x0⟩,
  ⟨0x002C, 1, 4, .ro, 0x0, 0x0⟩,
  ⟨0x0030, 1, 4, .wo, 0x0, 0x0⟩,
  ⟨0x0034, 1, 4, .w1c, 0x0, 0x7⟩,
  ⟨0x0038, 1, 4, .rw, 0x0, 0x7⟩,
  ⟨0x0100, 32, 4, .ro, 0x0, 0x0⟩,
  ⟨0x0400, 128, 4, .ro, 0x0, 0x0⟩,
  ⟨0x0800, 1536, 4, .ro, 0x0, 0x0⟩]

/-- Rows of block PMP. -/
def pmpRows : List RegRow :=
  pmpRows0

def smpRows0 : List RegRow := [
  ⟨0x0000, 1, 4, .ro, 0x10000, 0x0⟩,
  ⟨0x0004, 1, 4, .ro, 0x0, 0x0⟩,
  ⟨0x0008, 1, 4, .w1c, 0x0, 0x3⟩,
  ⟨0x000C, 1, 4, .rw, 0x0, 0x3⟩,
  ⟨0x0100, 32, 4, .w1c, 0x0, 0xFFFFFFFF⟩,
  ⟨0x0180, 32, 4, .w1c, 0x0, 0xFFFFFFFF⟩,
  ⟨0x1000, 1024, 4, .ro, 0x100000, 0x0⟩,
  ⟨0x2000, 1024, 4, .rwe, 0x10000, 0x1FFFFF⟩,
  ⟨0x3000, 64, 4, .rwe, 0x0, 0xFFFFFFFF⟩,
  ⟨0x3100, 64, 4, .rwe, 0x0, 0xFFFF⟩]

/-- Rows of block SMP. -/
def smpRows : List RegRow :=
  smpRows0

def corRows0 : List RegRow := [
  ⟨0x0000, 1, 4, .ro, 0x10000, 0x0⟩,
  ⟨0x0004, 1, 4, .ro, 0x0, 0x0⟩,
  ⟨0x0008, 1, 4, .ro, 0x0, 0x0⟩,
  ⟨0x000C, 1, 4, .ro, 0x0, 0x0⟩,
  ⟨0x0010, 1, 4, .ro, 0x0, 0x0⟩,
  ⟨0x0014, 1, 4, .ro, 0x8000, 0x0⟩,
  ⟨0x0018, 1, 4, .ro, 0x8000, 0x0⟩,
  ⟨0x0020, 1, 4, .ro, 0x0, 0x0⟩,
  ⟨0x0024, 1, 4, .ro, 0x0, 0x0⟩,
  ⟨0x0028, 1, 4, .ro, 0x0, 0x0⟩,
  ⟨0x002C, 1, 4, .ro, 0x0, 0x0⟩,
  ⟨0x0030, 1, 4, .wo, 0x0, 0x0⟩,
  ⟨0x0034, 1, 4, .w1c, 0x0, 0x7⟩,
  ⟨0x0038, 1, 4, .rw, 0x0, 0x7⟩,
  ⟨0x0100, 32, 4, .w1c, 0x0, 0xFFFFFFFF⟩,
  ⟨0x0180, 32, 4, .ro, 0x0, 0x0⟩,
  ⟨0x1000, 1024, 4, .rwe, 0x0, 0xFFFFF⟩,
  ⟨0x2000, 1024, 4, .rwe, 0x0, 0xFF007F⟩,
  ⟨0x3000, 1024, 4, .rwe, 0x0, 0x7FFF⟩,
  ⟨0x4000, 1024, 4, .rwe, 0xA, 0x7FF⟩]

def corRows1 : List RegRow := [
  ⟨0x5000, 1024, 4, .ro, 0x0, 0x0⟩,
  ⟨0x6000, 1024, 4, .ro, 0x0, 0x0⟩]

/-- Rows of block COR. -/
def corRows : List RegRow :=
  corRows0 ++ corRows1

def meaRows0 : List RegRow := [
  ⟨0x0000, 1, 4, .ro, 0x10000, 0x0⟩,
  ⟨0x0004, 1, 4, .rwe, 0x0, 0xF3⟩,
  ⟨0x0008, 1, 4, .rwe, 0x953210, 0xFFFFFFF⟩,
  ⟨0x000C, 1, 4, .ro, 0x94100, 0x0⟩,
  ⟨0x0010, 1, 4, .ro, 0x12C1, 0x0⟩,
  ⟨0x0014, 1, 4, .ro, 0x0, 0x0⟩,
  ⟨0x0018, 1, 4, .w1c, 0x0, 0x1F⟩,
  ⟨0x001C, 1, 4, .rw, 0x0, 0x1F⟩,
  ⟨0x0020, 1, 4, .ro, 0x0, 0x0⟩,
  ⟨0x0024, 1, 4, .ro, 0x0, 0x0⟩,
  ⟨0x0028, 1, 4, .ro, 0x0, 0x0⟩,
  ⟨0x0030, 1, 4, .wo, 0x0, 0x0⟩,
  ⟨0x0034, 1, 4, .ro, 0x0, 0x0⟩,
  ⟨0x0038, 1, 4, .ro, 0x0, 0x0⟩,
  ⟨0x003C, 1, 4, .ro, 0x0, 0x0⟩,
  ⟨0x0040, 1, 4, .ro, 0x0, 0x0⟩,
  ⟨0x0044, 1, 4, .ro, 0x0, 0x0⟩,
  ⟨0x0048, 1, 4, .rwe, 0x0, 0xFFFFFFFF⟩,
  ⟨0x004C, 1, 4, .wo, 0x0, 0x0⟩,
  ⟨0x0050, 1, 4, .rwe, 0x0, 0xF07⟩]

def meaRows1 : List RegRow := [
  ⟨0x0054, 1, 4, .rwe, 0x3A98, 0xFFFF⟩,
  ⟨0x0058, 1, 4, .ro, 0x0, 0x0⟩,
  ⟨0x005C, 1, 4, .rwe, 0xDC00, 0xFFFF⟩,
  ⟨0x0060, 1, 4, .rwe, 0x80, 0xFF⟩,
  ⟨0x0064, 1, 4, .rwe, 0x400, 0xFFFF⟩,
  ⟨0x0068, 1, 4, .rwe, 0x300, 0xFFFF⟩,
  ⟨0x006C, 1, 4, .ro, 0x55C00000, 0x0⟩,
  ⟨0x0070, 1, 4, .ro, 0x0, 0x0⟩,
  ⟨0x0074, 1, 4, .ro, 0x0, 0x0⟩,
  ⟨0x0078, 1, 4, .ro, 0x0, 0x0⟩,
  ⟨0x007C, 1, 4, .ro, 0x0, 0x0⟩,
  ⟨0x0080, 1, 4, .ro, 0x0, 0x0⟩,
  ⟨0x0084, 1, 4, .wo, 0x0, 0x0⟩,
  ⟨0x0100, 32, 4, .rwe, 0x0, 0xCFFF001F⟩,
  ⟨0x0200, 96, 4, .rwe, 0x0, 0xFFFFFFFF⟩,
  ⟨0x0400, 32, 4, .rwe, 0x0, 0xFFFFFFFF⟩,
  ⟨0x0480, 32, 4, .w1c, 0x0, 0xFFFFFFFF⟩,
  ⟨0x0500, 32, 4, .w1c, 0x0, 0xFFFFFFFF⟩,
  ⟨0x0800, 256, 4, .rwe, 0x0, 0x807F1FFF⟩,
  ⟨0x1000, 512, 4, .ro, 0x8000, 0x0⟩]

def meaRows2 : List RegRow := [
  ⟨0x1800, 128, 4, .ro, 0x8000, 0x0⟩,
  ⟨0x8000, 6496, 4, .ro, 0x0, 0x0⟩]

/-- Rows of block MEA. -/
def meaRows : List RegRow :=
  meaRows0 ++ meaRows1 ++ meaRows2

def ecxRows0 : List RegRow := [
  ⟨0x0000, 1, 4, .ro, 0x10000, 0x0⟩,
  ⟨0x0004, 1, 4, .rwe, 0x2, 0xF733⟩,
  ⟨0x0008, 1, 4, .ro, 0x0, 0x0⟩,
  ⟨0x000C, 1, 4, .rwe, 0x0, 0x1FFF⟩,
  ⟨0x0010, 1, 4, .rwe, 0x0, 0x1FFF⟩,
  ⟨0x0014, 1, 4, .rwe, 0x1, 0xFFFFF⟩,
  ⟨0x0018, 1, 4, .rw, 0x1F40, 0xFFFF⟩,
  ⟨0x001C, 1, 4, .ro, 0x0, 0x0⟩,
  ⟨0x0020, 1, 4, .ro, 0x0, 0x0⟩,
  ⟨0x0024, 1, 4, .ro, 0x0, 0x0⟩,
  ⟨0x0028, 1, 4, .w1c, 0x0, 0x3⟩,
  ⟨0x002C, 1, 4, .ro, 0x0, 0x0⟩,
  ⟨0x0030, 1, 4, .ro, 0x0, 0x0⟩,
  ⟨0x0034, 1, 4, .ro, 0x0, 0x0⟩,
  ⟨0x0038, 1, 4, .ro, 0x0, 0x0⟩,
  ⟨0x003C, 1, 4, .ro, 0x0, 0x0⟩,
  ⟨0x0040, 1, 4, .ro, 0x0, 0x0⟩,
  ⟨0x0044, 1, 4, .ro, 0x0, 0x0⟩,
  ⟨0x0048, 1, 4, .wo, 0x0, 0x0⟩,
  ⟨0x004C, 1, 4, .w1c, 0x0, 0x3⟩]

def ecxRows1 : List RegRow := [
  ⟨0x0050, 1, 4, .rw, 0x0, 0x3⟩,
  ⟨0x0100, 56, 4, .ro, 0x0, 0x0⟩,
  ⟨0x0200, 16, 4, .ro, 0x0, 0x0⟩]

/-- Rows of block ECX. -/
def ecxRows : List RegRow :=
  ecxRows0 ++ ecxRows1

def netRows0 : List RegRow := [
  ⟨0x0000, 1, 4, .ro, 0x10000, 0x0⟩,
  ⟨0x0004, 1, 4, .w1c, 0x0, 0x7F⟩,
  ⟨0x0008, 1, 4, .rw, 0x0, 0x7F⟩,
  ⟨0x000C, 1, 4, .wo, 0x0, 0x0⟩,
  ⟨0x0100, 4, 128, .rwe, 0x0, 0x7⟩,
  ⟨0x0104, 4, 128, .rwe, 0x0, 0xFFFFFFFF⟩,
  ⟨0x0108, 4, 128, .rwe, 0x0, 0xFFFF⟩,
  ⟨0x010C, 4, 128, .rwe, 0x0, 0xFFFFFFFF⟩,
  ⟨0x0110, 4, 128, .rwe, 0x18, 0x3F⟩,
  ⟨0x0114, 4, 128, .rwe, 0x0, 0xFFFFFFFF⟩,
  ⟨0x0118, 4, 128, .rwe, 0x0, 0xFFFFFFFF⟩,
  ⟨0x011C, 4, 128, .rwe, 0x65000, 0x77FFF⟩,
  ⟨0x0120, 4, 128, .rwe, 0x5F2, 0x3FFF⟩,
  ⟨0x0124, 4, 128, .rwe, 0x4000060, 0xFFFFFFFF⟩,
  ⟨0x0140, 4, 128, .ro, 0x0, 0x0⟩,
  ⟨0x0144, 4, 128, .ro, 0x0, 0x0⟩,
  ⟨0x0148, 4, 128, .ro, 0x0, 0x0⟩,
  ⟨0x014C, 4, 128, .ro, 0x0, 0x0⟩,
  ⟨0x0150, 4, 128, .ro, 0x0, 0x0⟩,
  ⟨0x0154, 4, 128, .ro, 0x0, 0x0⟩]

def netRows1 : List RegRow := [
  ⟨0x0158, 4, 128, .ro, 0x0, 0x0⟩,
  ⟨0x015C, 4, 128, .ro, 0x0, 0x0⟩,
  ⟨0x0160, 4, 128, .ro, 0x0, 0x0⟩,
  ⟨0x0164, 4, 128, .ro, 0x0, 0x0⟩,
  ⟨0x0168, 4, 128, .ro, 0x0, 0x0⟩,
  ⟨0x016C, 4, 128, .ro, 0x0, 0x0⟩,
  ⟨0x0170, 4, 128, .ro, 0x0, 0x0⟩,
  ⟨0x0174, 4, 128, .ro, 0x0, 0x0⟩,
  ⟨0x0178, 4, 128, .ro, 0x0, 0x0⟩]

/-- Rows of block NET. -/
def netRows : List RegRow :=
  netRows0 ++ netRows1

def strRows0 : List RegRow := [
  ⟨0x0000, 1, 4, .ro, 0x10000, 0x0⟩,
  ⟨0x0004, 1, 4, .w1c, 0x0, 0xFF⟩,
  ⟨0x0008, 1, 4, .rw, 0x0, 0xFF⟩,
  ⟨0x000C, 1, 4, .wo, 0x0, 0x0⟩,
  ⟨0x0010, 1, 4, .ro, 0x0, 0x0⟩,
  ⟨0x0014, 1, 4, .ro, 0x0, 0x0⟩,
  ⟨0x0018, 1, 4, .ro, 0x1B00, 0x0⟩,
  ⟨0x001C, 1, 4, .ro, 0x1B00, 0x0⟩,
  ⟨0x0020, 1, 4, .rw, 0x186A0, 0xFFFFFFFF⟩,
  ⟨0x0024, 1, 4, .ro, 0x0, 0x0⟩,
  ⟨0x0028, 1, 4, .ro, 0x0, 0x0⟩,
  ⟨0x002C, 1, 4, .ro, 0x0, 0x0⟩,
  ⟨0x0030, 1, 4, .ro, 0x0, 0x0⟩,
  ⟨0x0034, 1, 4, .ro, 0x0, 0x0⟩,
  ⟨0x0038, 1, 4, .ro, 0x0, 0x0⟩,
  ⟨0x003C, 1, 4, .ro, 0x0, 0x0⟩,
  ⟨0x0100, 8, 4, .w1c, 0x0, 0xFFFFFFFF⟩,
  ⟨0x4000, 4096, 4, .ro, 0x0, 0x0⟩,
  ⟨0x8000, 4096, 4, .ro, 0x0, 0x0⟩]

/-- Rows of block STR. -/
def strRows : List RegRow :=
  strRows0

def timRows0 : List RegRow := [
  ⟨0x0000, 1, 4, .ro, 0x10000, 0x0⟩,
  ⟨0x0004, 1, 4, .rw, 0x0, 0x1⟩,
  ⟨0x0008, 1, 4, .ro, 0x8000, 0x0⟩,
  ⟨0x000C, 1, 4, .w1c, 0x0, 0x1FFF⟩,
  ⟨0x0010, 1, 4, .rw, 0x0, 0x1FFF⟩,
  ⟨0x0014, 1, 4, .ro, 0x0, 0x0⟩,
  ⟨0x0018, 1, 4, .ro, 0x0, 0x0⟩,
  ⟨0x001C, 1, 4, .ro, 0x0, 0x0⟩,
  ⟨0x0020, 1, 4, .ro, 0x0, 0x0⟩,
  ⟨0x0024, 1, 4, .ro, 0x0, 0x0⟩,
  ⟨0x0028, 1, 4, .ro, 0x0, 0x0⟩,
  ⟨0x002C, 1, 4, .ro, 0x0, 0x0⟩,
  ⟨0x0030, 1, 4, .ro, 0x0, 0x0⟩,
  ⟨0x0034, 1, 4, .ro, 0x0, 0x0⟩,
  ⟨0x0038, 1, 4, .rw, 0xCCCCCCCD, 0xFFFFFFFF⟩,
  ⟨0x003C, 1, 4, .rw, 0xCC, 0xFFFF⟩,
  ⟨0x0040, 1, 4, .ro, 0xCCCCCCCD, 0x0⟩,
  ⟨0x0044, 1, 4, .ro, 0xCC, 0x0⟩,
  ⟨0x0048, 1, 4, .ro, 0x0, 0x0⟩,
  ⟨0x004C, 1, 4, .ro, 0x0, 0x0⟩]

def timRows1 : List RegRow := [
  ⟨0x0050, 1, 4, .ro, 0x0, 0x0⟩,
  ⟨0x0054, 1, 4, .ro, 0x0, 0x0⟩,
  ⟨0x0058, 1, 4, .rw, 0xA, 0x7F⟩,
  ⟨0x005C, 1, 4, .rw, 0x64, 0xFFFF⟩,
  ⟨0x0060, 1, 4, .ro, 0x0, 0x0⟩,
  ⟨0x0064, 1, 4, .ro, 0x0, 0x0⟩,
  ⟨0x0068, 1, 4, .ro, 0x0, 0x0⟩,
  ⟨0x006C, 1, 4, .ro, 0x0, 0x0⟩,
  ⟨0x0070, 1, 4, .ro, 0x0, 0x0⟩,
  ⟨0x0074, 1, 4, .ro, 0x0, 0x0⟩,
  ⟨0x0078, 1, 4, .ro, 0x0, 0x0⟩,
  ⟨0x007C, 1, 4, .ro, 0x0, 0x0⟩,
  ⟨0x0080, 1, 4, .ro, 0x0, 0x0⟩,
  ⟨0x0084, 1, 4, .ro, 0x0, 0x0⟩,
  ⟨0x0088, 1, 4, .ro, 0x0, 0x0⟩,
  ⟨0x008C, 1, 4, .ro, 0x0, 0x0⟩,
  ⟨0x0090, 1, 4, .ro, 0x0, 0x0⟩,
  ⟨0x0094, 1, 4, .wo, 0x0, 0x0⟩,
  ⟨0x0100, 16, 4, .rwe, 0x0, 0xFFFFFFFF⟩,
  ⟨0x0140, 4, 4, .rwe, 0x0, 0xFFFFFFFF⟩]

def timRows2 : List RegRow := [
  ⟨0x0180, 16, 4, .rw, 0x0, 0xFF⟩,
  ⟨0x0200, 16, 32, .ro, 0x0, 0x0⟩,
  ⟨0x0204, 16, 32, .ro, 0x0, 0x0⟩,
  ⟨0x0208, 16, 32, .ro, 0x0, 0x0⟩,
  ⟨0x020C, 16, 32, .ro, 0x0, 0x0⟩,
  ⟨0x0210, 16, 32, .ro, 0x0, 0x0⟩,
  ⟨0x0800, 16, 16, .ro, 0x0, 0x0⟩,
  ⟨0x0804, 16, 16, .ro, 0xFFFFFFFF, 0x0⟩,
  ⟨0x0808, 16, 16, .ro, 0x0, 0x0⟩,
  ⟨0x080C, 16, 16, .ro, 0x0, 0x0⟩]

/-- Rows of block TIM. -/
def timRows : List RegRow :=
  timRows0 ++ timRows1 ++ timRows2

def sapRows0 : List RegRow := [
  ⟨0x0000, 1, 4, .ro, 0x10000, 0x0⟩,
  ⟨0x0004, 1, 4, .w1c, 0x0, 0xFF⟩,
  ⟨0x0008, 1, 4, .rw, 0x0, 0xFF⟩,
  ⟨0x000C, 1, 4, .wo, 0x0, 0x0⟩,
  ⟨0x0010, 1, 4, .ro, 0x0, 0x0⟩,
  ⟨0x0014, 1, 4, .ro, 0x0, 0x0⟩,
  ⟨0x0018, 1, 4, .ro, 0x0, 0x0⟩,
  ⟨0x0100, 8, 4, .rwe, 0x0, 0xFFFFFFFF⟩,
  ⟨0x0120, 1, 4, .ro, 0x0, 0x0⟩,
  ⟨0x0124, 1, 4, .ro, 0x0, 0x0⟩,
  ⟨0x0128, 1, 4, .ro, 0x0, 0x0⟩,
  ⟨0x012C, 1, 4, .ro, 0x0, 0x0⟩,
  ⟨0x0130, 1, 4, .ro, 0x0, 0x0⟩,
  ⟨0x0134, 1, 4, .ro, 0x0, 0x0⟩,
  ⟨0x0138, 1, 4, .ro, 0x0, 0x0⟩,
  ⟨0x1000, 32, 128, .rwe, 0x0, 0x1FFF⟩,
  ⟨0x1004, 32, 128, .rwe, 0x0, 0x8FFF8FFF⟩,
  ⟨0x1008, 32, 128, .rwe, 0x0, 0x83FF83FF⟩,
  ⟨0x1010, 32, 128, .ro, 0x0, 0x0⟩,
  ⟨0x1014, 32, 128, .ro, 0x0, 0x0⟩]

def sapRows1 : List RegRow := [
  ⟨0x1018, 32, 128, .ro, 0x0, 0x0⟩,
  ⟨0x101C, 32, 128, .ro, 0x0, 0x0⟩,
  ⟨0x1020, 32, 128, .ro, 0x0, 0x0⟩,
  ⟨0x1024, 32, 128, .ro, 0x0, 0x0⟩,
  ⟨0x1028, 32, 128, .ro, 0x0, 0x0⟩,
  ⟨0x102C, 32, 128, .ro, 0x0, 0x0⟩,
  ⟨0x1030, 32, 128, .ro, 0x0, 0x0⟩]

/-- Rows of block SAP. -/
def sapRows : List RegRow :=
  sapRows0 ++ sapRows1

def nylRows0 : List RegRow := [
  ⟨0x0000, 1, 4, .ro, 0x10000, 0x0⟩,
  ⟨0x0004, 1, 4, .w1c, 0x0, 0x1F⟩,
  ⟨0x0008, 1, 4, .rw, 0x0, 0x1F⟩,
  ⟨0x000C, 1, 4, .wo, 0x0, 0x0⟩,
  ⟨0x0010, 2, 4, .rwe, 0x0, 0x3⟩,
  ⟨0x0018, 1, 4, .ro, 0x0, 0x0⟩,
  ⟨0x001C, 1, 4, .ro, 0x0, 0x0⟩,
  ⟨0x0020, 1, 4, .ro, 0xFFFFFFFF, 0x0⟩,
  ⟨0x0024, 1, 4, .rw, 0x3E8, 0xFFFF⟩,
  ⟨0x0028, 1, 4, .ro, 0x0, 0x0⟩,
  ⟨0x002C, 1, 4, .ro, 0x0, 0x0⟩,
  ⟨0x0100, 16, 4, .rwe, 0x0, 0xFFFFFFFF⟩,
  ⟨0x0200, 6, 64, .ro, 0x0, 0x0⟩,
  ⟨0x0204, 6, 64, .ro, 0x0, 0x0⟩,
  ⟨0x0208, 6, 64, .ro, 0x0, 0x0⟩,
  ⟨0x020C, 6, 64, .ro, 0x0, 0x0⟩,
  ⟨0x0210, 6, 64, .ro, 0x0, 0x0⟩,
  ⟨0x0214, 6, 64, .ro, 0x0, 0x0⟩,
  ⟨0x0218, 6, 64, .ro, 0x0, 0x0⟩,
  ⟨0x021C, 6, 64, .ro, 0x0, 0x0⟩]

def nylRows1 : List RegRow := [
  ⟨0x0800, 1, 4, .ro, 0x0, 0x0⟩,
  ⟨0x0804, 1, 4, .rw, 0x1, 0x3⟩,
  ⟨0x0808, 1, 4, .rw, 0xC350, 0xFFFFF⟩,
  ⟨0x080C, 1, 4, .rw, 0x3, 0xFF⟩,
  ⟨0x0810, 1, 4, .ro, 0x0, 0x0⟩,
  ⟨0x0814, 1, 4, .rw, 0x15F90, 0xFFFFFFFF⟩,
  ⟨0x0818, 1, 4, .ro, 0x0, 0x0⟩,
  ⟨0x081C, 1, 4, .ro, 0x0, 0x0⟩,
  ⟨0x0820, 1, 4, .ro, 0x0, 0x0⟩,
  ⟨0x0824, 1, 4, .ro, 0x0, 0x0⟩,
  ⟨0x0828, 1, 4, .ro, 0x0, 0x0⟩,
  ⟨0x082C, 1, 4, .ro, 0x0, 0x0⟩,
  ⟨0x0830, 1, 4, .ro, 0x0, 0x0⟩,
  ⟨0x0834, 1, 4, .wo, 0x0, 0x0⟩,
  ⟨0x0838, 1, 4, .w1c, 0x0, 0xFF⟩,
  ⟨0x083C, 1, 4, .rw, 0x0, 0xFF⟩,
  ⟨0x0900, 8, 4, .rwe, 0x0, 0xFFFFFFFF⟩]

/-- Rows of block NYL. -/
def nylRows : List RegRow :=
  nylRows0 ++ nylRows1

def pwrRows0 : List RegRow := [
  ⟨0x0000, 1, 4, .ro, 0x10000, 0x0⟩,
  ⟨0x0004, 1, 4, .rw, 0x2, 0x3⟩,
  ⟨0x0008, 1, 4, .ro, 0x300000, 0x0⟩,
  ⟨0x000C, 1, 4, .w1c, 0x0, 0x1FF⟩,
  ⟨0x0010, 1, 4, .rw, 0x0, 0x1FF⟩,
  ⟨0x0014, 1, 4, .rw, 0x4, 0x1F⟩,
  ⟨0x0018, 1, 4, .ro, 0x0, 0x0⟩,
  ⟨0x001C, 1, 4, .ro, 0x0, 0x0⟩,
  ⟨0x0020, 1, 4, .ro, 0x0, 0x0⟩,
  ⟨0x0024, 1, 4, .ro, 0x0, 0x0⟩,
  ⟨0x0028, 1, 4, .ro, 0x0, 0x0⟩,
  ⟨0x002C, 1, 4, .ro, 0x0, 0x0⟩,
  ⟨0x0030, 1, 4, .ro, 0x0, 0x0⟩,
  ⟨0x0034, 1, 4, .ro, 0x0, 0x0⟩,
  ⟨0x0038, 1, 4, .ro, 0x0, 0x0⟩,
  ⟨0x003C, 1, 4, .ro, 0x0, 0x0⟩,
  ⟨0x0040, 1, 4, .ro, 0x0, 0x0⟩,
  ⟨0x0044, 1, 4, .ro, 0x0, 0x0⟩,
  ⟨0x0048, 1, 4, .ro, 0x0, 0x0⟩,
  ⟨0x004C, 1, 4, .ro, 0x0, 0x0⟩]

def pwrRows1 : List RegRow := [
  ⟨0x0050, 1, 4, .ro, 0x0, 0x0⟩,
  ⟨0x0054, 1, 4, .wo, 0x0, 0x0⟩,
  ⟨0x0100, 4, 4, .w1c, 0x0, 0xFFFFFFFF⟩,
  ⟨0x0110, 4, 4, .w1c, 0x0, 0xFFFFFFFF⟩,
  ⟨0x0120, 4, 4, .ro, 0x0, 0x0⟩,
  ⟨0x0130, 4, 4, .rw, 0xFFFFFFFF, 0xFFFFFFFF⟩,
  ⟨0x0140, 1, 4, .ro, 0x0, 0x0⟩,
  ⟨0x0144, 1, 4, .ro, 0x0, 0x0⟩]

/-- Rows of block PWR. -/
def pwrRows : List RegRow :=
  pwrRows0 ++ pwrRows1

def svcRows0 : List RegRow := [
  ⟨0x0000, 1, 4, .ro, 0x10000, 0x0⟩,
  ⟨0x0004, 1, 4, .wo, 0x0, 0x0⟩,
  ⟨0x0008, 1, 4, .ro, 0x0, 0x0⟩,
  ⟨0x000C, 1, 4, .rw, 0x3C, 0xFFFF⟩,
  ⟨0x0010, 1, 4, .rw, 0xE10, 0x1FFFF⟩,
  ⟨0x0014, 1, 4, .ro, 0x0, 0x0⟩,
  ⟨0x0018, 1, 4, .ro, 0x0, 0x0⟩,
  ⟨0x001C, 1, 4, .ro, 0x0, 0x0⟩,
  ⟨0x0020, 1, 4, .ro, 0x0, 0x0⟩,
  ⟨0x0024, 1, 4, .ro, 0x0, 0x0⟩,
  ⟨0x0028, 1, 4, .ro, 0x0, 0x0⟩,
  ⟨0x002C, 1, 4, .ro, 0x0, 0x0⟩,
  ⟨0x0030, 1, 4, .wo, 0x0, 0x0⟩,
  ⟨0x0034, 1, 4, .w1c, 0x0, 0x3F⟩,
  ⟨0x0038, 1, 4, .rw, 0x0, 0x3F⟩,
  ⟨0x0040, 8, 4, .ro, 0x0, 0x0⟩]

/-- Rows of block SVC. -/
def svcRows : List RegRow :=
  svcRows0

def snpRows0 : List RegRow := [
  ⟨0x0000, 1, 4, .ro, 0x10000, 0x0⟩,
  ⟨0x0004, 1, 4, .rw, 0x0, 0x3⟩,
  ⟨0x0008, 1, 4, .wo, 0x0, 0x0⟩,
  ⟨0x000C, 1, 4, .rw, 0x0, 0xFFFFFFFF⟩,
  ⟨0x0010, 1, 4, .rw, 0x0, 0xFFFFFFFF⟩,
  ⟨0x0014, 1, 4, .rw, 0x0, 0x13F⟩,
  ⟨0x0018, 1, 4, .rw, 0x0, 0x1FFF⟩,
  ⟨0x001C, 1, 4, .ro, 0x0, 0x0⟩,
  ⟨0x0020, 1, 4, .wo, 0x0, 0x0⟩,
  ⟨0x0024, 1, 4, .ro, 0x0, 0x0⟩,
  ⟨0x0040, 1, 4, .ro, 0x0, 0x0⟩,
  ⟨0x0044, 1, 4, .ro, 0x0, 0x0⟩,
  ⟨0x0048, 1, 4, .ro, 0x0, 0x0⟩,
  ⟨0x004C, 1, 4, .ro, 0x0, 0x0⟩,
  ⟨0x0050, 1, 4, .ro, 0x0, 0x0⟩,
  ⟨0x0054, 1, 4, .ro, 0x0, 0x0⟩,
  ⟨0x0060, 6, 4, .ro, 0x0, 0x0⟩,
  ⟨0x4000, 4608, 4, .ro, 0x0, 0x0⟩,
  ⟨0xA000, 4608, 4, .ro, 0x0, 0x0⟩]

/-- Rows of block SNP. -/
def snpRows : List RegRow :=
  snpRows0

/-- The rows of the block with index i (R515). -/
def blockRows (i : Nat) : List RegRow :=
  match i with
  | 0 => glbRows
  | 1 => cmdRows
  | 2 => irqRows
  | 3 => busRows
  | 4 => cisRows
  | 5 => geoRows
  | 6 => pmpRows
  | 7 => smpRows
  | 8 => corRows
  | 9 => meaRows
  | 10 => ecxRows
  | 11 => netRows
  | 12 => strRows
  | 13 => timRows
  | 14 => sapRows
  | 15 => nylRows
  | 16 => pwrRows
  | 17 => svcRows
  | 18 => snpRows
  | _ => []

/-- Offset within the block; the effect-core block has one window for each core (R515). -/
def regOff (a : Nat) : Nat :=
  if a / 0x10000 = 10 then a % 0x1000 else a % 0x10000

/-- The row of a register address, if the index lists it (R516). -/
def rowAt (a : Nat) : Option RegRow :=
  (blockRows (a / 0x10000)).find? fun r =>
    decide (r.off ≤ regOff a) && (regOff a - r.off) % r.stride == 0 && decide ((regOff a - r.off) / r.stride < r.n)

/-- Reset values that differ along an array: ramp classes (R261), bank map (R306, R307), master QoS (R312), parking (R302), masked MSI-X
vectors (R522), reference descriptor (R408) and driver word 3 (R495). -/
def resetSpecial (a : Nat) : Option Nat :=
  if a = R.cmdRamp then some 20
  else if a = R.cmdRamp + 4 then some 0x80000032
  else if a = R.cmdRamp + 8 then some 10
  else if a = R.cmdRamp + 12 then some 0x80000032
  else if a = R.cmdRamp + 16 then some 10
  else if R.cisBankCfg ≤ a ∧ a < R.cisBankCfg + 1024 then
    let n := (a - R.cisBankCfg) / 4
    some (if n < 128 then 0x100 else if n < 192 then 0x101 else if n < 208 then 0x102 else if n < 240 then 0x103 else 4)
  else if R.cisBankOwn ≤ a ∧ a < R.cisBankOwn + 1024 then
    let n := (a - R.cisBankOwn) / 4
    some (if n < 128 then 1 else if n < 192 then 2 else if n < 208 then 3 else if n < 240 then 4 else 0)
  else if R.busMqos ≤ a ∧ a < R.busMqos + 100 then
    let m := (a - R.busMqos) / 4
    some (if m < 4 then 8 else if m < 20 then 4 else if m = 20 then 6 else if m = 21 then 10 else if m = 22 then 12
      else if m = 23 then 5 else 2)
  else if R.busPark ≤ a ∧ a < R.busPark + 84 then
    let t := (a - R.busPark) / 4
    some (if t = 12 then 22 else if t = 13 ∨ t = 14 then 23 else 0)
  else if R.glbMsixTable ≤ a ∧ a < R.glbMsixTable + 512 then
    some (if a % 16 = 12 then 1 else 0)
  else if a = R.timRefCfg then some 0x0A0A0100
  else if a = R.timRefCfg + 4 then some 0x000186A0
  else if a = R.pwrDrvOpenEn + 12 then some 0x007FFFFF
  else none

/-- The reset value of a register (0 where none is listed). -/
def resetVal (a : Nat) : Word :=
  match resetSpecial a with
  | some v => wd v
  | none => match rowAt a with
    | some r => wd r.reset
    | none => 0

end Sys2Proof.Machine
end

