-- ==== Sys2Proof/Machine/StateCtl.lean ====
section
/-! DEFINITION. State of the control side: identity of the module, what leaves it, interrupts (chapter 10), command rings and
transactions (chapters 08 and 04), journal and snapshots (04), power (15) and service (16). -/

namespace Sys2Proof.Machine

/-- What a module is before any reset: part, identity and firmware facts the spec leaves to the module (R519, R524). -/
structure ModuleId where
  /-- 0 RYV1024-C, 1 RYV1024-X, 2 RYV0512-C -/
  variant : Nat := 0
  dieRev : Nat := 1
  moduleRev : Nat := 1
  devId : Nat := 0
  /-- MAC addresses of NET0 to NET3, octet 0 in the low bits -/
  macs : List Nat := [0, 0, 0, 0]
  /-- levels at MGT_A2 to MGT_A0 (R544) -/
  straps : Nat := 7
deriving DecidableEq, Repr, Inhabited

/-- Management and reference pins the device drives (R494, R538): true is high or released. -/
structure Pins where
  intN : Bool := true
  wakeN : Bool := true
  faultN : Bool := false
  pwrWarnN : Bool := true
  pg : Bool := true
deriving DecidableEq, Repr, Inhabited

/-- What leaves the device, newest first. -/
inductive Out where
  /-- write of host memory through HOSTDMA, CMDDMA or MEADMA -/
  | host (addr : Nat) (data : List Byte)
  /-- an MSI-X message: address and data -/
  | msix (addr data : Nat)
  /-- value a read returned to its requester (R517): requester, address, value -/
  | read (req addr : Nat) (v : Word)
  /-- a BAR2 read's data (R293) -/
  | window (data : List Byte)
  /-- response of a bus-matrix transaction (R301): master, ID, RESP, BUSY, data -/
  | bus (master id resp : Nat) (busy : Bool) (data : List Byte)
  /-- an Ethernet frame sent by a port, without FCS -/
  | frame (port : Nat) (data : List Byte)
  /-- a message on a Nyith link -/
  | link (link : Nat) (m : LinkMsg)
  /-- a PTP message on a port -/
  | ptp (port kind : Nat) (m : PtpMsg)
  /-- DOUT samples of a serial port for one block: left and right -/
  | sap (port : Nat) (l r : List Int)
  /-- a driven edge on a trigger pin -/
  | trig (pin : Nat) (high : Bool)
  /-- a completion entry posted to a CQ (R247): ring and 64 bytes -/
  | cpl (cq : Nat) (entry : List Byte)
  /-- an SMBus answer (R544) -/
  | smbus (code : Nat) (v : Word)
  /-- an SMBus command that is not acknowledged -/
  | smbusNak (code : Nat)
deriving DecidableEq, Repr

/-! ### Interrupt controller -/

/-- A running hold-off (R318): the cycle or the tick at which it ends. -/
inductive HoldEnd where
  | clk (c : Nat)
  | tick (t : Nat)
deriving DecidableEq, Repr

structure IrqSt where
  /-- released sources, ascending (R318) -/
  rel : List Nat := []
  /-- in-service stacks by target code, top entry first: source and priority (R317) -/
  inServ : Tab (List (Nat × Nat)) := []
  /-- frozen stacks: FREEZE_PRI and the number of entries frozen (R325, R326) -/
  frozen : Tab (Nat × Nat) := []
  /-- running hold-offs by group -/
  hold : Tab HoldEnd := []
  /-- host sources deliverable after the last command, for the edges of R322 -/
  deliv : List Nat := []
  /-- cycle at which the data link went down (R329) -/
  downAt : Option Nat := some 0
  /-- function in D0 and link in L0 (R322) -/
  d0 : Bool := true
  l0 : Bool := true
deriving DecidableEq, Repr, Inhabited

/-! ### Commands and transactions -/

/-- A staged packet (R97): opcode, payload, and in a gang the path it was sent to (R449). Stage order is its place in the list. -/
structure Packet where
  op : Nat
  payload : List Byte
  depth : Nat := 0
  path : Nat := 0
deriving DecidableEq, Repr, Inhabited

/-- Where completions of a packet go: ring, tag, opcode, transaction, network source (R247, R274, R275). -/
structure Reply where
  cq : Nat := 0
  sq : Nat := 0
  tag : Nat := 0
  op : Nat := 0
  txn : Nat := 0
  net : Option (Nat × Nat × Nat) := none
deriving DecidableEq, Repr, Inhabited

/-- A completion entry before it is posted (R247); `epoch` none is filled when it is posted. -/
structure Cpl where
  status : Nat := 0
  epoch : Option Nat := none
  final : Bool := true
  second : Bool := false
  result : List Byte := []
  rlen : Nat := 0
deriving DecidableEq, Repr, Inhabited

/-- A packet whose first completion is not posted yet (R260). -/
structure Fetched where
  num : Nat
  reply : Reply
  /-- entries reserved in the CQ (R249) -/
  resv : Nat
  /-- cycle at which CMD_TIMEOUT expires -/
  due : Nat
  /-- the first completion, when execution has produced it -/
  cpl : Option Cpl
  /-- a commit or implicit commit: the transaction its ST_ACCEPTED orders -/
  accepts : Option Nat := none
  /-- timed out: what the firmware produces later is dropped (R260) -/
  dead : Bool := false
  /-- host memory the completion's reply buffer writes first (R250) -/
  rbuf : Option (Nat × List Byte) := none
deriving DecidableEq, Repr, Inhabited

inductive TxnPhase where
  | open_ | failed | accepted | admitted
  /-- refused by a pass; the final completion waits for its boundary (R107) -/
  | refused
deriving DecidableEq, Repr, Inhabited

/-- The failure a final completion reports (R258, R555). -/
structure Verdict where
  status : Nat := 2
  stage : Nat := 0xFFFFFFFF
  failOp : Nat := 0
  /-- UNIT, INDEX, TICK_OFF, DEMAND, CAP (R109) -/
  budget : Option (Nat × Nat × Nat × Nat × Nat) := none
  lateness : Nat := 0
  discarded : Bool := false
deriving DecidableEq, Repr, Inhabited

/-- A transaction (R96). -/
structure Txn where
  /-- its place in the order of creation; names a transaction uniquely -/
  num : Nat
  id : Nat
  fw : Bool := false
  phase : TxnPhase := .open_
  /-- first staging error -/
  err : Nat := 0
  packets : List Packet := []
  bytes : Nat := 0
  /-- register writes carried since its pass (R102) -/
  regs : List (Nat × Word) := []
  mode1 : Bool := false
  t : Nat := 0
  lateMax : Nat := 0
  /-- order of its ST_ACCEPTED, once posted (R104) -/
  acc : Option Nat := none
  /-- commit boundary and verdict, from the pass -/
  boundary : Nat := 0
  verdict : Verdict := {}
  /-- cycle of the last command for it (R99) -/
  used : Nat := 0
  reply : Option Reply := none
  /-- offset of its record in the commit ring and its SEQ -/
  jrec : Option (Nat × Nat) := none
  /-- members whose verdict is still awaited (the partner is 16), the verdicts that came: member, path, verdict; and whether the
  pass has still to decide (R450) -/
  awaits : List Nat := []
  votes : List (Nat × Nat × Verdict) := []
  undecided : Bool := false
  /-- greatest loads of its blocks when it was judged (R117) -/
  peaks : List Nat := []
  /-- the leader's number of this transaction, at a member or PARTNER (R450, R454) -/
  lead : Option Nat := none
  /-- a member or PARTNER still lacks COMMIT -/
  needGo : Bool := false
  /-- it touches only this unit of a pair (R454) -/
  ownOnly : Bool := false
  /-- an S-ADM frame, a speed-of-sound update or a hand-over is in it (R100): kinds 1, 2, 3 -/
  kinds : List Nat := []
deriving DecidableEq, Repr, Inhabited

/-- A closed transaction that OP_TXN_STATUS still knows (R116). -/
structure ClosedTxn where
  id : Nat
  status : Nat
  epoch : Nat
deriving DecidableEq, Repr, Inhabited

/-- What the ring engine holds for an SQ beside its registers (R252, R279). -/
structure SqSt where
  skip : Nat := 0
  promoted : Bool := false
  fetchErr : Bool := false
  blocked : Bool := false
  partPkt : Bool := false
  /-- the head packet is held by FENCE; it does not fit in this tick's budget -/
  fenced : Bool := false
  noFit : Bool := false
  /-- fetchable at the last boundary; fetched something since -/
  wasFetchable : Bool := false
  fetchedSince : Bool := false
deriving DecidableEq, Repr, Inhabited

structure CqSt where
  phase : Bool := true
  resv : Nat := 0
deriving DecidableEq, Repr, Inhabited

structure CmdSt where
  sqs : Tab SqSt := []
  cqs : Tab CqSt := []
  /-- slots fetched in this tick (R251) -/
  slots : Nat := 0
  /-- arbitration turn: class, ring and packets taken in this visit (R252) -/
  turn : Nat × Nat × Nat := (0, 0, 0)
  fetched : List Fetched := []
  fetchNum : Nat := 0
  txns : List Txn := []
  txnNum : Nat := 0
  accNum : Nat := 0
  closed : List ClosedTxn := []
  /-- pending RWE writes, oldest first, each with its cycle (R521) -/
  rwe : List (Nat × Word × Nat) := []
  /-- network key (R271) -/
  key : Vector Word 8 := Vector.replicate 8 0
  /-- device's own sequence number and the peer's UDP port (R274) -/
  netTx : Nat := 0
  netPort : Nat := 0
  /-- network source of packets the device wrote into the SQ of the path, by slot -/
  netSrc : Tab (Nat × Nat × Nat) := []
  /-- datagrams waiting for the transmitter: port, VLAN, IP, UDP port, payload -/
  netOut : List (Nat × Nat × Nat × Nat × List Byte) := []
  /-- a tick's pass has run (R104) -/
  passDone : Bool := false
  /-- recovery hold: outputs held and the block that releases them (R122), coefficient holds (R123) with the digests awaited -/
  recHold : List Nat := []
  recRelease : Option Nat := none
  coefHold : Tab (List CoefWait) := []
  resetDue : Option Nat := none
deriving DecidableEq, Repr, Inhabited

/-- A record of the commit ring (R121). -/
structure JRec where
  off : Nat
  len : Nat
  seq : Nat
  epoch : Nat
  txn : Nat
  tick : Nat
  packets : List Packet
  regs : List (Nat × Word)
  isSealed : Bool := false
deriving DecidableEq, Repr, Inhabited

/-- Values of the persistent store (R120). -/
structure Store where
  rate96 : Bool := false
  holdIncr : Option Nat := none
  session : Nat := 0
  gang : Option (List Byte) := none
  pair : Option (List Byte) := none
  /-- identification references by output × 32 + microphone: arrival, levels, speed of sound -/
  refs : Tab (Int × List Int × Nat) := []
deriving DecidableEq, Repr, Inhabited

structure JnlSt where
  ringOff : Nat := 0
  seq : Nat := 0
  recs : List JRec := []
  /-- valid checkpoint and its slot; one being written -/
  chk : Checkpoint := {}
  slot : Nat := 0
  bg : Option Checkpoint := none
  /-- header fields CLEAN and SEALED_SEQ (R482) -/
  clean : Option Nat := none
  hdrNum : Nat := 0
  /-- the loads the banks of each output hold, as digests (R121, R123) -/
  coefs : Tab (List CoefWait) := []
  /-- outputs whose active coefficient bank is B -/
  active : List Nat := []
  store : Store := {}
  /-- bytes the control cores wrote through the bus matrix (R514) -/
  put : Tab Byte := []
deriving DecidableEq, Repr, Inhabited

structure SnpSt where
  aHeld : Bool := false
  bHeld : Bool := false
  cmd : Bool := false
  pin : Bool := false
  faults : Nat := 0
  time : Option Nat := none
  timeLate : Bool := false
  /-- boundaries named by gang messages (R452), with their cause bits -/
  gang : List (Nat × Nat) := []
deriving DecidableEq, Repr, Inhabited

/-! ### Power, boot and service -/

inductive BootReset where
  | running | held | standby | off
deriving DecidableEq, Repr, Inhabited

structure PwrSt where
  reset : BootReset := .running
  cause : Nat := 0
  /-- clamp allowance left, in core cycles, and the cycle the clamp or the quiet time began (R478) -/
  allowance : Nat := 125000000
  clampAt : Option Nat := none
  inputOpen : Bool := false
  inputLow : Option Nat := none
  /-- egress block from which the outputs are weighted out, and shed state (R483, R490) -/
  shedAt : Option Nat := none
  shedDone : Bool := false
  hot : Nat := 0
  trip : Bool := false
  /-- egress block from which every output is weighted out after a trip (R490) -/
  tripAt : Option Nat := none
  retained : Bool := true
  /-- cycle at which boot began (PG), RESET_N low, restart condition awaited, restart after a thermal trip awaited -/
  bootAt : Nat := 0
  resetPin : Bool := false
  needHold : Bool := false
  thermRestart : Bool := false
  /-- a load-shed unit takes up rendering at the next boundary (R484) -/
  unshed : Bool := false
  /-- cycle of the next retry of a driver that is off; probes a microphone's bit followed in a row -/
  drv : Tab Nat := []
  probes : Tab Nat := []
deriving DecidableEq, Repr, Inhabited

structure SvcSt where
  /-- 0 UNOWNED, 1 OWNED, 2 OPEN -/
  state : Nat := 0
  key : List Byte := []
  chal : Option (List Byte × Nat) := none
  fails : Nat := 0
  period : Nat := 0
  backoff : Option Nat := none
  opened : Nat := 0
  rb : Nat := 0
  select : Nat := 0
  running : Nat := 0
  fallback : Bool := false
  /-- flash bytes by offset; the next offset a write may use in each image, none while the region is as the factory left it -/
  flash : List Host.Cell := []
  nextA : Option Nat := none
  nextB : Option Nat := none
  runVer : Nat := 0x10000
  runSvn : Nat := 0
  /-- version of the image A the factory wrote, until a write replaces it -/
  verA : Nat := 0x10000
deriving DecidableEq, Repr, Inhabited

end Sys2Proof.Machine
end

