-- ==== Sys2Proof/Machine/StateEc.lean ====
section
/-! DEFINITION. Effect-core state (chapter 07). -/

namespace Sys2Proof.Machine

/-- ECX_STATE.STATE (R238). -/
inductive EcMode where
  | stopped | running | halted | handler | overrun | fault
deriving DecidableEq, Repr, Inhabited

/-- A register write that later instructions do not see at once (R217). -/
inductive EcWrite where
  | d (n : Nat) (v : Word)
  | p (n : Nat) (v : Nat)
  | g (n : Nat) (v : Int)
  | w (n : Nat) (v : Word)
  /-- the accumulator as STA and ARND see it -/
  | acc (n : Nat) (v : Int)
deriving DecidableEq, Repr

/-- An open block loop (R221). -/
structure EcLoop where
  start : Nat
  stop : Nat
  count : Nat
deriving DecidableEq, Repr

/-- A queued XMOV (R204): direction (true: local to cistern), cistern byte address, local word address, lines. -/
structure EcXfer where
  out : Bool
  cis : Nat
  loc : Nat
  lines : Nat
  /-- accepted before a handover of its bank began (R291) -/
  inFlight : Bool := false
deriving DecidableEq, Repr

/-- What interrupt entry saves (R226). -/
structure EcSave where
  pc : Nat
  status : Word
  dec : Word
  loops : List EcLoop
  halted : Bool
deriving DecidableEq, Repr

/-- One effect core (R199, R201, R228, R236). -/
structure EcCore where
  d : Vector Word 16 := Vector.replicate 16 0
  a : Vector Int 4 := Vector.replicate 4 0
  /-- accumulators as STA and ARND see them (R217) -/
  aS : Vector Int 4 := Vector.replicate 4 0
  p : Vector Nat 8 := Vector.replicate 8 0
  g : Vector Int 8 := Vector.replicate 8 0
  w : Vector Word 8 := Vector.replicate 8 0
  z : Bool := false
  n : Bool := false
  v : Bool := false
  c : Bool := false
  sat : Bool := false
  gov : Bool := false
  dec : Word := 0
  /-- open loops, innermost first -/
  loops : List EcLoop := []
  stack : List Nat := []
  pc : Nat := 0
  /-- branch target and delay slots still to issue (R217) -/
  slots : Option (Nat × Nat) := none
  /-- repeats of the instruction at PC still to issue (R220) -/
  rep : Option Nat := none
  /-- writes on their way: first cycle that sees them, cycle of issue, the write -/
  late : List (Nat × Nat × EcWrite) := []
  mode : EcMode := .stopped
  cause : Nat := 0
  /-- cycle counter of the core, for the distances of R217 -/
  cyc : Nat := 0
  /-- issue cycles of the tick program (R218) -/
  issue : Nat := 0
  /-- handler cycles spent this tick (R226) -/
  quota : Nat := 0
  save : Option EcSave := none
  waiting : Bool := false
  queue : List EcXfer := []
  /-- tick number of the running tick program, and of the block it processes -/
  tick : Nat := 0
  blk : Nat := 0
  startClk : Nat := 0
  prog : Tab (BitVec 64) := []
  mem : Tab Word := []
  /-- RUN is committed; the tick of the first program of a start that waits for it (R235) -/
  runOn : Bool := false
  startTick : Option Nat := none
  /-- OP_EC_START of the transaction being applied restarts a core that stopped by itself -/
  startReq : Bool := false
  /-- a stop: first tick after its ramp, and once EC_STOP_RAMP_END has come the boundary that stops the core -/
  stopDue : Option Nat := none
  stopAt : Option Nat := none
  /-- class and depth its inserts were attached under (R229) -/
  cls : Nat := 0
  depth : Nat := 0
  /-- ramp of its inserts (R235), by processed block -/
  ramp : Ramp := { toDb := -32768 }
  /-- interrupts counted as held in this tick (R226) -/
  held : List Nat := []
  /-- parameter words waiting for their tick (R230): tick, address, words -/
  params : List (Nat × Nat × List Word) := []
deriving DecidableEq, Repr, Inhabited

/-- An output buffer as the device took it after HALT, an overrun or a fault: tick, processed block, core, target. -/
structure EcOut where
  tick : Nat
  blk : Nat
  core : Nat
  target : Nat
  samples : List Int
deriving DecidableEq, Repr, Inhabited

/-- What stands between the cores and the render path (R228, R229, R235). -/
structure EcIo where
  /-- insert of each object that ever had one, by first block, newest first -/
  objRoute : Tab (List (Nat × Option Insert)) := []
  /-- ramps down and up again around a change of an object's insert -/
  objGate : Tab (Ramp × Ramp) := []
  /-- post-correction inserts in force, and outputs whose chain changes: first muted block and switch tick -/
  outIns : List Insert := []
  outChg : Tab (Nat × Nat) := []
  /-- inserts of classes 2 and 3 in force -/
  auxIns : List Insert := []
  /-- headworks samples of objects with an insert: sample time and value, newest first -/
  hw : Tab (List (Nat × Int)) := []
  outs : List EcOut := []
  /-- accesses to data memory that wait for HALT or RETI: core, number on the bus matrix, access (R203) -/
  waits : List (Nat × Option Nat × BusTxn) := []
  /-- OP_EC_READ packets that wait likewise: core, word address, words, number of the packet -/
  reads : List (Nat × Nat × Nat × Nat) := []
deriving DecidableEq, Repr, Inhabited

end Sys2Proof.Machine
end

