-- ==== Sys2Proof/Machine/StateMea.lean ====
section
/-! DEFINITION. State of the measurement unit (chapter 06). -/

namespace Sys2Proof.Machine

/-- A microphone's chain (R166, R170): the block it started with, and its PDM bits, newest first. -/
structure MicRt where
  start : Option Nat := none
  bits : List Bool := []
deriving DecidableEq, Repr, Inhabited

/-- A fine float (R175, R176): its register, the block it was configured for, the running 100 ms: sum of squares, true peak, all
valid; the last samples; and the segments finished, newest first. -/
structure FineRt where
  src : Word
  since : Nat
  sum : Nat := 0
  peak : Nat := 0
  ok : Bool := true
  hist : List Int := []
  segs : List (Nat × Nat × Bool) := []
deriving DecidableEq, Repr, Inhabited

/-- Loudness of a layout (R177): block it was enabled for, weighted energies of the newest 100 ms steps, gating blocks since the
reset, true peak since then, last samples by output, whether any sample was not zero. -/
structure LoudRt where
  since : Nat
  steps : List Nat := []
  gates : List Nat := []
  peak : Nat := 0
  hist : Tab (List Int) := []
  heard : Bool := false
deriving DecidableEq, Repr, Inhabited

/-- A schedule of identification (R179): first block, dwell in ticks, outputs and microphones. -/
structure IdentRun where
  start : Nat
  dwell : Nat
  outs : List Nat
  mics : List Nat
deriving DecidableEq, Repr, Inhabited

/-- A subset whose accumulation is over and whose publication is due (R179). -/
structure IdentPend where
  index : Nat
  count : Nat
  due : Nat
  outs : List Nat
  mics : List Nat
deriving DecidableEq, Repr, Inhabited

/-- A metrics record (R181) without its reference; `num` names the response among all ever estimated. -/
structure MeaRec where
  num : Nat
  conf : Nat
  arrival : Nat
  levels : List Int
  drift : Bool := false
  dead : Bool := false
  pilot : Bool := false
  low : Bool := false
  sos : Nat := 0
  epoch : Nat := 0
  tick : Nat := 0
deriving DecidableEq, Repr, Inhabited

/-- An export under way (R191): the fetched packet, host address, and the pairs asked for. -/
structure Export where
  num : Nat
  addr : Nat
  len : Nat
  pairs : List Nat
deriving DecidableEq, Repr, Inhabited

/-- A pilot's amplitude (R186): from, to and the first block of its ramp; sums of squares of the feed, running and of the newest
100 ms. -/
structure PilotRt where
  fromA : Int := 0
  toA : Int := 0
  start : Nat := 0
  sum : Nat := 0
  segs : List Nat := []
deriving DecidableEq, Repr, Inhabited

structure MeaSt where
  mics : Tab MicRt := []
  /-- decimated samples of the newest blocks: block, and samples and validity by microphone -/
  out : List (Nat × Tab (List Int × Bool)) := []
  /-- largest coarse floats since the last freeze, by source; newest block they cover -/
  peaks : Tab Nat := []
  peakTo : Nat := 0
  fine : Tab FineRt := []
  ffTick : Nat := 0
  loud : Tab LoudRt := []
  loudReset : Nat := 0
  /-- schedules, newest first; the newest may be none (no identification) -/
  runs : List (Nat × Option IdentRun) := []
  pend : List IdentPend := []
  records : Tab MeaRec := []
  /-- published subset: its number, outputs and microphones; tick, epoch and c_eff of the publication -/
  pub : Option (IdentPend × Nat × Nat × Nat) := none
  exports : List Export := []
  pilots : Tab PilotRt := []
  /-- epoch of the block that holds the first sample of the pilot frame under way, by frame number -/
  frameEpoch : Nat × Nat := (0, 0)
  /-- outputs whose pilot was decoded in the dwell under way -/
  pilotSeen : List Nat := []
deriving DecidableEq, Repr, Inhabited

end Sys2Proof.Machine
end

