-- ==== Sys2Proof/Machine/StateMir.lean ====
section
/-! DEFINITION. State of the Nyith links, of the gang and of the mirrored pair (chapter 14). -/

namespace Sys2Proof.Machine

/-- What a leader knows of a member (R451, R477): 0 unknown, 1 FORMING, 2 FORMED, 3 DESYNC, 4 LOST; its device ID and the words
of its last status message. -/
structure MemberSt where
  phase : Nat := 0
  devId : Nat := 0
  words : List Word := []
  /-- it asked for the replay; boundary from which it commits in step (R466) -/
  asked : Bool := false
  join : Option Nat := none
deriving DecidableEq, Repr, Inhabited

/-- An answer to discovery (R447, R453): device ID, part, firmware version, free; pair state and descriptor of the answering unit. -/
structure Answer where
  devId : Nat := 0
  part : Nat := 0
  fw : Nat := 0
  free : Bool := true
  mir : Nat := 0
  pref : Bool := false
  partner : Nat := 0
deriving DecidableEq, Repr, Inhabited

structure NylSt where
  /-- next sequence number to send and to receive, by link × 8 + class (R440, R442) -/
  tx : Tab Nat := []
  rx : Tab Nat := []
  /-- messages sent on the classes that are resent, oldest first -/
  sent : Tab (List LinkMsg) := []
  /-- discovery answers by member, and whether discovery came round the ring (R447) -/
  answers : Tab Answer := []
  ringSeen : Bool := false
  members : Tab MemberSt := []
  /-- this module's link toward the top leader -/
  up : Option Nat := none
  /-- offset samples of the last 16 PHASE exchanges, newest first (R444) -/
  offs : List Int := []
deriving DecidableEq, Repr, Inhabited

structure MirRt where
  /-- own digests not yet compared: tick, cycle sent, fields; the partner's that came early (R458) -/
  own : List (Nat × Nat × List Nat) := []
  theirs : List (Nat × List Nat) := []
  /-- consecutive digests missing, boundary from which every pair link is DOWN, losses declared (R462) -/
  missing : Nat := 0
  downFrom : Option Nat := none
  losses : Nat := 0
  /-- cycles at which the unit went silent (R469) -/
  silents : List Nat := []
  /-- the partner's MIR_STATE, and its answer to discovery (R453) -/
  partner : Nat := 0
  answer : Option Answer := none
  /-- AUTO_RETURN and hold-off of OP_MIR_ROLE, when they overwrite those of the descriptor (R464) -/
  auto : Option (Bool × Nat) := none
  /-- replay: the checkpoint has come; the survivor's committed epoch; boundary J (R466) -/
  based : Bool := false
  target : Option Nat := none
  joinAt : Option Nat := none
  /-- copies announced and received (R467) -/
  copies : Option Nat := none
  got : Nat := 0
  /-- firmware of the partner; it asked for the replay; boundary from which it commits in step (R466, R508) -/
  partnerFw : Nat := 0
  asked : Bool := false
  join : Option Nat := none
  /-- coefficients that came during the replay, by output (R466) -/
  loads : List (Nat × CorLoad) := []
  /-- tick at which VERIFY began, and whether the stall was raised (R468) -/
  verifyFrom : Nat := 0
  stalled : Bool := false
deriving DecidableEq, Repr, Inhabited

end Sys2Proof.Machine
end

