-- ==== Sys2Proof/Machine/StateStr.lean ====
section
/-! DEFINITION. State of the network ports and streams (chapter 11) and of the serial ports and embedded metadata (13). -/

namespace Sys2Proof.Machine

/-! ### Network ports -/

/-- One port: transmit queues and firmware receive queue by class, pauses, PFC sending and resolved addresses. -/
structure NetPort where
  /-- frames waiting by class, oldest first, without FCS (R341) -/
  queues : Tab (List (List Byte)) := []
  /-- cycle at which the pause of a class ends (R342) -/
  paused : Tab Nat := []
  /-- octets in the firmware receive queue by class, and the cycle of the next PFC repeat (R344) -/
  rxq : Tab Nat := []
  pfc : Tab Nat := []
  /-- MAC addresses resolved by ARP, octet 0 in the low bits (R360) -/
  arp : Tab Nat := []
  /-- configuration last seen, for the restarts of R337: EN and SPEED -/
  cfg : Nat := 0
deriving DecidableEq, Repr, Inhabited

/-! ### Streams -/

/-- A packet of a receive stream (R355): RTP sequence number, extended timestamp, samples by time and channel, copies seen,
payload; a late packet is remembered without samples. -/
structure RxPkt where
  seq : Nat
  t : Int
  s : Nat
  red : Bool
  blue : Bool
  samples : List (List Int)
  pay : List Byte
  late : Bool := false
  /-- the partner's payload replaced or filled this one (R357) -/
  partner : Bool := false
deriving DecidableEq, Repr, Inhabited

/-- Search for ST 337 bursts on one ingress channel (R425, R426). -/
structure BurstSt where
  /-- what the next sample is: 0 anything, 1 Pb, 2 Pc, 3 Pd, 4 payload -/
  want : Nat := 0
  /-- a Pa was released as zero and the next sample decides -/
  doubt : Bool := false
  muted : Bool := false
  /-- weight of the ramp after muting, of 32 -/
  w : Nat := 32
  /-- word size of the mode, sample time of Pa, data_type, payload bits, payload samples to come -/
  size : Nat := 0
  pa : Nat := 0
  dtype : Nat := 0
  len : Nat := 0
  left : Nat := 0
  /-- last sample of the last burst -/
  last : Nat := 0
deriving DecidableEq, Repr, Inhabited

/-- One receive stream of a slot: the live one, or a deleted one that fades (R359). -/
structure RxRt where
  /-- descriptors by the boundary from which their legs apply, newest first -/
  descs : List (Nat × List Word) := []
  /-- effective block of creation and of delete -/
  start : Nat := 0
  stop : Option Nat := none
  w : List Nat := []
  hold : List Int := []
  bursts : List BurstSt := []
  pkts : List RxPkt := []
  /-- sequence numbers whose cut-off has passed, newest first -/
  decided : List Nat := []
  ssrc : Option Nat := none
  /-- buffer: first KiB of the cistern and number of KiB; none while it is not placed (R368) -/
  buf : Option (Nat × Nat) := none
  /-- margins of the running window: least, sum, count; legs seen in it and in the last one (R358, R376) -/
  mMin : Int := 0
  mSum : Int := 0
  mCnt : Nat := 0
  seen : Bool × Bool := (false, false)
  seenLast : Bool × Bool := (false, false)
  /-- the partner's reports by sequence number: present, CRC (R357) -/
  reports : Tab (Bool × Nat) := []
  /-- sequence numbers whose exchange is still open -/
  waits : List Nat := []
deriving DecidableEq, Repr, Inhabited

/-- One transmit stream (R365, R366): descriptors and masks by the sample time they apply from, newest first. -/
structure TxRt where
  descs : List (Nat × List Word) := []
  masks : List (Nat × Nat) := []
  start : Nat := 0
  stop : Option Nat := none
  /-- weight of each channel, of 32 -/
  w : List Nat := []
  /-- stored samples that wait for their packet: sample time and a row of channels, oldest first -/
  rows : List (Nat × List Int) := []
  /-- stored samples of the newest egress block -/
  newest : List (List Int) := []
deriving DecidableEq, Repr, Inhabited

structure StrSt where
  ports : Tab NetPort := []
  /-- streams of each slot, newest first -/
  rx : Tab (List RxRt) := []
  tx : Tab (List TxRt) := []
  /-- sample time of the next release -/
  relT : Nat := 0
  /-- boundary of the last margin window published -/
  winTick : Nat := 0
deriving DecidableEq, Repr, Inhabited

/-! ### Serial ports -/

/-- A slot of DOUT: the output it carries and its weight of 32 (R424). -/
structure SapSlot where
  out : Option Nat := none
  w : Nat := 0
deriving DecidableEq, Repr, Inhabited

structure SapRt where
  /-- 0 OFF, 1 MEASURE, 2 LOCKED, 3 LOST, 4 RATE -/
  st : Nat := 0
  /-- SAP_CFG in force, and the code of the rate in force -/
  cfg : Word := 0
  rate : Nat := 0
  /-- ingress weight in samples of a 1 ms ramp -/
  w : Nat := 0
  /-- cycle of the last accepted edge, and the last 64 accepted intervals in cycles, newest first -/
  last : Option Nat := none
  ivals : List Nat := []
  /-- rate windows: start, accepted edges inside, rate of the first in mHz, windows that agree, windows that differ -/
  winStart : Nat := 0
  winEdges : List Nat := []
  first : Option Nat := none
  agree : Nat := 0
  differ : Nat := 0
  /-- accepted frames -/
  frames : Nat := 0
  /-- frames held, newest first: start in 1/256 sample, left, right -/
  buf : List (Nat × Int × Int) := []
  /-- SAP_TS_EDGE still waits for the first accepted edge after the boundary (R423) -/
  edgeDue : Bool := false
  /-- samples of PREFERRED's port by sample time, and the concealment that stands in for missing ones (R422, R457) -/
  fill : Tab (Int × Int) := []
  fw : Nat := 0
  hold : Int × Int := (0, 0)
  bursts : List BurstSt := [{}, {}]
  slots : List SapSlot := [{}, {}]
deriving DecidableEq, Repr, Inhabited

/-- A received S-ADM frame (R427): render sample time of its Pa sample, payload bits, tick in which the core gets it. -/
structure AdmRx where
  pa : Nat
  bits : Nat
  tick : Nat
deriving DecidableEq, Repr, Inhabited

structure SapSt where
  ports : Tab SapRt := []
  adm : List AdmRx := []
deriving DecidableEq, Repr, Inhabited

end Sys2Proof.Machine
end

