-- ==== Sys2Proof/Machine/StateTim.lean ====
section
/-! DEFINITION. State of the time unit (chapter 12). -/

namespace Sys2Proof.Machine

/-- A trigger of an output pin (R402, R403). Times are in the descriptor's KIND, except `next` in quarter nanoseconds. -/
structure Trig where
  mode : Nat := 0
  samples : Bool := false
  pol : Bool := false
  t : Nat := 0
  qns : Nat := 0
  width : Nat := 0
  period : Nat := 0
  count : Nat := 0
  lateMax : Nat := 0
  /-- number of the next firing -/
  k : Nat := 0
  /-- cycle at which it was armed (R404) -/
  armed : Nat := 0
  /-- a late firing waits for the next boundary -/
  late : Bool := false
  /-- a pulse is in progress until this time -/
  pulseEnd : Option Nat := none
  high : Bool := false
deriving DecidableEq, Repr, Inhabited

/-- A captured edge (R405): T in quarter nanoseconds, falling. -/
structure CapEdge where
  t4 : Nat
  falling : Bool
deriving DecidableEq, Repr, Inhabited

structure TimSt where
  /-- T × 1280 = clk × 1024 + base, in 1/1280 ns (R378, R380, R384) -/
  base : Int := 0
  /-- boundary at which a committed change enters ACQUIRE, or FREE (R383, R384) -/
  acquireAt : Option Nat := none
  /-- consecutive samples: within 1 µs since the last step, within 100 ns, beyond 100 ns, good in HOLDOVER -/
  n1us : Nat := 0
  nIn : Nat := 0
  nOut : Nat := 0
  good : Nat := 0
  goodSince : Option Nat := none
  /-- state to return to when a run of outliers is discarded (R392) -/
  prev : Option Nat := none
  lastOff : Option Int := none
  /-- accepted path samples, newest first, at most 16 -/
  path : List Int := []
  /-- runs of path and offset outliers, newest first -/
  outP : List Int := []
  outO : List Int := []
  /-- path samples since a declared step -/
  newP : List Int := []
  /-- t2 − t1 of the newest Sync, ns Q24.8 -/
  syncD : Option Int := none
  /-- two-step Sync waiting for its Follow_Up: port, sequence, source, t2 × 256 with corrections -/
  follow : Option (Nat × Nat × Nat × Int) := none
  /-- Delay_Req waiting for its Delay_Resp: port, sequence, t3 × 256 -/
  dreq : Option (Nat × Nat × Int) := none
  seqOut : Nat := 0
  /-- best Announce of each port, with the cycle its timeout expires (R386, R391) -/
  masters : Tab (PtpMsg × Nat) := []
  syncDue : Option Nat := none
  /-- ports that are PASSIVE as grandmaster (R386) -/
  passive : List Nat := []
  /-- the tick starts at the next boundary (R384) -/
  restart : Bool := false
  /-- TIM_INCR while LOCKED, by cycle, newest first, over 60 s (R398) -/
  incrs : List (Nat × Nat) := []
  everLocked : Bool := false
  /-- cycle of the last HOLD_STORE, or of the entry to LOCKED -/
  holdAt : Nat := 0
  /-- consecutive bad seconds, and the second of the last edge or window (R396, R397) -/
  ppsBad : Nat := 0
  ppsSec : Option Nat := none
  /-- last WCLK_IN edge in quarter nanoseconds -/
  wclkLast : Option Nat := none
  trigs : Tab Trig := []
  caps : Tab (List CapEdge) := []
  /-- pins that are capture inputs, with their EDGE field -/
  inputs : Tab Nat := []
  /-- last raw edge of each capture pin, for the 4 ns rule -/
  lastEdge : Tab Nat := []
deriving DecidableEq, Repr, Inhabited

end Sys2Proof.Machine
end

