-- ==== Sys2Proof/Machine/State.lean ====
section
/-! DEFINITION. The state of the machine, its faults and refusals, and its reset. -/

namespace Sys2Proof.Machine

/-- No command of this block stops it with a fault: what the spec calls an error is a status, an event or a response. -/
inductive Fault where
deriving DecidableEq, Repr

/-- Why a command has no meaning. -/
inductive Refusal where
  /-- Raised by an arm of `exec` whose command is not modelled; safe. -/
  | notModelled (mnemonic : String)
deriving DecidableEq, Repr

/-- The state of the RYV1024. -/
structure State where
  /-- commands waiting, first in first out -/
  pending : List Instr := []
  /-- core cycles since reset -/
  clk : Nat := 0
  /-- number of the current tick, and the cycle of its boundary (R18) -/
  tick : Nat := 0
  tickClk : Nat := 0
  /-- what left the device, newest first -/
  outbox : List Out := []
  /-- how many free values were drawn (the model's own) -/
  freeCtr : Nat := 0
  /-- registers written since reset, by address; the others hold their reset values -/
  regs : Tab Word := []
  /-- companions latched by a read, by requester × 2^24 + address (R517) -/
  latch : Tab Word := []
  modId : ModuleId := {}
  pins : Pins := {}
  /-- newest committed state, and the states that govern blocks in flight: first block and state, newest first (R20) -/
  cm : Committed := {}
  hist : List (Nat × Committed) := []
  irq : IrqSt := {}
  cmd : CmdSt := {}
  jnl : JnlSt := {}
  snp : SnpSt := {}
  pwr : PwrSt := {}
  svc : SvcSt := {}
  ecs : Tab EcCore := []
  ecIo : EcIo := {}
  tim : TimSt := {}
  geo : GeoSt := {}
  smp : SmpSt := {}
  cors : Tab CorRt := []
  cis : CisSt := {}
  str : StrSt := {}
  sap : SapSt := {}
  nyl : NylSt := {}
  mir : MirRt := {}
  mea : MeaSt := {}
deriving DecidableEq, Repr

/-- The machine right after reset. -/
def State.reset : State := {}

end Sys2Proof.Machine
end

