-- ==== Sys2Proof/Machine/Ops.lean ====
section
/-! DEFINITION. The operations every chapter shares: time, registers, counters, events and interrupt edges, output, free
values and the committed state of a block. -/

namespace Sys2Proof.Machine

/-! ### Time (R18) -/

/-- PTP time T in 1/1280 ns (R378, R380): one core cycle is 0.8 ns of PTP time. -/
def State.t1280 (s : State) : Nat := (s.clk * 1024 + s.tim.base).toNat

/-- T in nanoseconds. -/
def State.tNs (s : State) : Nat := s.t1280 / 1280

/-- Fast stamp (R381). -/
def State.stamp (s : State) : Word := wd s.tNs

/-- The core cycle that contains a PTP time given in 1/1280 ns. -/
def State.clkOf (s : State) (t : Nat) : Nat := ((t : Int) - s.tim.base).toNat / 1024

/-- The cycle of boundary `n` (R18, R380): T = n × 2,000,000 / 3 ns. -/
def State.boundaryClk (s : State) (n : Nat) : Nat := s.clkOf (n * 2560000000 / 3)

/-- Tick number at the present time (R380). -/
def State.tickNow (s : State) : Nat := s.t1280 * 3 / 2560000000

/-- Move the cycle count forward to the cycle at which an event is due. -/
def State.atClk (s : State) (c : Nat) : State := { s with clk := max s.clk c }

/-- Cycle at which the tick in progress ends. -/
def State.tickEnd (s : State) : Nat := s.boundaryClk (s.tick + 1)

/-! ### Registers (R13, R14) -/

/-- Stored value of a register. -/
def State.reg (s : State) (a : Nat) : Word := tabGetD s.regs a (resetVal a)

/-- Store a register. -/
def State.setReg (s : State) (a : Nat) (v : Word) : State := { s with regs := tabSet s.regs a v }

def State.regNat (s : State) (a : Nat) : Nat := (s.reg a).toNat

def State.setNat (s : State) (a v : Nat) : State := s.setReg a (wd v)

/-- Count `k` in a 32-bit saturating counter. -/
def State.inc (s : State) (a : Nat) (k : Nat := 1) : State := s.setReg a (satInc (s.reg a) k)

def State.bit (s : State) (a i : Nat) : Bool := (s.reg a).toNat.testBit i

def State.setBit (s : State) (a i : Nat) (v : Bool) : State :=
  s.setReg a (if v then setBitW (s.reg a) i else clrBitW (s.reg a) i)

def State.field (s : State) (a hi lo : Nat) : Nat := fld (s.reg a) hi lo

def State.setField (s : State) (a hi lo v : Nat) : State := s.setReg a (setFld (s.reg a) hi lo v)

/-- A 64-bit value in two registers, low word first. -/
def State.setNat64 (s : State) (a v : Nat) : State := (s.setNat a v).setNat (a + 4) (v / 2 ^ 32)

/-- Clear a list of registers to zero. -/
def State.clear (s : State) (l : List Nat) : State := l.foldl (fun s a => s.setReg a 0) s

/-- RWE register in a committed state (R14). -/
def Committed.reg (cm : Committed) (a : Nat) : Word := tabGetD cm.rwe a (resetVal a)

def Committed.regNat (cm : Committed) (a : Nat) : Nat := (cm.reg a).toNat

def Committed.setReg (cm : Committed) (a : Nat) (v : Word) : Committed :=
  { cm with rwe := if v = resetVal a then tabDel cm.rwe a else tabSet cm.rwe a v }

/-- The committed state that governs a block (R20). -/
def State.cmAt (s : State) (block : Nat) : Committed :=
  match s.hist.find? (fun e => decide (e.1 ≤ block)) with
  | some e => e.2
  | none => if s.hist.isEmpty then s.cm else {}

/-! ### Output and free values -/

def State.emit (s : State) (o : Out) : State := { s with outbox := o :: s.outbox }

/-- The number that makes the next free value a fresh one. -/
def State.draw (s : State) : Nat × State := (s.freeCtr, { s with freeCtr := s.freeCtr + 1 })

/-! ### Module (R2, R525) -/

def State.rate96 (s : State) : Bool := s.bit R.glbRate 0

/-- Samples in a block: 32 at 48 kHz, 64 at 96 kHz (R18). -/
def State.blockLen (s : State) : Nat := if s.rate96 then 64 else 32

def State.fs (s : State) : Nat := if s.rate96 then 96000 else 48000

def State.outputs (s : State) : Nat := if s.modId.variant = 2 then 512 else 1024

def State.objects (s : State) : Nat := if s.modId.variant = 2 then 2048 else 4096

/-- TICK_RUN (R384). -/
def State.tickRuns (s : State) : Bool := s.bit R.timState 10

/-- An event due at cycle `c` can come in this tick; while the tick is stopped, at any time. -/
def State.dueOk (s : State) (c : Nat) : Bool := !s.tickRuns || decide (c < s.tickEnd) || decide (c ≤ s.clk)

/-- Cycles of a time in milliseconds and microseconds (0.8 ns cycles). -/
def msClk (ms : Nat) : Nat := ms * 1250000

def usClk (us : Nat) : Nat := us * 1250

/-! ### Interrupt edges and events (R313 to R315) -/

def irqCfg (src : Nat) : Nat := R.irqSrcCfg + 4 * src

def State.isPend (s : State) (src : Nat) : Bool := s.bit (R.irqPend + src / 32 * 4) (src % 32)

def State.setPend (s : State) (src : Nat) (v : Bool) : State := s.setBit (R.irqPend + src / 32 * 4) (src % 32) v

def State.srcEn (s : State) (src : Nat) : Bool := s.bit (irqCfg src) 31

/-- A rising edge of a source: latched if the source is enabled (R314). -/
def State.edge (s : State) (src : Nat) : State := if s.srcEn src then s.setPend src true else s

/-- Interrupt source of an event bit (R313): the status register's base plus the bit. -/
def evtSource (stat b : Nat) : Option Nat :=
  if stat / 0x10000 = 10 then
    let c := stat / 0x1000 % 16
    some (if b = 0 then 128 + c else 144 + c)
  else if stat = R.cmdEvtStatus then some (32 + b)
  else if stat = R.irqEvtStatus then some (40 + b)
  else if stat = R.geoEvtStatus then some (64 + b)
  else if stat = R.pmpEvtStatus then some (72 + b)
  else if stat = R.smpEvtStatus then some (76 + b)
  else if stat = R.corEvtStatus then some (80 + b)
  else if stat = R.meaEvtStatus then some (88 + b)
  else if stat = R.cisEvtStatus then some (96 + b)
  else if stat = R.busEvtStatus then some (104 + b)
  else if stat = R.netEvtStatus then some (160 + b)
  else if stat = R.strEvtStatus then some (192 + b)
  else if stat = R.timEvtStatus then some (224 + b)
  else if stat = R.sapEvtStatus then some (256 + b)
  else if stat = R.nylEvtStatus then some (288 + b)
  else if stat = R.mirEvtStatus then some (304 + b)
  else if stat = R.pwrEvtStatus then some (320 + b)
  else if stat = R.svcEvtStatus then some (336 + b)
  else none

/-- Snapshot fault bit of an event bit (R129). -/
def snapFault (stat b : Nat) : Option Nat :=
  if stat = R.smpEvtStatus then (if b = 0 then some 0 else some 1)
  else if stat = R.pmpEvtStatus then (if b = 0 then some 2 else if b = 2 then some 4 else none)
  else if stat = R.geoEvtStatus then (if b = 0 then some 3 else none)
  else if stat / 0x10000 = 10 then (if b = 0 then some 5 else none)
  else if stat = R.timEvtStatus then (if b = 0 then some 6 else none)
  else if stat = R.mirEvtStatus then (if b = 0 then some 7 else none)
  else if stat = R.cisEvtStatus then (if b = 0 then some 8 else none)
  else if stat = R.irqEvtStatus then (if b = 0 then some 9 else none)
  else if stat = R.pwrEvtStatus then (if b = 0 then some 10 else none)
  else none

/-- A fault trigger of R125: noted for the next boundary when SNP_CAUSE enables it and SNP_CTRL.EN is 1. -/
def State.snapTrig (s : State) (f : Nat) : State :=
  if s.bit R.snpCause f && s.bit R.snpCtrl 0 then
    { s with snp := { s.snp with faults := s.snp.faults ||| 2 ^ f } }
  else s

/-- Set event status bit `b` of the register at `stat`. The 0 to 1 change raises the event when the enable register, the
next word, has the bit (R314), and triggers a snapshot whether or not it does (R125). -/
def State.evt (s : State) (stat b : Nat) : State :=
  if s.bit stat b then s
  else
    let s' := s.setBit stat b true
    let s' := match snapFault stat b with
      | some f => s'.snapTrig f
      | none => s'
    match evtSource stat b with
    | some src => if s'.bit (stat + 4) b then s'.edge src else s'
    | none => s'

/-- Register of effect core `c` (R236). -/
def ecReg (c off : Nat) : Nat := 0xA0000 + 0x1000 * c + off

end Sys2Proof.Machine
end

