-- ==== Sys2Proof/Machine/Irq.lean ====
section
/-! DEFINITION. Interrupt controller (chapter 10), and `settle`: what the controller and the management pins do by themselves
after every command. -/

namespace Sys2Proof.Machine

/-! ### Fields -/

def irqTarget (s : State) (src : Nat) : Nat := s.field (irqCfg src) 20 16
def irqPrio (s : State) (src : Nat) : Nat := s.field (irqCfg src) 11 8
def irqVec (s : State) (src : Nat) : Nat := s.field (irqCfg src) 4 0
def irqWake (s : State) (src : Nat) : Bool := s.bit (irqCfg src) 30

/-- Locked entries (R316): source 40 and group 15. -/
def irqLocked (src : Nat) : Bool := src == 40 || decide (480 ≤ src)

def State.linkUp (s : State) : Bool := s.bit R.irqStatus 0
def State.fallbackAct (s : State) : Bool := s.bit R.irqStatus 1

/-- Target of a source, with the redirection of R329. -/
def irqRoute (s : State) (src : Nat) : Nat :=
  if irqTarget s src = 0 ∧ s.fallbackAct then 1 else irqTarget s src

/-- Pending sources, ascending. -/
def pendList (s : State) : List Nat :=
  (List.range 16).flatMap fun g =>
    let w := s.reg (R.irqPend + 4 * g)
    if w = 0 then [] else (List.range 32).filterMap fun b => if w.toNat.testBit b then some (32 * g + b) else none

def irqStack (s : State) (t : Nat) : List (Nat × Nat) := tabGetD s.irq.inServ t []

def State.setStack (s : State) (t : Nat) (l : List (Nat × Nat)) : State :=
  { s with irq := { s.irq with inServ := if l.isEmpty then tabDel s.irq.inServ t else tabSet s.irq.inServ t l } }

/-! ### Delivery (R320, R321) -/

/-- The effect core behind a target code, in a state in which it takes an interrupt with the wake bit given (R321). -/
def ecTakes (s : State) (c : Nat) (wake : Bool) : Bool :=
  match tabGet s.ecs c with
  | none => false
  | some e =>
    (e.mode == .running || (e.mode == .halted && wake)) && (irqStack s (c + 5)).isEmpty
      && decide (e.quota < s.field (ecReg c 0x18) 15 0)

/-- R320: the source can be delivered to target `t`. -/
def deliverable (s : State) (t src : Nat) : Bool :=
  s.isPend src && s.srcEn src && s.irq.rel.contains src && irqRoute s src == t &&
  (if src = 40 ∧ t = 0 then true
   else
    (match irqStack s t with
     | [] => true
     | (_, p) :: _ => decide (p < irqPrio s src)) &&
    (match tabGet s.irq.frozen t with
     | none => true
     | some (fp, _) => decide (fp < irqPrio s src)) &&
    (if t < 5 then true else ecTakes s (t - 5) (irqWake s src)))

/-- Of two sources the one of higher priority; the lower number of equals. -/
def irqBest (s : State) (l : List Nat) : Option Nat :=
  l.foldl (fun b x => match b with
    | none => some x
    | some y => if irqPrio s y < irqPrio s x ∨ (irqPrio s y = irqPrio s x ∧ x < y) then some x else some y) none

/-- The target's candidate among sources satisfying `f`; source 40 is never claimed by the host (R327). -/
def irqCandidate (s : State) (t : Nat) (f : Nat → Bool) : Option Nat :=
  irqBest s ((pendList s).filter fun x => deliverable s t x && f x && !(x == 40 && t == 0))

/-- Claim a source for a target (R323). -/
def claimSrc (s : State) (t src : Nat) : State :=
  let s := s.setPend src false
  let s := { s with irq := { s.irq with rel := s.irq.rel.filter (· != src) } }
  s.setStack t ((src, irqPrio s src) :: irqStack s t)

/-- A claiming read (R323): the value it returns. -/
def claimRead (s : State) (t : Nat) (f : Nat → Bool) : State × Word :=
  match irqCandidate s t f with
  | some src => (claimSrc s t src, wd (irqPrio s src * 65536 + src))
  | none => (s.inc R.irqCntEmpty, 0x3FF)

/-! ### Release and hold-off (R318) -/

/-- Release the pending sources of a group whose hold-off does not run, and start it again. -/
def releaseGroup (s : State) (g : Nat) : State :=
  if (tabGet s.irq.hold g).isSome then s
  else
    let w := s.reg (R.irqPend + 4 * g)
    if w = 0 then s
    else
      let fresh := (List.range 32).filterMap fun b =>
        if w.toNat.testBit b && !s.irq.rel.contains (32 * g + b) then some (32 * g + b) else none
      if fresh.isEmpty then s
      else
        let h := s.field (R.irqGrpHold + 4 * g) 15 0
        let ticks := s.bit (R.irqGrpHold + 4 * g) 16
        let hold :=
          if h = 0 then s.irq.hold
          else if ticks then (if s.tickRuns then tabSet s.irq.hold g (.tick (s.tick + h)) else s.irq.hold)
          else tabSet s.irq.hold g (.clk (s.clk + usClk h))
        { s with irq := { s.irq with
          rel := sortBy id (s.irq.rel ++ fresh)
          hold := hold } }

def releaseAll (s : State) : State := (List.range 16).foldl releaseGroup s

/-- A released source whose pending bit is gone is released no longer (R318). -/
def dropReleased (s : State) : State :=
  { s with irq := { s.irq with rel := s.irq.rel.filter (s.isPend ·) } }

/-- Hold-offs counted in ticks end in the cycle in which the tick stops (R318). -/
def dropTickHolds (s : State) : State :=
  { s with irq := { s.irq with hold := s.irq.hold.filter fun e =>
      match e.2 with
      | .tick _ => false
      | .clk _ => true } }

/-! ### Host delivery (R322, R329) -/

/-- In fallback, CC0 claims, logs and completes a redirected source (R329). -/
def fallbackOne (s : State) : State :=
  match irqCandidate s 1 (fun x => irqTarget s x == 0) with
  | none => s
  | some src =>
    let s := s.setPend src false
    let s := { s with irq := { s.irq with rel := s.irq.rel.filter (· != src) } }
    let p := s.field R.irqFbPos 5 0
    let s := (s.setNat (R.irqFbLog + 8 * p) src).setReg (R.irqFbLog + 8 * p + 4) s.stamp
    (s.setNat R.irqFbPos ((p + 1) % 64)).inc R.irqCntFb

def fallbackAll (s : State) : State :=
  if s.fallbackAct then (List.range 512).foldl (fun s _ => fallbackOne s) s else s

/-- Vector `v` owes a message: its pending bit in the MSI-X structure (R522). -/
def msixOwe (s : State) (v : Nat) : State := s.setBit (R.glbMsixPba + v / 32 * 4) (v % 32) true

/-- Send the messages that are owed and not masked, while the link is up in L0 and the function in D0. -/
def msixSend (s : State) : State :=
  if s.linkUp && s.irq.d0 && s.irq.l0 then
    (List.range 32).foldl (fun s v =>
      if s.bit R.glbMsixPba v && !s.bit (R.glbMsixTable + 16 * v + 12) 0 then
        let addr := s.regNat (R.glbMsixTable + 16 * v) + 2 ^ 32 * s.regNat (R.glbMsixTable + 16 * v + 4)
        (s.setBit R.glbMsixPba v false).emit (.msix addr (s.regNat (R.glbMsixTable + 16 * v + 8)))
      else s) s
  else s

/-- Host sources deliverable at present. -/
def hostDeliv (s : State) : List Nat := (pendList s).filter (deliverable s 0)

/-- MODE of IRQ_HOST_CFG: INT_N instead of messages. -/
def hostIntN (s : State) : Bool := s.bit R.irqHostCfg 0

/-- Messages for sources that became deliverable (R322). -/
def hostMessages (s : State) : State :=
  let d := hostDeliv s
  let fresh := d.filter fun x => !s.irq.deliv.contains x
  let s := if hostIntN s then s else fresh.foldl (fun s x => msixOwe s (irqVec s x)) s
  msixSend { s with irq := { s.irq with deliv := d } }

/-! ### Pins -/

/-- FAULT_N (R494): low until READY, in the failed boot stages, in standby, and while an enabled condition is present. -/
def faultCond (s : State) : Bool :=
  let m := s.regNat R.pwrFaultMask
  let st := s.reg R.pwrStatus
  s.pwr.reset != .running || fld st 23 20 != 5 ||
  (m.testBit 0 && bit st 3) || (m.testBit 1 && bit st 7) ||
  (m.testBit 2 && (List.range 4).any (fun i => s.reg (R.pwrDrvOff + 4 * i) != 0)) ||
  (m.testBit 3 && (s.reg R.pwrMicStuck != 0 || s.reg R.pwrMicOpen != 0)) ||
  (m.testBit 4 && bit st 6)

/-- PWR_WARN_N (R486, R494): low during a warning, and in reset while HOLD is at least 12 V. -/
def warnCond (s : State) : Bool :=
  (s.pwr.reset == .running && s.bit R.pwrStatus 3) || (s.pwr.reset == .held && s.pwr.retained)

/-- The pins that follow from the rest of the state (R322, R494). -/
def pinsOf (s : State) : Pins :=
  { intN := !(s.pwr.reset == .running && hostIntN s && !(hostDeliv s).isEmpty)
    wakeN := !(s.pwr.reset == .running && !(s.irq.d0 && s.irq.l0) && (hostDeliv s).any (irqWake s))
    faultN := !faultCond s
    pwrWarnN := !warnCond s
    pg := s.pwr.reset == .running }

/-- The controller's work before the pins are read off. -/
def settleIrq (s : State) : State := hostMessages (fallbackAll (releaseAll (dropReleased s)))

/-- What follows every command at once: releases, messages, fallback, and the pins. -/
def settle (s : State) : State :=
  let s := settleIrq s
  { s with pins := pinsOf s }

/-! ### Message path (R315) -/

/-- A doorbell that sets a source pending as an edge does. -/
def ringSource (s : State) (src : Nat) : State :=
  if s.isPend src then s.inc R.irqCntDbMerge else s.edge src

/-- IRQ_DOORBELL from host software or an effect core: group 15 is refused. -/
def ringDoorbell (s : State) (val : Nat) : State :=
  let src := val % 512
  if 480 ≤ src then (s.inc R.irqCntMsgErr).evt R.irqEvtStatus 2 else ringSource s src

/-! ### Completion (R324 to R327) -/

/-- Freeze the stack of a target and record the fault (R325, R326). -/
def orderFault (s : State) (t src : Nat) : State :=
  let st := irqStack s t
  let pri := match st with
    | [] => 0
    | (_, p) :: _ => p
  let s := { s with irq := { s.irq with frozen := tabSet s.irq.frozen t (pri, st.length) } }
  let s := s.setNat (R.irqFaultInfo + 0x20 * t) (0x80000000 + st.length * 65536 + src)
  s.evt R.irqEvtStatus 0

/-- A write of a source number to IRQ_COMPLETE of a target. -/
def completeSrc (s : State) (t src : Nat) : State :=
  if src = 1023 then s
  else
    let st := irqStack s t
    let low := match tabGet s.irq.frozen t with
      | none => 0
      | some (_, d) => d
    match st with
    | (x, _) :: rest =>
      if low < st.length ∧ x = src then s.setStack t rest
      else if (st.drop (st.length - low)).any (fun e => e.1 == src) then s
      else orderFault s t src
    | [] => orderFault s t src

/-- Source 40 stops pending when no stack is frozen any more (R327). -/
def unfreeze (s : State) (t : Nat) : State :=
  let s := { s with irq := { s.irq with frozen := tabDel s.irq.frozen t } }
  if s.irq.frozen.isEmpty then s.setPend 40 false else s

/-! ### Commands -/

def doIrqDoorbell (val : Word) (s : State) : State := ringDoorbell s val.toNat

/-- IRQ_DOORBELL write (R315). -/
def execIrqDoorbell (val : Word) (s : State) : Host.Outcome State Fault Refusal := .next (settle (doIrqDoorbell val s))

/-- A read of a target's IRQ_CLAIM by the host (R323). An offset beyond the targets reads zero (R516). -/
def doIrqClaim (target : Nat) (s : State) : State :=
  if target ≤ 20 then
    let r := claimRead s target (fun _ => true)
    r.1.emit (.read 0 (R.irqClaim + 0x20 * target) r.2)
  else s.emit (.read 0 (R.irqClaim + 0x20 * target) 0)

def execIrqClaim (target : Nat) (s : State) : Host.Outcome State Fault Refusal := .next (settle (doIrqClaim target s))

/-- A read of IRQ_HOST_VCLAIM (R323). -/
def doIrqHostVclaim (vec : Nat) (s : State) : State :=
  if vec < 32 then
    let r := claimRead s 0 (fun x => irqVec s x == vec)
    r.1.emit (.read 0 (R.irqHostVclaim + 4 * vec) r.2)
  else s.emit (.read 0 (R.irqHostVclaim + 4 * vec) 0)

def execIrqHostVclaim (vec : Nat) (s : State) : Host.Outcome State Fault Refusal := .next (settle (doIrqHostVclaim vec s))

/-- A write to IRQ_COMPLETE (R324, R325). -/
def doIrqComplete (target : Nat) (val : Word) (s : State) : State :=
  if target ≤ 20 then completeSrc s target (fld val 9 0) else s

def execIrqComplete (target : Nat) (val : Word) (s : State) : Host.Outcome State Fault Refusal :=
  .next (settle (doIrqComplete target val s))

/-- IRQ_FAULT_CLR with RESUME (R327). -/
def doIrqFaultClrResume (target : Nat) (s : State) : State :=
  if (tabGet s.irq.frozen target).isSome then unfreeze s target else s

def execIrqFaultClrResume (target : Nat) (s : State) : Host.Outcome State Fault Refusal :=
  .next (settle (doIrqFaultClrResume target s))

/-- IRQ_FAULT_CLR with DISCARD (R327). -/
def doIrqFaultClrDiscard (target : Nat) (s : State) : State :=
  if (tabGet s.irq.frozen target).isSome then unfreeze (s.setStack target []) target else s

def execIrqFaultClrDiscard (target : Nat) (s : State) : Host.Outcome State Fault Refusal :=
  .next (settle (doIrqFaultClrDiscard target s))

/-- A write to IRQ_SRC_CFG (R316). -/
def doIrqSrcCfgWrite (src : Nat) (val : Word) (s : State) : State :=
  if 512 ≤ src then s
  else if irqLocked src then (s.inc R.irqCntMsgErr).evt R.irqEvtStatus 2
  else s.setReg (irqCfg src) (val &&& 0xC01F0F1F)

def execIrqSrcCfgWrite (src : Nat) (val : Word) (s : State) : Host.Outcome State Fault Refusal :=
  .next (settle (doIrqSrcCfgWrite src val s))

/-- The end of a group's hold-off (R319): `settle` then releases what is pending and starts it again. -/
def doHoldoffEnd (group : Nat) (s : State) : State :=
  match tabGet s.irq.hold group with
  | none => s
  | some (.clk c) =>
    if s.dueOk c then { (s.atClk c) with irq := { s.irq with hold := tabDel s.irq.hold group } } else s
  | some (.tick t) =>
    if t ≤ s.tick then { s with irq := { s.irq with hold := tabDel s.irq.hold group } } else s

def execHoldoffEnd (group : Nat) (s : State) : Host.Outcome State Fault Refusal := .next (settle (doHoldoffEnd group s))

/-- The PCIe data link goes down and the timer of R329 starts. -/
def doPcieLinkDown (s : State) : State :=
  if s.linkUp then
    let s := s.setBit R.irqStatus 0 false
    { s with irq := { s.irq with downAt := some s.clk } }
  else s

def execPcieLinkDown (s : State) : Host.Outcome State Fault Refusal := .next (settle (doPcieLinkDown s))

/-- The link has stayed down for IRQ_HOST_FALLBACK_MS (R329). -/
def doHostFallback (s : State) : State :=
  match s.irq.downAt with
  | some c =>
    let due := c + msClk (s.field R.irqHostFallbackMs 15 0)
    if !s.linkUp && !s.fallbackAct && s.dueOk due then
      ((s.atClk due).setBit R.irqStatus 1 true).evt R.irqEvtStatus 1
    else s
  | none => s

def execHostFallback (s : State) : Host.Outcome State Fault Refusal := .next (settle (doHostFallback s))

/-- The link comes up: redirection ends (R329). -/
def doPcieLinkUp (s : State) : State :=
  let s := (s.setBit R.irqStatus 0 true).setBit R.irqStatus 1 false
  { s with irq := { s.irq with downAt := none } }

def execPcieLinkUp (s : State) : Host.Outcome State Fault Refusal := .next (settle (doPcieLinkUp s))

/-- The host moves the function or the link between power states (R322). -/
def doPciePowerState (d0 l0 : Bool) (s : State) : State :=
  { s with irq := { s.irq with d0 := d0, l0 := l0 } }

def execPciePowerState (d0 l0 : Bool) (s : State) : Host.Outcome State Fault Refusal :=
  .next (settle (doPciePowerState d0 l0 s))

/-! ### Views (R330, R332, R334) -/

/-- IRQ_STACK_STAT of a target. -/
def stackStat (s : State) (t : Nat) : Word :=
  let st := irqStack s t
  let top := match st with
    | [] => 1023 * 256
    | (x, p) :: _ => p * 2 ^ 20 + x * 256
  let fr := match tabGet s.irq.frozen t with
    | none => 0
    | some (p, _) => 0x80000000 + p * 2 ^ 24
  wd (fr + top + st.length)

/-- Entry `e` of a target's stack, 0 at the bottom. -/
def stackEntry (s : State) (t e : Nat) : Word :=
  match (irqStack s t).reverse[e]? with
  | some (x, p) => wd (p * 65536 + x)
  | none => 0

/-- IRQ_GRP_HOLD with RUNNING. -/
def grpHoldRead (s : State) (g : Nat) : Word :=
  let w := s.reg (R.irqGrpHold + 4 * g)
  if (tabGet s.irq.hold g).isSome then setBitW w 17 else w

end Sys2Proof.Machine
end

