-- ==== Sys2Proof/Machine/Rings.lean ====
section
/-! DEFINITION. Command rings (chapter 08): ring registers, doorbells, completions, arbitration and the network path. -/

namespace Sys2Proof.Machine

/-! ### Status codes (R256) -/

def stOk : Nat := 0x0000
def stAccepted : Nat := 0x0001
def stCommitted : Nat := 0x0002
def stBudget : Nat := 0x0010
def stLate : Nat := 0x0011
def stBadOpcode : Nat := 0x0012
def stBadParam : Nat := 0x0013
def stBadState : Nat := 0x0014
def stNoResource : Nat := 0x0015
def stTimeout : Nat := 0x0016
def stDenied : Nat := 0x0017
def stSuperseded : Nat := 0x0018
def stPartnerDisagree : Nat := 0x0019

/-! ### Ring registers (R277, R278) -/

def sqReg (n off : Nat) : Nat := R.cmdSqBaseLo + 0x20 * n + off
def cqReg (n off : Nat) : Nat := R.cmdCqBaseLo + 0x20 * n + off

/-- First register of a ring. -/
def ringReg (isCq : Bool) (n off : Nat) : Nat := if isCq then cqReg n off else sqReg n off

def ringEn (s : State) (isCq : Bool) (n : Nat) : Bool := s.bit (ringReg isCq n 8) 0

/-- Slots of a ring, N = 2^LOG2N (R240). -/
def ringSize (s : State) (isCq : Bool) (n : Nat) : Nat := 2 ^ s.field (ringReg isCq n 8) 11 8

def ringLoc (s : State) (isCq : Bool) (n : Nat) : Bool := s.bit (ringReg isCq n 8) 1

def ringBase (s : State) (isCq : Bool) (n : Nat) : Nat :=
  s.regNat (ringReg isCq n 0) + (if ringLoc s isCq n then 0 else 2 ^ 32 * s.regNat (ringReg isCq n 4))

def ringHead (s : State) (isCq : Bool) (n : Nat) : Nat := s.regNat (ringReg isCq n 0xC)
def ringTail (s : State) (isCq : Bool) (n : Nat) : Nat := s.regNat (ringReg isCq n 0x10)

/-- Slots from head to tail. -/
def ringUsed (s : State) (isCq : Bool) (n : Nat) : Nat :=
  (ringTail s isCq n + ringSize s isCq n - ringHead s isCq n) % ringSize s isCq n

def sqSt (s : State) (n : Nat) : SqSt := tabGetD s.cmd.sqs n {}
def cqSt (s : State) (n : Nat) : CqSt := tabGetD s.cmd.cqs n {}

def State.setSq (s : State) (n : Nat) (q : SqSt) : State := { s with cmd := { s.cmd with sqs := tabSet s.cmd.sqs n q } }
def State.setCq (s : State) (n : Nat) (q : CqSt) : State := { s with cmd := { s.cmd with cqs := tabSet s.cmd.cqs n q } }

/-- CQ a submission ring is bound to. -/
def boundCq (s : State) (n : Nat) : Nat := s.field (sqReg n 8) 20 16

/-- Free entries of a CQ (R249). -/
def cqFree (s : State) (n : Nat) : Nat := ringSize s true n - 1 - ringUsed s true n - (cqSt s n).resv

/-- CMD_CQ_CREDIT (R277). -/
def cqCreditRead (s : State) (n : Nat) : Word :=
  if ringEn s true n then wd (cqFree s n + (if (cqSt s n).phase then 2 ^ 15 else 0)) else 0

/-- CMD_SQ_STAT (R279). -/
def sqStatRead (s : State) (n : Nat) : Word :=
  let q := sqSt s n
  wd (q.skip * 65536 + b2n q.fetchErr * 8 + b2n q.promoted * 4 + b2n q.blocked * 2 + b2n q.partPkt)

/-! ### The ring window (R240) -/

/-- A byte of the CMD block's ring window, by CMD offset. -/
def winByte (s : State) (off : Nat) : Byte :=
  ((s.reg (0x10000 + off / 4 * 4)).extractLsb' (off % 4 * 8) 8)

def winRead (s : State) (off n : Nat) : List Byte := (List.range n).map fun i => winByte s (off + i)

/-- Write words at a CMD offset that is a multiple of 4. -/
def winWriteWords (s : State) (off : Nat) (l : List Word) : State :=
  (l.zip (List.range l.length)).foldl (fun s e => s.setReg (0x10000 + off + 4 * e.2) e.1) s

/-! ### Enable and disable (R241) -/

def cfgErr (s : State) : State := s.evt R.cmdEvtStatus 1

/-- The enable is accepted: base aligned and in range, LOG2N 4 to 12, bound CQ enabled, and boot has reached READY. -/
def ringOk (s : State) (isCq : Bool) (n : Nat) (val : Word) : Bool :=
  let lg := fld val 11 8
  let lo := s.regNat (ringReg isCq n 0)
  decide (4 ≤ lg) && decide (lg ≤ 12) && lo % 64 == 0 &&
  (if bit val 1 then decide (0x8000 ≤ lo) && decide (lo + 64 * 2 ^ lg ≤ 0x10000) else true) &&
  (isCq || ringEn s true (fld val 20 16)) && s.field R.pwrStatus 23 20 == 5

/-- A write to CMD_SQ_CFG or CMD_CQ_CFG (R241). -/
def ringCfgWrite (s : State) (isCq : Bool) (n : Nat) (val : Word) : State :=
  if 32 ≤ n then s
  else
    let a := ringReg isCq n 8
    let mask : Word := if isCq then 0xF07 else 0x1F3F03
    if ringEn s isCq n then
      if bit val 0 then s
      else if isCq && (cqSt s n).resv != 0 then cfgErr s
      else s.setBit a 0 false
    else if bit val 0 then
      if ringOk s isCq n val then
        let s := ((s.setReg a (val &&& mask)).setReg (ringReg isCq n 0xC) 0).setReg (ringReg isCq n 0x10) 0
        if isCq then s.setCq n {} else s.setSq n {}
      else cfgErr (s.setReg a (clrBitW (val &&& mask) 0))
    else s.setReg a (val &&& mask)

/-- A write to BASE_LO or BASE_HI: only while the ring is disabled (R241). -/
def ringBaseWrite (s : State) (isCq : Bool) (n off : Nat) (val : Word) : State :=
  if ringEn s isCq n then s else s.setReg (ringReg isCq n off) val

def execRingEnable (isCq : Bool) (ring : Nat) (val : Word) (s : State) : Host.Outcome State Fault Refusal :=
  .next (settle (ringCfgWrite s isCq ring val))

def doRingDisable (isCq : Bool) (ring : Nat) (val : Word) (s : State) : State := ringCfgWrite s isCq ring val

def execRingDisable (isCq : Bool) (ring : Nat) (val : Word) (s : State) : Host.Outcome State Fault Refusal :=
  .next (settle (doRingDisable isCq ring val s))

/-! ### Doorbells (R243, R245, R248) -/

/-- An ignored doorbell (R245). -/
def badDoorbell (s : State) : State := (s.inc R.cmdCntBadDb).evt R.cmdEvtStatus 0

def doSqDoorbell (sq : Nat) (val : Word) (s : State) : State :=
  let v := fld val 11 0
  if 32 ≤ sq ∨ ringEn s false sq = false then s
  else if ringSize s false sq ≤ v then badDoorbell s
  else if v = ringTail s false sq then s
  else (s.setNat (sqReg sq 0x10) v).setSq sq { sqSt s sq with partPkt := false }

def execSqDoorbell (sq : Nat) (val : Word) (s : State) : Host.Outcome State Fault Refusal :=
  .next (settle (doSqDoorbell sq val s))

/-- SQs bound to a CQ wait for credit no longer. -/
def unblock (s : State) (cq : Nat) : State :=
  (List.range 32).foldl (fun s n =>
    if boundCq s n = cq ∧ (sqSt s n).blocked = true then s.setSq n { sqSt s n with blocked := false } else s) s

def doCqDoorbell (cq : Nat) (val : Word) (s : State) : State :=
  let v := fld val 11 0
  if 32 ≤ cq ∨ ringEn s true cq = false then s
  else
    let n := ringSize s true cq
    if n ≤ v then badDoorbell s
    else if ringUsed s true cq < (v + n - ringHead s true cq) % n then badDoorbell s
    else unblock (s.setNat (cqReg cq 0xC) v) cq

def execCqDoorbell (cq : Nat) (val : Word) (s : State) : Host.Outcome State Fault Refusal :=
  .next (settle (doCqDoorbell cq val s))

/-! ### Completions (R247 to R250) -/

/-- A completion entry (R247). -/
def entryBytes (r : Reply) (c : Cpl) (epoch : Nat) (stamp : Word) (phase : Bool) : List Byte :=
  leBytes 2 c.status ++ leBytes 2 r.tag ++ leBytes 4 epoch ++
  leBytes 4 (r.sq + b2n r.net.isSome * 32 + b2n c.final * 256 + b2n c.second * 512 + r.op * 65536) ++
  leBytes 4 r.txn ++ (c.result ++ List.replicate (40 - c.result.length) 0).take 40 ++ bytesOfWord stamp ++
  leBytes 4 (c.rlen + b2n phase * 2 ^ 31)

/-- A datagram to the source of a network packet (R274): the entry under the session, a sequence number and a tag. -/
def netReply (s : State) (src : Nat × Nat × Nat) (entry : List Byte) : State :=
  let seq := s.cmd.netTx + 1
  let body := bytesOfWord (s.reg R.cmdNetSession) ++ leBytes 4 seq ++ entry
  let tag := (hmac (bytesOfWords s.cmd.key.toList) body).take 16
  { s with cmd := { s.cmd with
    netTx := seq
    netOut := s.cmd.netOut ++ [(src.1, s.field R.cmdNetCtrl 23 12, src.2.1, src.2.2, body ++ tag)] } }

/-- Write an entry at a CQ's tail and move the tail (R248); the CQ's source rises with IRQ_EN. -/
def cqWrite (s : State) (cq : Nat) (entry : List Byte) : State :=
  let s := s.emit (.cpl cq entry)
  if ringEn s true cq then
    let t := ringTail s true cq
    let n := ringSize s true cq
    let a := ringBase s true cq + 64 * t
    let s := if ringLoc s true cq then winWriteWords s a (wordsOf entry) else s.emit (.host a entry)
    let s := s.setNat (cqReg cq 0x10) ((t + 1) % n)
    let s := if t + 1 = n then s.setCq cq { cqSt s cq with phase := !(cqSt s cq).phase } else s
    if s.bit (cqReg cq 8) 2 then s.edge cq else s
  else s

/-- Release reservations of a CQ (R249). -/
def unreserve (s : State) (cq k : Nat) : State :=
  unblock (s.setCq cq { cqSt s cq with resv := (cqSt s cq).resv - k }) cq

/-- Post an entry, using `k` reservations. Entries of the network path are also sent and released at once (R274, R275). -/
def postEntry (s : State) (r : Reply) (c : Cpl) (k : Nat) : State :=
  let e := entryBytes r c (c.epoch.getD s.cm.epoch) s.stamp (cqSt s r.cq).phase
  let s := unreserve (cqWrite s r.cq e) r.cq k
  match r.net with
  | none => s
  | some src =>
    let s := netReply s src e
    if ringEn s true r.cq then s.setNat (cqReg r.cq 0xC) (ringTail s true r.cq) else s

/-! ### Fetched packets -/

/-- What executing a packet yields (R258): the first completion, the transaction an ST_ACCEPTED accepts, and a reply-buffer
write. `later` leaves the completion to another command. -/
structure Res where
  status : Nat := 0
  result : List Byte := []
  rlen : Nat := 0
  accepts : Option Nat := none
  rbuf : Option (Nat × List Byte) := none
  later : Bool := false
deriving DecidableEq, Repr

/-- An inline reply of words from RESULT 0x10. -/
def resWords (l : List Word) : Res := { result := bytesOfWords l, rlen := 4 * l.length }

/-- A reply of bytes to a reply buffer at `addr` of `len` bytes; too small a buffer gives ST_BAD_PARAM and the length needed
(R255). -/
def resRbuf (addr len : Nat) (data : List Byte) : Res :=
  if len < data.length then { status := stBadParam, result := leBytes 4 data.length, rlen := 4 }
  else { rbuf := some (addr, data), rlen := data.length }

def resErr (st : Nat) : Res := { status := st }

/-- A reply through an RBUF descriptor of 12 bytes; its address is 4-byte aligned (R255). -/
def resTo (rb data : List Byte) : Res :=
  let addr := leNat (rb.take 8)
  if rb.length ≠ 12 ∨ addr % 4 ≠ 0 then resErr stBadParam else resRbuf addr (leNat (rb.drop 8)) data

/-- The first completion a result makes. -/
def resCpl (r : Res) : Cpl :=
  { status := r.status, final := r.accepts.isNone, result := r.result, rlen := r.rlen }

/-- Execute a packet and keep its completion until it is posted. -/
def runPacket (op : Nat) (h : Hdr) (net : Option (Nat × Nat × Nat)) (resv : Nat) (f : State → State × Res) (s : State) :
    State :=
  let num := s.cmd.fetchNum
  let due := s.clk + usClk (s.field R.cmdTimeout 19 0)
  let s := { s with cmd := { s.cmd with fetchNum := num + 1 } }
  let out := f s
  let rep : Reply := { cq := boundCq s h.sq, sq := h.sq, tag := h.tag, op := op, txn := h.txn, net := net }
  let fe : Fetched :=
    { num := num
      reply := rep
      resv := resv
      due := due
      cpl := if out.2.later then none else some (resCpl out.2)
      accepts := out.2.accepts
      rbuf := out.2.rbuf }
  { out.1 with cmd := { out.1.cmd with fetched := out.1.cmd.fetched ++ [fe] } }

/-- Reservations of a packet (R249). -/
def reserves (isEpoch : Bool) (op txn : Nat) (payload : List Byte) : Nat :=
  if op = 0x0202 then (if fld (wAt (wordsOf payload) 0) 1 0 ≤ 1 then 2 else 1)
  else if isEpoch && txn == 0 then 2 else 1

/-- The fetched packet whose completion is due next: the first with a completion and no earlier packet of its CQ (R250). -/
def nextPost (l : List Fetched) : Option Fetched :=
  l.find? fun f => (f.dead || f.cpl.isSome) &&
    (f.dead || (l.takeWhile (fun g => g.num != f.num)).all (fun g => g.dead || g.reply.cq != f.reply.cq))

def dropFetched (s : State) (num : Nat) : State :=
  { s with cmd := { s.cmd with fetched := s.cmd.fetched.filter (fun f => f.num != num) } }

/-- Rings held by FENCE may fetch once nothing of theirs is outstanding. -/
def unfence (s : State) (sq : Nat) : State :=
  if (sqSt s sq).fenced then s.setSq sq { sqSt s sq with fenced := false } else s

/-- The transaction with number `n` enters the order of ST_ACCEPTED (R104). -/
def orderAccepted (s : State) (n : Nat) : State :=
  let k := s.cmd.accNum
  { s with cmd := { s.cmd with
    accNum := k + 1
    txns := s.cmd.txns.map fun t => if t.num == n then { t with acc := some k } else t } }

/-! ### Arbitration (R251, R252) -/

/-- A ring that may be served: enabled, doorbelled, and not known to be held. -/
def served (s : State) (n : Nat) : Bool :=
  let q := sqSt s n
  ringEn s false n && ringHead s false n != ringTail s false n && !q.blocked && !q.partPkt && !q.fenced && !q.noFit

def sqClass (s : State) (n : Nat) : Nat := s.field (sqReg n 8) 13 12

/-- Weight of a class; 0 acts as 1 (R276). -/
def classWeight (s : State) (c : Nat) : Nat := max 1 (s.field R.cmdWeights (8 * c + 7) (8 * c))

/-- Rings in the order of one round: by class, then by number. -/
def roundOrder (s : State) : List Nat :=
  (List.range 4).flatMap fun c => (List.range 32).filter fun n => sqClass s n == c

/-- The ring the engine serves next (R252). -/
def nextRing (s : State) : Option Nat :=
  match (List.range 32).find? (fun n => (sqSt s n).promoted && !(sqSt s n).fetchedSince && served s n) with
  | some n => some n
  | none =>
    let o := roundOrder s
    let cur := s.cmd.turn.2.1
    if s.cmd.turn.2.2 = 0 then o.find? (served s ·)
    else if served s cur && decide (s.cmd.turn.2.2 < classWeight s (sqClass s cur)) then some cur
    else
      let i := o.idxOf cur
      (o.drop (i + 1) ++ o.take (i + 1)).find? (served s ·)

/-- The turn after a packet of ring `n`: one more of the visit, or the first of a new one. -/
def nextTurn (s : State) (n : Nat) : Nat × Nat × Nat :=
  let c := s.cmd.turn.2.2
  if n = s.cmd.turn.2.1 ∧ c ≠ 0 ∧ c < classWeight s (sqClass s n) then (sqClass s n, n, c + 1) else (sqClass s n, n, 1)

/-- The bytes of the packet at the head of a window ring. -/
def windowPacket (s : State) (sq : Nat) : List Byte :=
  let n := ringSize s false sq
  let h := ringHead s false sq
  (List.range (ringUsed s false sq)).flatMap fun i => winRead s (ringBase s false sq + 64 * ((h + i) % n)) 64

/-- Slots of a packet with payload length LEN; an oversize LEN counts as one slot (R242, R254). -/
def packetSlots (len : Nat) : Nat := if 4080 < len then 1 else ceilDiv (16 + len) 64

/-- At a boundary: skip counts, promotion and a new budget (R252). -/
def ringBoundary (s : State) : State :=
  let s := (List.range 32).foldl (fun s n =>
    match tabGet s.cmd.sqs n with
    | none =>
      if served s n then s.setSq n { wasFetchable := true } else s
    | some q =>
      let sk := if q.wasFetchable && !q.fetchedSince then q.skip + 1 else if q.fetchedSince then 0 else q.skip
      let pr := sk == 4
      let s := if pr then s.inc R.cmdCntPromote else s
      let s := s.setSq n { q with noFit := false }
      s.setSq n { q with
        skip := if pr then 0 else sk
        promoted := pr
        noFit := false
        fetchedSince := false
        wasFetchable := served s n }) s
  { s with cmd := { s.cmd with slots := 0, turn := (0, 0, 0) } }

/-! ### Network path (R271 to R275) -/

def netKeyZero (s : State) : Bool := s.cmd.key.toList.all (· == 0)

/-- A write to CMD_NET_CTRL: setting EN while the key is zero is ignored (R271). -/
def doNetPathEnable (val : Word) (s : State) : State :=
  if bit val 0 && netKeyZero s then cfgErr s else s.setReg R.cmdNetCtrl (val &&& 0x0FFFFF81)

def execNetPathEnable (val : Word) (s : State) : Host.Outcome State Fault Refusal := .next (settle (doNetPathEnable val s))

/-- CMD_NET_CTRL with KEY_SET. -/
def netCtrlRead (s : State) : Word :=
  if netKeyZero s then s.reg R.cmdNetCtrl else setBitW (s.reg R.cmdNetCtrl) 1

/-- A write to a key word ends the session (R271). -/
def doNetKeyWrite (idx : Nat) (val : Word) (s : State) : State :=
  if idx < 8 then
    ({ s with cmd := { s.cmd with key := s.cmd.key.setIfInBounds idx val, netTx := 0 } } : State).setReg R.cmdNetSession 0
  else s

def execNetKeyWrite (idx : Nat) (val : Word) (s : State) : Host.Outcome State Fault Refusal :=
  .next (settle (doNetKeyWrite idx val s))

/-- The datagram arrives on the network path: control address, port 7474, an enabled port and the control VLAN (R271). -/
def onNetPath (s : State) (d : Dgram) : Bool :=
  s.bit R.cmdNetCtrl 0 && s.bit R.cmdNetCtrl (24 + d.port) && decide (d.port < 4) && d.dstUdp == 7474 &&
  d.vlan == s.field R.cmdNetCtrl 23 12 && d.dstIp == s.cm.regNat (R.netCtrlIp + 0x80 * d.port)

/-- A hello opens a session and is answered (R273). -/
def takeHello (s : State) (d : Dgram) (seq tag : Nat) : State :=
  let ses := s.jnl.store.session + 1
  let s := { s with jnl := { s.jnl with store := { s.jnl.store with session := ses } } }
  let s := { s with cmd := { s.cmd with netTx := 0, netPort := d.srcUdp } }
  let s := ((s.setNat R.cmdNetSession ses).setNat R.cmdNetSeq seq).setNat R.cmdNetPeer d.srcIp
  let src := (d.port, d.srcIp, d.srcUdp)
  let r : Reply := { sq := s.field R.cmdNetCtrl 11 7, tag := tag, op := 0x0101, net := some src }
  netReply s src (entryBytes r {} s.cm.epoch s.stamp false)

/-- Write an accepted packet into the path's SQ; one that finds no room is dropped and counted. -/
def netSubmit (s : State) (d : Dgram) (pkt : List Byte) : State :=
  let sq := s.field R.cmdNetCtrl 11 7
  let slots := packetSlots (pkt.length - 16)
  let n := ringSize s false sq
  if ringEn s false sq && ringLoc s false sq && decide (ringUsed s false sq + slots < n) then
    let t := ringTail s false sq
    let padded := pkt ++ List.replicate (64 * slots - pkt.length) 0
    let s := ((chunk 64 slots padded).zip (List.range slots)).foldl (fun s e =>
      winWriteWords s (ringBase s false sq + 64 * ((t + e.2) % n)) (wordsOf e.1)) s
    let s := { s with cmd := { s.cmd with netSrc := tabSet s.cmd.netSrc t (d.port, d.srcIp, d.srcUdp) } }
    (s.setNat (sqReg sq 0x10) ((t + slots) % n)).setSq sq { sqSt s sq with partPkt := false }
  else s.inc R.cmdNetCntDrop

/-- The checks of R272 in their order. -/
def netDatagram (d : Dgram) (s : State) : State :=
  if !onNetPath s d then s
  else
    let p := d.payload
    let len := leNat ((p.drop 14).take 2)
    if !d.ok || d.udpLen != 48 + len || p.length != 40 + len then s.inc R.cmdNetCntDrop
    else if (p.drop (24 + len)).take 16 != (hmac (bytesOfWords s.cmd.key.toList) (p.take (24 + len))).take 16 then
      (s.inc R.cmdNetCntAuth).evt R.cmdEvtStatus 4
    else
      let ses := leNat (p.take 4)
      let seq := leNat ((p.drop 4).take 4)
      let pkt := (p.drop 8).take (16 + len)
      let op := leNat ((pkt.drop 2).take 2)
      if ses = 0 ∧ op = 0x0101 then takeHello s d seq (leNat ((pkt.drop 4).take 2))
      else if ses = 0 ∨ ses ≠ s.regNat R.cmdNetSession ∨ seq ≤ s.regNat R.cmdNetSeq then s.inc R.cmdNetCntReplay
      else netSubmit (s.setNat R.cmdNetSeq seq) d pkt

def execNetCommandDatagram (d : Dgram) (s : State) : Host.Outcome State Fault Refusal := .next (settle (netDatagram d s))

/-- HELLO row: a datagram on the network path; one that is a hello opens a session (R273). -/
def doHello (d : Dgram) (s : State) : State := netDatagram d s

def execHello (d : Dgram) (s : State) : Host.Outcome State Fault Refusal := .next (settle (doHello d s))

end Sys2Proof.Machine
end

