-- ==== Sys2Proof/Machine/Txn.lean ====
section
/-! DEFINITION. Transactions (chapter 04): staging, the transaction group, timeouts and final completions. -/

namespace Sys2Proof.Machine

/-! ### Lookup and update -/

/-- The reserved ID of firmware transactions (R100). -/
def fwId : Nat := 0xFFFFFFFF

/-- The held transaction an ID names (R98); firmware transactions, commands of their own and copies of a leader's transactions
have no ID to name them here. -/
def findTxn (s : State) (id : Nat) : Option Txn := s.cmd.txns.find? fun t => !t.fw && t.lead.isNone && t.id == id && t.id != 0

def State.setTxns (s : State) (l : List Txn) : State := { s with cmd := { s.cmd with txns := l } }

/-- Replace the transaction of the same number. -/
def State.putTxn (s : State) (t : Txn) : State := s.setTxns (s.cmd.txns.map fun u => if u.num == t.num then t else u)

def State.dropTxn (s : State) (n : Nat) : State := s.setTxns (s.cmd.txns.filter fun u => u.num != n)

/-- A new transaction, with the next number. -/
def State.addTxn (s : State) (t : Txn) : State × Txn :=
  let t := { t with num := s.cmd.txnNum, used := s.clk }
  ({ s with cmd := { s.cmd with txnNum := s.cmd.txnNum + 1, txns := s.cmd.txns ++ [t] } }, t)

/-- Transactions that count toward the limit of 64 (R98, R100). -/
def heldCount (s : State) : Nat := (s.cmd.txns.filter fun t => !t.fw && t.lead.isNone).length

/-- Close a transaction: its place is free, and OP_TXN_STATUS keeps its outcome (R99, R116). -/
def closeTxn (s : State) (t : Txn) (status epoch : Nat) : State :=
  let s := s.dropTxn t.num
  if t.fw || t.lead.isSome || t.id == 0 then s
  else
    { s with cmd := { s.cmd with
      closed := (({ id := t.id, status := status, epoch := epoch } : ClosedTxn) ::
        s.cmd.closed.filter fun c => c.id != t.id).take 256 } }

/-! ### Staging (R97) -/

/-- Most bytes a transaction stages (R98). -/
def stageMax : Nat := 0x100000

/-- Stage one packet into a transaction already found OPEN. -/
def stageInto (s : State) (t : Txn) (pk : Packet) (chk : Nat) : State × Nat :=
  let t := { t with used := s.clk }
  if chk = stOk then
    if stageMax < t.bytes + 16 + pk.payload.length then
      (s.putTxn { t with phase := .failed, err := stNoResource }, stNoResource)
    else (s.putTxn { t with packets := t.packets ++ [pk], bytes := t.bytes + 16 + pk.payload.length }, stOk)
  else if chk = stBadState then (s.putTxn t, stBadState)
  else (s.putTxn { t with phase := .failed, err := chk }, chk)

/-- Where the completions of a packet with header `h` go. -/
def replyOf (s : State) (h : Hdr) (op : Nat) (net : Option (Nat × Nat × Nat)) : Reply :=
  { cq := boundCq s h.sq, sq := h.sq, tag := h.tag, op := op, txn := h.txn, net := net }

/-- Accept a transaction for commit; the first completion is ST_ACCEPTED with k_T (R258). -/
def acceptTxn (s : State) (t : Txn) (r : Reply) (mode1 : Bool) (tm lateMax : Nat) : State × Res :=
  let t := { t with
    phase := .accepted
    mode1 := mode1
    t := tm
    lateMax := lateMax
    used := s.clk
    reply := some r }
  let kT := if mode1 then ceilDiv tm s.blockLen else 0
  (s.putTxn t, { status := stAccepted, result := leBytes 8 kT, rlen := 8, accepts := some t.num })

/-- An epoch command (R97): staged into the transaction its header names, or with TXN_ID 0 a transaction of its own.
`chk` judges the payload against the packets staged before it. -/
def stageCmd (op : Nat) (h : Hdr) (net : Option (Nat × Nat × Nat)) (p : List Byte)
    (chk : State → List Packet → List Byte → Nat) (s : State) : State × Res :=
  let pk : Packet := { op := op, payload := p, depth := h.depth, path := h.path }
  if h.txn = 0 then
    let st := chk s [] p
    if st ≠ stOk then (s, resErr st)
    else if 64 ≤ heldCount s then (s, resErr stNoResource)
    else
      let a := s.addTxn { num := 0, id := 0, packets := [pk], bytes := 16 + p.length }
      acceptTxn a.1 a.2 (replyOf s h op net) false 0 0
  else
    match findTxn s h.txn with
    | none => (s, resErr stBadState)
    | some t =>
      match t.phase with
      | .open_ =>
        let r := stageInto s t pk (chk s t.packets p)
        (r.1, resErr r.2)
      | .failed => (s.putTxn { t with used := s.clk }, resErr stBadState)
      | .accepted | .admitted | .refused => (s, resErr stBadState)

/-! ### The transaction group (R98, R101, R103, R116) -/

/-- TXN_ID 0 and the firmware's ID are refused by every command of the group (R263). -/
def badTxnId (id : Nat) : Bool := id == 0 || id == fwId

def txnOpen (h : Hdr) (p : List Byte) (s : State) : State × Res :=
  if badTxnId h.txn || !p.isEmpty then (s, resErr stBadParam)
  else if (findTxn s h.txn).isSome then (s, resErr stBadState)
  else if 64 ≤ heldCount s then (s, resErr stNoResource)
  else ((s.addTxn { num := 0, id := h.txn }).1, resErr stOk)

/-- OP_TXN_COMMIT in MODE 0 or 1 (R96, R103). -/
def txnCommit (h : Hdr) (net : Option (Nat × Nat × Nat)) (mode1 : Bool) (tm lateMax : Nat) (s : State) : State × Res :=
  match findTxn s h.txn with
  | none => (s, resErr stBadState)
  | some t =>
    match t.phase with
    | .open_ => acceptTxn s t (replyOf s h 0x0202 net) mode1 tm lateMax
    | .failed => (closeTxn s t t.err s.cm.epoch, resErr t.err)
    | .accepted | .admitted | .refused => (s, resErr stBadState)

/-- RESULT of a second completion (R258). -/
def finalResult (boundary : Nat) (v : Verdict) : List Byte :=
  let b := match v.budget with
    | none => List.replicate 16 0
    | some (u, i, off, dem, cap) => leBytes 4 (u + 256 * i) ++ leBytes 4 off ++ leBytes 4 dem ++ leBytes 4 cap
  leBytes 8 boundary ++ leBytes 4 v.lateness ++ leBytes 4 (b2n v.discarded) ++ leBytes 4 v.stage ++ leBytes 4 v.failOp ++ b

/-- Post the second completion of a commit, if it has a ring to go to (R100, R258). -/
def postFinal (s : State) (t : Txn) (v : Verdict) (boundary epoch : Nat) : State :=
  match t.reply with
  | none => s
  | some r =>
    postEntry s r { status := v.status, epoch := some epoch, second := true, result := finalResult boundary v, rlen := 40 } 1

def txnAbort (h : Hdr) (p : List Byte) (s : State) : State × Res :=
  if badTxnId h.txn || !p.isEmpty then (s, resErr stBadParam)
  else
    match findTxn s h.txn with
    | none => (s, resErr stBadState)
    | some t =>
      match t.phase with
      | .open_ | .failed => (closeTxn s t stOk s.cm.epoch, resErr stOk)
      | .accepted =>
        let s := postFinal s t { status := stSuperseded } s.tick s.cm.epoch
        (closeTxn s t stSuperseded s.cm.epoch, resErr stOk)
      | .admitted | .refused => (s, resErr stBadState)

/-- Code of a state in OP_TXN_STATUS; a transaction refused by its pass waits for its boundary like an admitted one. -/
def phaseCode : TxnPhase → Nat
  | .open_ => 0
  | .failed => 1
  | .accepted => 2
  | .admitted => 3
  | .refused => 3

def statusReply (state boundary final epoch : Nat) : Res :=
  { result := leBytes 8 state ++ leBytes 8 boundary ++ leBytes 4 final ++ leBytes 4 epoch, rlen := 24 }

def txnStatus (h : Hdr) (p : List Byte) (s : State) : State × Res :=
  if badTxnId h.txn || !p.isEmpty then (s, resErr stBadParam)
  else
    match findTxn s h.txn with
    | some t =>
      let b := match t.phase with
        | .admitted | .refused => t.boundary
        | .open_ | .failed | .accepted => 0
      (s, statusReply (phaseCode t.phase) b 0 0)
    | none =>
      match s.cmd.closed.find? (fun c => c.id == h.txn) with
      | some c => (s, statusReply 4 0 c.status c.epoch)
      | none => (s, resErr stBadParam)

/-! ### Timeouts -/

/-- TXN_IDLE_TIMEOUT (R99). -/
def doTxnIdleTimeout (txn : Nat) (s : State) : State :=
  match findTxn s txn with
  | none => s
  | some t =>
    let due := t.used + msClk (s.field R.cmdTxnIdle 15 0)
    if (t.phase == .open_ || t.phase == .failed) && s.dueOk due then
      let s := s.atClk due
      closeTxn s t stTimeout s.cm.epoch
    else s

def execTxnIdleTimeout (txn : Nat) (s : State) : Host.Outcome State Fault Refusal :=
  .next (settle (doTxnIdleTimeout txn s))

/-- What a timed-out packet leaves behind (R260): an epoch command's transaction fails, a commit's is discarded. -/
def abandon (s : State) (f : Fetched) : State :=
  match f.accepts with
  | some n =>
    match s.cmd.txns.find? (fun t => t.num == n) with
    | some t => closeTxn s t stTimeout s.cm.epoch
    | none => s
  | none =>
    match findTxn s f.reply.txn with
    | some t => if t.phase == .open_ && f.reply.op / 256 != 2 then s.putTxn { t with phase := .failed, err := stTimeout } else s
    | none => s

/-- CMD_TIMEOUT (R260). -/
def doCmdTimeout (fetch : Nat) (s : State) : State :=
  match s.cmd.fetched.find? (fun f => f.num == fetch && !f.dead && decide (f.reply.cq < 32)) with
  | none => s
  | some f =>
    if s.dueOk f.due then
      let s := s.atClk f.due
      let s := postEntry s f.reply { status := stTimeout } f.resv
      let s := abandon s f
      let s := { s with cmd := { s.cmd with fetched := s.cmd.fetched.map fun g =>
        if g.num == fetch then { g with dead := true } else g } }
      ((unfence s f.reply.sq).inc R.cmdCntTimeout).evt R.cmdEvtStatus 3
    else s

def execCmdTimeout (fetch : Nat) (s : State) : Host.Outcome State Fault Refusal := .next (settle (doCmdTimeout fetch s))

/-! ### Firmware transactions (R100) -/

/-- The OPEN firmware transaction. -/
def fwOpen (s : State) : Option Txn := s.cmd.txns.find? fun t => t.fw && t.phase == .open_

/-- Stage packets of one firmware change of a kind (1 S-ADM frame, 2 speed of sound, 3 role hand-over). -/
def fwStage (s : State) (kind : Nat) (l : List Packet) : State :=
  let a := match fwOpen s with
    | some t => (s, t)
    | none => s.addTxn { num := 0, id := fwId, fw := true }
  a.1.putTxn { a.2 with packets := a.2.packets ++ l, kinds := a.2.kinds ++ [kind] }

/-- FW_TXN_COMMIT: the OPEN firmware transaction is accepted at once; no completion is posted (R100). -/
def doFwTxnCommit (s : State) : State :=
  match fwOpen s with
  | none => s
  | some t =>
    if t.packets.isEmpty then s
    else orderAccepted (s.putTxn { t with phase := .accepted }) t.num

def execFwTxnCommit (s : State) : Host.Outcome State Fault Refusal := .next (settle (doFwTxnCommit s))

/-! ### Views -/

/-- CMD_TXN_COUNT (R118). -/
def txnCountRead (s : State) : Word :=
  let n (f : TxnPhase → Bool) := min 255 (s.cmd.txns.filter fun t => t.lead.isNone && f t.phase).length
  wd (n (fun p => p == .admitted || p == .refused) * 65536 + n (· == .accepted) * 256 +
    n (fun p => p == .open_ || p == .failed))

end Sys2Proof.Machine
end

