-- ==== Sys2Proof/Machine/Scene.lean ====
section
/-! DEFINITION. Scene records (chapters 02 and 03, R263 to R266): their checks at staging and what they write at the commit. -/

namespace Sys2Proof.Machine

/-! ### Codes and ranges -/

/-- A dB gain of Q8.8: -127.996 to +24.0, or 0x8000 for off. -/
def gainCodeOk (c : Nat) : Bool := c == 0x8000 || decide (c ≤ 6144) || decide (32769 ≤ c ∧ c < 65536)

/-- A dB trim without an off code. -/
def trimCodeOk (c : Nat) : Bool := gainCodeOk c && c != 0x8000

def w16 (w : Word) (hi : Bool) : Nat := if hi then fld w 31 16 else fld w 15 0

def s32 (w : Word) : Int := w.toInt

/-- 180.0 degrees in Q9.7. -/
def extMax : Nat := 23040

/-- Every record of a list payload passes `f` (R255, R263). -/
def listOk (k : Nat) (p : List Byte) (f : List Word → Bool) : Nat :=
  match listRecords k p with
  | none => stBadParam
  | some rs => if rs.all f then stOk else stBadParam

/-- The records of a list payload already checked. -/
def listOf (k : Nat) (p : List Byte) : List (List Word) := (listRecords k p).getD []

/-! ### Output numbers (R448) -/

/-- Local output of a member's i-th output. -/
def strideOut (stride i : Nat) : Nat := i * 2 ^ stride % 1024 + i * 2 ^ stride / 1024

/-- A module's own index of a unit output, or none when another member presents it. -/
def Numbering.index : List GangLevel → Nat → Option Nat
  | [], u => some u
  | g :: r, u => if u / g.per = g.m then Numbering.index r (u % g.per) else none

/-- Number under which this module's tables keep a unit output. -/
def Numbering.loc (n : Numbering) (u : Nat) : Nat :=
  match Numbering.index n.levels u with
  | some i => if n.levels.isEmpty then u else strideOut n.stride i
  | none => 0x10000 + u

/-- The unit output a table number stands for. -/
def Numbering.unit (n : Numbering) (x : Nat) : Nat :=
  if 0x10000 ≤ x then x - 0x10000
  else if n.levels.isEmpty then x
  else
    let k := 2 ^ n.stride
    n.levels.foldr (fun g u => g.m * g.per + u) ((x % k * 1024 + (x - x % k)) / k)

/-- Outputs a unit presents. -/
def State.unitOutputs (s : State) : Nat :=
  match s.cm.num.levels with
  | [] => s.outputs
  | g :: _ => g.per * g.n

/-- The unit has the output (R448, R451). -/
def State.outExists (s : State) (u : Nat) : Bool :=
  match s.cm.num.levels with
  | [] => decide (u < s.outputs)
  | g :: _ => decide (u < g.per * g.n) && !s.cm.num.gone.contains (u / g.per)

/-- Rewrite every output number of the tables. -/
def renumber (f : Nat → Nat) (c : Committed) : Committed :=
  let spks := c.spks.foldl (fun (t : Tab SpkRec) e => tabSet t (f e.1) e.2) []
  let objs := c.objs.map fun (e : Nat × ObjRec) => (e.1, if e.2.mode = 4 then { e.2 with targetLo := f e.2.targetLo } else e.2)
  let layouts := c.layouts.map fun (e : Nat × Layout) =>
    (e.1, { e.2 with members := e.2.members.map f, tris := e.2.tris.map fun l => l.map f })
  let arrays := c.arrays.map fun (e : Nat × ArrayRec) =>
    (e.1, { e.2 with entries := e.2.entries.map fun (x : ArrEntry) => { x with out := f x.out } })
  { c with spks := spks, objs := objs, layouts := layouts, arrays := arrays }

/-- Tables under a new numbering. -/
def Committed.setNum (c : Committed) (n : Numbering) : Committed :=
  { renumber (fun x => n.loc (c.num.unit x)) c with num := n }

/-! ### Objects (R34, R35) -/

def objRec (w : List Word) : ObjRec :=
  let a := wAt w 0
  { mode := fld a 2 0
    dlaw := fld a 5 4
    dtable := fld a 8 6
    hw := fld a 11 9
    distDelay := bit a 12
    focus := bit a 13
    targetLo := (wAt w 1).toNat
    targetHi := (wAt w 2).toNat
    exclLo := (wAt w 3).toNat
    exclHi := (wAt w 4).toNat
    rRef := (wAt w 5).toNat
    rMin := (wAt w 6).toNat
    gain := signedOf 16 (fld (wAt w 7) 15 0)
    extW := fld (wAt w 8) 15 0
    extH := fld (wAt w 8) 31 16
    pre := (wAt w 9).toNat }

def objRecOk (s : State) (w : List Word) : Bool :=
  let id := (wAt w 0).toNat
  let w := w.drop 1
  let r := objRec w
  let place := bit (wAt w 7) 16
  decide (id < s.objects) && fld (wAt w 0) 31 14 == 0 && decide (r.mode ≤ 4) && r.dlaw != 3 && decide (r.hw ≤ 5) &&
  (r.mode == 2 || r.targetHi == 0) && (r.mode != 3 || decide (r.targetLo < 64)) &&
  (r.mode != 4 || s.outExists r.targetLo) &&
  decide (0x4000 ≤ r.rRef ∧ r.rRef ≤ 65536000) && decide (0xCCD ≤ r.rMin ∧ r.rMin ≤ r.rRef) &&
  gainCodeOk (fld (wAt w 7) 15 0) && fld (wAt w 7) 31 17 == 0 &&
  (!place || (decide (r.extW ≤ extMax) && decide (r.extH ≤ extMax))) &&
  decide (r.pre < 2 ^ 26) && wAt w 13 == 0 && wAt w 14 == 0 && wAt w 15 == 0

def chkObjSet (s : State) (_ : List Packet) (p : List Byte) : Nat := listOk 17 p (objRecOk s)

def State.rt (s : State) (o : Nat) : ObjRt := tabGetD s.geo.rts o {}

def State.setRt (s : State) (o : Nat) (r : ObjRt) : State := { s with geo := { s.geo with rts := tabSet s.geo.rts o r } }

/-- R35: the placement of a record, at its effective block `k`. -/
def placeObj (s : State) (k o : Nat) (w : List Word) : State :=
  let key : Key :=
    { time := (evalPoint s.blockLen k).toNat
      pos := { x := s32 (wAt w 10), y := s32 (wAt w 11), z := s32 (wAt w 12) }
      gain := 0
      extW := fld (wAt w 8) 15 0
      extH := fld (wAt w 8) 31 16
      cut := true
      cubic := false }
  s.setRt o { s.rt o with anchor := some key, prev := none, queue := [], placed := true }

def applyObjSet (k : Nat) (p : List Byte) (s : State) : State :=
  (listOf 17 p).foldl (fun s w =>
    let o := (wAt w 0).toNat
    let w := w.drop 1
    let r := objRec w
    let r := if r.mode = 4 then { r with targetLo := s.cm.num.loc r.targetLo } else r
    let s := { s with cm := { s.cm with objs := tabSet s.cm.objs o r } }
    if bit (wAt w 7) 16 then placeObj s k o w else s) s

/-! ### Keyframes (R36, R37) -/

def keyOk (w : List Word) : Bool :=
  gainCodeOk (fld (wAt w 5) 15 0) && fld (wAt w 5) 31 16 == 0 && decide (fld (wAt w 6) 15 0 ≤ extMax) &&
  decide (fld (wAt w 6) 31 16 ≤ extMax) && fld (wAt w 7) 31 3 == 0 &&
  (!bit (wAt w 7) 2 || (fld (wAt w 2) 31 16 == 0 && fld (wAt w 3) 31 16 == 0))

def keyOf (w : List Word) : Key :=
  { time := (wAt w 0).toNat + 2 ^ 32 * (wAt w 1).toNat
    pos := if bit (wAt w 7) 2 then polarPos (signedOf 16 (wAt w 2).toNat) (signedOf 16 (wAt w 3).toNat) (s32 (wAt w 4))
      else { x := s32 (wAt w 2), y := s32 (wAt w 3), z := s32 (wAt w 4) }
    gain := signedOf 16 (fld (wAt w 5) 15 0)
    extW := fld (wAt w 6) 15 0
    extH := fld (wAt w 6) 31 16
    cut := bit (wAt w 7) 0
    cubic := bit (wAt w 7) 1 }

/-- The keyframe records of an OP_OBJ_KEYS payload. -/
def keyRecs (p : List Byte) : List (List Word) := chunk 8 8 ((wordsOf p).drop 2)

def chkObjKeys (s : State) (_ : List Packet) (p : List Byte) : Nat :=
  let w := wordsOf p
  let n := fld (wAt w 1) 3 0
  if (wAt w 0).toNat < s.objects ∧ fld (wAt w 1) 31 4 = 0 ∧ 1 ≤ n ∧ n ≤ 8 ∧ p.length = 8 + 32 * n then
    (if (keyRecs p).all keyOk then stOk else stBadParam)
  else stBadParam

/-- Merge a keyframe: one of the same time is replaced, and the queue stays sorted (R37). -/
def mergeKey (q : List Key) (x : Key) : List Key := insertBy (·.time) x (q.filter (·.time != x.time))

def applyObjKeys (p : List Byte) (s : State) : State :=
  let o := (wAt (wordsOf p) 0).toNat
  let r := s.rt o
  s.setRt o { r with queue := (keyRecs p).foldl (fun q w => mergeKey q (keyOf w)) r.queue }

def chkIds (s : State) (_ : List Packet) (p : List Byte) : Nat := listOk 1 p fun w => decide ((wAt w 0).toNat < s.objects)

def applyKeysClear (p : List Byte) (s : State) : State :=
  (listOf 1 p).foldl (fun s w =>
    let o := (wAt w 0).toNat
    s.setRt o { s.rt o with queue := [] }) s

/-! ### Well sizes and distance tables (R67, R45) -/

def chkWellSize (s : State) (_ : List Packet) (p : List Byte) : Nat :=
  listOk 2 p fun w => decide ((wAt w 0).toNat < s.objects) && decide ((wAt w 1).toNat ≤ 256)

def chkDist (_ : State) (_ : List Packet) (p : List Byte) : Nat :=
  let w := wordsOf p
  let sp := (wAt w 1).toNat
  if p.length = 72 ∧ fld (wAt w 0) 31 3 = 0 ∧ 0x1000 ≤ sp ∧ sp ≤ 0x400000 then stOk else stBadParam

def applyDist (p : List Byte) (s : State) : State :=
  let w := wordsOf p
  let g := (w.drop 2).flatMap fun x => [signedOf 16 (fld x 15 0), signedOf 16 (fld x 31 16)]
  let t : DistTab := { s := (wAt w 1).toNat, g := g }
  { s with cm := { s.cm with dists := tabSet s.cm.dists (fld (wAt w 0) 2 0) t } }

/-! ### Speakers (R42) -/

def chkSpk (s : State) (_ : List Packet) (p : List Byte) : Nat :=
  listOk 9 p fun w =>
    s.outExists (wAt w 0).toNat && trimCodeOk (fld (wAt w 5) 31 16) && decide ((wAt w 6).toNat ≤ 0x100000) &&
    fld (wAt w 7) 31 15 == 0 && wAt w 8 == 0

def applySpk (p : List Byte) (s : State) : State :=
  (listOf 9 p).foldl (fun s w =>
    let r : SpkRec :=
      { pos := { x := s32 (wAt w 1), y := s32 (wAt w 2), z := s32 (wAt w 3) }
        aimX := signedOf 16 (fld (wAt w 4) 15 0)
        aimY := signedOf 16 (fld (wAt w 4) 31 16)
        aimZ := signedOf 16 (fld (wAt w 5) 15 0)
        gtrim := signedOf 16 (fld (wAt w 5) 31 16)
        dtrim := (wAt w 6).toNat
        zone := fld (wAt w 7) 5 0
        enable := bit (wAt w 7) 6
        nozone := bit (wAt w 7) 7 }
    { s with cm := { s.cm with spks := tabSet s.cm.spks (s.cm.num.loc (wAt w 0).toNat) r } }) s

/-! ### Layouts and arrays in parts (R266) -/

/-- A layout or array record as its staged parts have made it. -/
structure Parts where
  flag : Bool
  taper : Nat := 0
  gain : Int := 0
  members : List Nat := []
  tris : List (List Nat) := []
  entries : List ArrEntry := []
  last : Bool := false
  /-- staging position of its newest part -/
  stage : Nat := 0
deriving DecidableEq, Repr, Inhabited

/-- 16-bit halves of the words of a part, from word 2. -/
def halves (p : List Byte) : List Nat := ((wordsOf p).drop 2).flatMap fun w => [fld w 15 0, fld w 31 16]

def layNmem (p : List Byte) : Nat := fld (wAt (wordsOf p) 1) 15 0
def layNtri (p : List Byte) : Nat := fld (wAt (wordsOf p) 1) 31 16

def layMembers (p : List Byte) : List Nat := (halves p).take (layNmem p)

def layTris (p : List Byte) : List (List Nat) :=
  chunk 3 (layNtri p) (((halves p).drop (2 * ceilDiv (layNmem p) 2)).take (3 * layNtri p))

/-- A segment has two outputs (R43). -/
def segOf (t : List Nat) : List Nat := if t.getD 2 0 = 0xFFFF then t.take 2 else t

/-- Padding half words are zero. -/
def layPadOk (p : List Byte) : Bool :=
  let h := halves p
  (layNmem p % 2 == 0 || h.getD (layNmem p) 0 == 0) &&
  (layNtri p % 2 == 0 || h.getD (2 * ceilDiv (layNmem p) 2 + 3 * layNtri p) 0 == 0)

def arrEntries (p : List Byte) : List ArrEntry :=
  (chunk 2 1024 ((wordsOf p).drop 3)).map fun w =>
    { out := fld (wAt w 0) 15 0
      nx := signedOf 16 (fld (wAt w 0) 31 16)
      ny := signedOf 16 (fld (wAt w 1) 15 0)
      nz := signedOf 16 (fld (wAt w 1) 31 16) }

/-- Fold the parts of one opcode into records by index; packets are numbered by their place. -/
def gatherParts (op : Nat) (l : List Packet) : Tab Parts :=
  (l.zipIdx).foldl (fun t (pk, i) =>
    if pk.op != op then t
    else
      let a := wAt (wordsOf pk.payload) 0
      let idx := fld a 5 0
      let isLay := op == 0x0402
      let b := wAt (wordsOf pk.payload) 1
      let fresh : Parts :=
        { flag := if isLay then bit a 8 else bit a 9
          taper := fld b 5 0
          gain := signedOf 16 (fld b 31 16) }
      let r := if bit a 16 then fresh else tabGetD t idx fresh
      let r := if isLay then
          { r with members := r.members ++ layMembers pk.payload, tris := r.tris ++ (layTris pk.payload).map segOf }
        else { r with entries := r.entries ++ arrEntries pk.payload }
      tabSet t idx { r with last := bit a 17, stage := i }) []

/-- Status of a part against the parts staged before it. -/
def partStatus (op : Nat) (staged : List Packet) (p : List Byte) (flag : Bool) : Nat :=
  let a := wAt (wordsOf p) 0
  if bit a 16 then stOk
  else
    match tabGet (gatherParts op staged) (fld a 5 0) with
    | none => stBadState
    | some r => if r.last then stBadState else if r.flag != flag then stBadParam else stOk

def chkLayout (s : State) (staged : List Packet) (p : List Byte) : Nat :=
  let a := wAt (wordsOf p) 0
  let n := 8 + 4 * ceilDiv (layNmem p) 2 + 4 * ceilDiv (3 * layNtri p) 2
  let outs := layMembers p ++ (layTris p).flatMap segOf
  if p.length = n ∧ fld a 7 5 = 0 ∧ fld a 15 9 = 0 ∧ fld a 31 18 = 0 ∧ layPadOk p = true
      ∧ outs.all (fun o => s.outExists o || o == 0xFFFF) = true then
    partStatus 0x0402 staged p (bit a 8)
  else stBadParam

def chkArray (s : State) (staged : List Packet) (p : List Byte) : Nat :=
  let w := wordsOf p
  let a := wAt w 0
  let n := fld (wAt w 2) 10 0
  if p.length = 12 + 8 * n ∧ fld (wAt w 2) 31 11 = 0 ∧ fld a 8 6 = 0 ∧ fld a 15 10 = 0 ∧ fld a 31 18 = 0
      ∧ ((chunk 2 1024 (w.drop 3)).all fun e => s.outExists (fld (wAt e 0) 15 0)) = true
      ∧ (bit a 16 = false ∨ (fld (wAt w 1) 5 0 ≤ 32 ∧ fld (wAt w 1) 15 6 = 0 ∧ gainCodeOk (fld (wAt w 1) 31 16) = true)) then
    partStatus 0x0403 staged p (bit a 9)
  else stBadParam

/-- Layouts and arrays a transaction writes whole (R266). -/
def applyParts (l : List Packet) (s : State) : State :=
  let s := (gatherParts 0x0402 l).foldl (fun s e =>
    if !e.2.last then s
    else if e.2.members.isEmpty then { s with cm := { s.cm with layouts := tabDel s.cm.layouts e.1 } }
    else
      let f := s.cm.num.loc
      let r : Layout := { is3d := e.2.flag, members := e.2.members.map f, tris := e.2.tris.map fun l => l.map f }
      { s with cm := { s.cm with layouts := tabSet s.cm.layouts e.1 r } }) s
  (gatherParts 0x0403 l).foldl (fun s e =>
    if !e.2.last then s
    else if e.2.entries.isEmpty then { s with cm := { s.cm with arrays := tabDel s.cm.arrays e.1 } }
    else
      let es := e.2.entries.map fun (x : ArrEntry) => { x with out := s.cm.num.loc x.out }
      let r : ArrayRec := { closed := e.2.flag, taper := e.2.taper, gain := e.2.gain, entries := es }
      { s with cm := { s.cm with arrays := tabSet s.cm.arrays e.1 r } }) s

/-! ### Whole tables (R43, R44, R107 check 1) -/

/-- Faults of a layout record itself: vertices, duplicates, dimension (R43). -/
def layoutShapeBad (g : Parts) : Bool :=
  !noDup g.members ||
  g.tris.any fun t => t.length != (if g.flag then 3 else 2) || t.contains 0xFFFF || !noDup t || t.any (!g.members.contains ·)

/-- Degenerate triangles and speakers at the origin, at the positions in force (R43). -/
def layoutGeomBad (c : Committed) (l : Layout) : Bool :=
  l.tris.any fun t =>
    t.any (fun o =>
      let p := (c.spk o).pos
      let q := if l.is3d then p else { p with z := 0 }
      !(geTh 9 q.v3.len fxEps16) || !(geTh 9 p.v3.len fxEps16)) ||
    !(geTh 10 (triInverse l.is3d (triDirs c l t)).1.natAbs fxEps16)

/-- More than 16 triangles in a cell or sector (R43). -/
def layoutCrowded (c : Committed) (l : Layout) : Bool :=
  let ts := layoutTris c l
  (List.range (if l.is3d then 384 else 64)).any fun cell => decide (16 < (cellList l.is3d ts cell).length)

/-- An array entry relies on a zero aim vector, or an output stands in two places (R44). -/
def arraysBad (c : Committed) : Bool :=
  let all := c.arrays.flatMap fun e => e.2.entries
  !noDup (all.map (·.out)) ||
  all.any fun e =>
    let k := c.spk e.out
    e.nx == 0 && e.ny == 0 && e.nz == 0 && k.aimX == 0 && k.aimY == 0 && k.aimZ == 0

/-- The array a speaker is in, or 0x7F (R42). -/
def arrayOf (c : Committed) (o : Nat) : Nat :=
  match c.arrays.find? (fun e => e.2.entries.any (·.out == o)) with
  | some e => e.1
  | none => 0x7F

/-! ### Routing (R81 to R85) -/

def chkDin (_ : State) (_ : List Packet) (p : List Byte) : Nat :=
  listOk 2 p fun w => fld (wAt w 0) 31 8 == 0 && fld (wAt w 1) 30 15 == 0

def applyDin (p : List Byte) (s : State) : State :=
  (listOf 2 p).foldl (fun s w =>
    let d : Din := { src := fld (wAt w 1) 14 0, mute := bit (wAt w 1) 31 }
    { s with cm := { s.cm with dins := tabSet s.cm.dins (fld (wAt w 0) 7 0) d } }) s

def chkXp (s : State) (_ : List Packet) (p : List Byte) : Nat :=
  listOk 2 p fun w => fld (wAt w 0) 30 18 == 0 && decide (fld (wAt w 0) 17 8 < s.outputs) && fld (wAt w 1) 31 16 == 0 &&
    gainCodeOk (fld (wAt w 1) 15 0)

/-- Key of a crosspoint: outputs first, then direct inputs, the order of the sums (R78). -/
def xpKey (x : Xp) : Nat := x.out * 256 + x.din

def applyXp (p : List Byte) (s : State) : State :=
  (listOf 2 p).foldl (fun s w =>
    let x : Xp :=
      { din := fld (wAt w 0) 7 0
        out := fld (wAt w 0) 17 8
        en := bit (wAt w 0) 31
        gain := signedOf 16 (fld (wAt w 1) 15 0) }
    { s with cm := { s.cm with xps := insertBy xpKey x (s.cm.xps.filter fun y => xpKey y != xpKey x) } }) s

/-- SMP_OUT value (R93): AUTO valid, TRIM in range, reserved bits zero. -/
def smpOutOk (v : Word) : Bool := fld v 31 21 == 0 && fld v 20 19 != 3 && gainCodeOk (fld v 15 0)

def chkOut (s : State) (_ : List Packet) (p : List Byte) : Nat :=
  listOk 2 p fun w => decide ((wAt w 0).toNat < s.outputs) && smpOutOk (wAt w 1)

def smpOut (o : Nat) : Nat := R.smpOut + 4 * o

def applyOut (p : List Byte) (s : State) : State :=
  (listOf 2 p).foldl (fun s w => { s with cm := s.cm.setReg (smpOut (wAt w 0).toNat) (wAt w 1) }) s

/-- SMP_SP value (R94). -/
def smpSpOk (outs : Nat) (v : Word) : Bool := fld v 30 25 == 0 && decide (fld v 24 15 < outs)

def chkSp (s : State) (_ : List Packet) (p : List Byte) : Nat :=
  listOk 3 p fun w => decide ((wAt w 0).toNat < 64) && smpSpOk s.outputs (wAt w 1) && fld (wAt w 2) 31 16 == 0 &&
    gainCodeOk (fld (wAt w 2) 15 0)

def applySp (p : List Byte) (s : State) : State :=
  (listOf 3 p).foldl (fun s w =>
    let c := 4 * (wAt w 0).toNat
    { s with cm := (s.cm.setReg (R.smpSp + c) (wAt w 1)).setReg (R.smpSpGain + c) (wAt w 2) }) s

/-- Enabled standpipe channels of a committed state: channel and register value. -/
def spEnabled (c : Committed) : List (Nat × Word) :=
  (List.range 64).filterMap fun i => let v := c.reg (R.smpSp + 4 * i); if bit v 31 then some (i, v) else none

/-- R85: destinations are in standpipe mode and no two channels share one. -/
def standpipeBad (c : Committed) : Bool :=
  let l := spEnabled c
  !noDup (l.map fun e => fld e.2 24 15) || l.any fun e => !bit (c.reg (smpOut (fld e.2 24 15))) 18

/-! ### Ramp classes (R261) -/

def chkRamp (_ : State) (_ : List Packet) (p : List Byte) : Nat :=
  listOk 2 p fun w => decide ((wAt w 0).toNat ≤ 4) && fld (wAt w 1) 30 14 == 0 &&
    decide (1 ≤ fld (wAt w 1) 13 0 ∧ fld (wAt w 1) 13 0 ≤ 10000)

def applyRamp (p : List Byte) (s : State) : State :=
  (listOf 2 p).foldl (fun s w => { s with cm := s.cm.setReg (R.cmdRamp + 4 * (wAt w 0).toNat) (wAt w 1) }) s

def rampClass (c : Committed) (n : Nat) : Word := c.reg (R.cmdRamp + 4 * n)

end Sys2Proof.Machine
end

