-- ==== Sys2Proof/Machine/Wells.lean ====
section
/-! DEFINITION. The cistern's regions and contiguous allocations in them (R284), and the wells (R66, R67). -/

namespace Sys2Proof.Machine

/-! ### Runs: pairs of first unit and length, ascending -/

abbrev Run := Nat × Nat

/-- Join a unit run to a list that ends before it. -/
def joinRun (l : List Run) (r : Run) : List Run :=
  match l.reverse with
  | (a, n) :: t => if a + n = r.1 then ((a, n + r.2) :: t).reverse else l ++ [r]
  | [] => [r]

/-- Remove an occupied interval from free runs. -/
def cutRun (free : List Run) (occ : Run) : List Run :=
  free.flatMap fun (a, n) =>
    let e := a + n
    let oe := occ.1 + occ.2
    if oe ≤ a ∨ e ≤ occ.1 then [(a, n)]
    else (if a < occ.1 then [(a, occ.1 - a)] else []) ++ (if oe < e then [(oe, e - oe)] else [])

/-- Start of the first run of at least `n` units. -/
def firstFit (free : List Run) (n : Nat) : Option Nat := (free.find? fun r => decide (n ≤ r.2)).map (·.1)

def bankCfg (c : Committed) (n : Nat) : Word := c.reg (R.cisBankCfg + 4 * n)
def bankRegion (c : Committed) (n : Nat) : Nat := fld (bankCfg c n) 2 0

def regionBanks (c : Committed) (region : Nat) : List Nat := (List.range 256).filter fun n => bankRegion c n == region

/-- Runs of a region in units, `u` units to a bank. -/
def regionRuns (c : Committed) (region u : Nat) : List Run :=
  (regionBanks c region).foldl (fun l n => joinRun l (n * u, u)) []

/-! ### Wells: units of 256 samples, 512 to a bank -/

def wellOcc (t : Tab Well) : List Run := t.map fun e => (e.2.base, e.2.units)

def wellFree (c : Committed) : List Run := (wellOcc c.wells).foldl cutRun (regionRuns c 0 512)

def freeUnits (l : List Run) : Nat := sumNat (l.map (·.2))

def largestRun (l : List Run) : Nat := maxNat (l.map (·.2))

/-- PMP_WELL_DFLT of a map: the region divided by 1,024 in whole units, at least 1 (R67, R286). -/
def wellDefault (c : Committed) : Nat := max 1 ((regionBanks c 0).length * 512 / 1024)

/-- Place wells in the order given; none when one finds no run. -/
def placeWells (k : Nat) (c : Committed) : List (Nat × Nat) → Option Committed
  | [] => some c
  | (o, u) :: t =>
    match firstFit (wellFree c) u with
    | none => none
    | some b => placeWells k { c with wells := tabSet c.wells o { base := b, units := u, birth := k } } t

/-- The last length each object is given by the OP_WELL_SIZE records of a transaction. -/
def wellSizes (l : List Packet) : Tab Nat :=
  l.foldl (fun t pk => if pk.op != 0x0304 then t
    else (listOf 2 pk.payload).foldl (fun t w => tabSet t (wAt w 0).toNat (wAt w 1).toNat) t) []

/-- Objects that leave OFF without a well (R67): `old` is the state before the transaction. -/
def leavers (old c : Committed) (sizes : Tab Nat) : List Nat :=
  (c.objs.filter fun e => e.2.mode != 0 && (old.obj e.1).mode == 0 && (tabGet c.wells e.1).isNone
    && (tabGet sizes e.1).isNone).map (·.1)

/-- R67: the frees of a transaction, then its allocations in ascending object ID. -/
def planWells (k : Nat) (old c : Committed) (l : List Packet) : Option Committed :=
  let sizes := wellSizes l
  let freed := { c with wells := c.wells.filter fun e => (tabGet sizes e.1).isNone }
  let dflt := min 256 (max 1 (fld (c.reg R.pmpWellDflt) 8 0))
  let want := sortBy (·.1) ((sizes.filter (·.2 != 0)) ++ (leavers old c sizes).map fun o => (o, dflt))
  placeWells k freed want

/-- A free of the well of an object that is not OFF (R67, R107 check 3). -/
def badFree (c : Committed) (l : List Packet) : Bool := (wellSizes l).any fun e => e.2 == 0 && (c.obj e.1).mode != 0

/-- R286: wells that touch a bank leaving region 0 are freed, and objects that lose theirs get new ones. -/
def rehomeWells (k : Nat) (c : Committed) : Option Committed :=
  let banks := regionBanks c 0
  let inside (w : Well) : Bool := (List.range 2).all fun i => banks.contains ((w.base + i * (w.units - 1)) / 512)
  let lost := (c.wells.filter fun e => !inside e.2).map (·.1)
  let c' := { c with wells := c.wells.filter fun e => inside e.2 }
  let c' := c'.setReg R.pmpWellDflt (wd (wellDefault c'))
  placeWells k c' ((lost.filter fun o => (c.obj o).mode != 0).map fun o => (o, min 256 (wellDefault c')))

/-- Largest usable delay of a well, Q18.8 (R68). -/
def wellDmax (B : Nat) (w : Well) : Nat := (w.units * 256 - 2 * B - 3) * 256

/-- PMP_WELL_FREE and PMP_WELL_RUN follow the wells in force (R89). -/
def wellRegs (s : State) : State :=
  let f := wellFree s.cm
  (s.setNat R.pmpWellFree (freeUnits f)).setNat R.pmpWellRun (largestRun f)

end Sys2Proof.Machine
end

