-- ==== Sys2Proof/Machine/Cis.lean ====
section
/-! DEFINITION. The cistern as memory: bytes and words, owners, errors, and the render fabric's reads and writes (R283 to
R297). Offsets count from 0x1000_0000. -/

namespace Sys2Proof.Machine

/-! ### Bytes: a sorted list without zero bytes -/

/-- The canonical form of the cistern: offsets strictly rising, no zero byte listed. -/
def memWf : List Host.Cell → Bool
  | [] => true
  | [c] => c.2 != 0
  | c :: d :: t => c.2 != 0 && decide (c.1 < d.1) && memWf (d :: t)

/-- A byte; unlisted ones read zero. -/
def memGet (m : List Host.Cell) (a : Nat) : Byte :=
  match m with
  | [] => 0
  | c :: t => if c.1 = a then c.2 else if a < c.1 then 0 else memGet t a

/-- Write one byte, keeping the form. -/
def memSet (m : List Host.Cell) (a : Nat) (v : Byte) : List Host.Cell :=
  match m with
  | [] => if v = 0 then [] else [(a, v)]
  | c :: t =>
    if c.1 = a then (if v = 0 then t else (a, v) :: t)
    else if a < c.1 then (if v = 0 then c :: t else (a, v) :: c :: t)
    else c :: memSet t a v

def memSetBytes (m : List Host.Cell) (a : Nat) (l : List Byte) : List Host.Cell :=
  match l with
  | [] => m
  | b :: t => memSetBytes (memSet m a b) (a + 1) t

def memBytes (m : List Host.Cell) (a n : Nat) : List Byte := (List.range n).map fun i => memGet m (a + i)

def memWord (m : List Host.Cell) (a : Nat) : Word := wAt (wordsOf (memBytes m a 4)) 0

def cisSize : Nat := 0x8000000

def bankOf (off : Nat) : Nat := off / 0x80000

/-- Write bytes; the words written are encoded afresh, so their upsets are gone (R296). -/
def cisWrite (s : State) (off : Nat) (l : List Byte) : State :=
  { s with cis := { s.cis with
    mem := memSetBytes s.cis.mem off l
    upsets := s.cis.upsets.filter fun e => decide (e.1 + 4 ≤ off ∨ off + l.length ≤ e.1) } }

def cisWriteWord (s : State) (off : Nat) (v : Word) : State := cisWrite s off (bytesOfWord v)

/-! ### Banks -/

/-- The map in force in a tick: a region change takes effect at the boundary of its effective block (R286). -/
def State.mapCm (s : State) : Committed := s.cmAt s.tick

def bankOwnReg (n : Nat) : Nat := R.cisBankOwn + 4 * n
def bankOwner (s : State) (n : Nat) : Nat := s.field (bankOwnReg n) 4 0
def bankPending (s : State) (n : Nat) : Bool := s.bit (bankOwnReg n) 31
def bankTarget (s : State) (n : Nat) : Nat := s.field (bankOwnReg n) 20 16
def bankLine (s : State) (n : Nat) : Bool := bit (bankCfg s.mapCm n) 8

/-! ### Errors (R296) -/

/-- Bit errors under one check word: a word in word mode, a quarter line in line mode. -/
def errCount (s : State) (off : Nat) : Nat :=
  let one (w : Nat) : Nat := match tabGet s.cis.upsets w with
    | some d => if d then 2 else 1
    | none => 0
  if bankLine s (bankOf off) then one (off / 8 * 8) + one (off / 8 * 8 + 4) else one (off / 4 * 4)

/-- FOREIGN_INFO and UE_INFO (R309). -/
def accessInfo (s : State) (bank port client : Nat) (write : Bool) : Word :=
  wd (bank * 65536 + port * 16384 + b2n write * 8192 + client * 32 + bankOwner s bank)

/-- A corrected error: counted, and the word waits for the scrubber. -/
def logCe (s : State) (off : Nat) : State :=
  let s := s.inc R.cisCntCe
  let w := if bankLine s (bankOf off) then [off / 8 * 8, off / 8 * 8 + 4] else [off / 4 * 4]
  { s with cis := { s.cis with fixes := (s.cis.fixes ++ w.filter fun x => (tabGet s.cis.upsets x).isSome).dedup } }

/-- An uncorrectable error: counted, recorded, raised. -/
def logUe (s : State) (off port client : Nat) : State :=
  let s := s.inc R.cisCntUe
  let s := (s.setNat R.cisUeAddr (0x10000000 + off)).setReg R.cisUeInfo (accessInfo s (bankOf off) port client false)
  s.evt R.cisEvtStatus 1

/-- A foreign access (R293). -/
def logForeign (s : State) (off port client : Nat) (write : Bool) : State :=
  let s := s.inc R.cisCntForeign
  let s := (s.setNat R.cisForeignAddr (0x10000000 + off)).setReg R.cisForeignInfo
    (accessInfo s (bankOf off) port client write)
  s.evt R.cisEvtStatus 0

/-! ### Render fabric -/

/-- Codes of the render clients (R309). -/
def clIngress : Nat := 0
def clEgress : Nat := 1
def clMeas : Nat := 2
def clCor : Nat := 3
def clMixer : Nat := 4
def clPump (p : Nat) : Nat := 8 + p

/-- A render client of owner `own` writes a word. -/
def renderWrite (s : State) (client own off : Nat) (v : Word) : State :=
  if bankOwner s (bankOf off) = own then cisWriteWord s off v else logForeign s off 0 client true

/-- A render client reads a word: the value, and whether an uncorrectable error met it. -/
def renderRead (s : State) (client own off : Nat) : State × Word × Bool :=
  if bankOwner s (bankOf off) ≠ own then (logForeign s off 0 client false, 0, false)
  else
    let e := errCount s off
    if 2 ≤ e then (logUe s off 0 client, 0, true)
    else if e = 1 then (logCe s off, memWord s.cis.mem off, false)
    else (s, memWord s.cis.mem off, false)

/-- An uncorrectable read by a render client fails the unit's self-check for the tick. -/
def failSelf (s : State) : State := { s with cis := { s.cis with selfOk := false } }

/-! ### Wells in memory (R66, R69) -/

def wellOff (w : Well) (t : Nat) : Nat := 1024 * w.base + 4 * (t % (w.units * 256))

/-- The sample with render sample time `t` as the pumps of the block ending at `last` see it: zero before the well's birth
and after the block. -/
def wellSample (s : State) (w : Well) (birth last : Nat) (t : Int) : Int :=
  if t < birth ∨ t > last ∨ t < 0 then 0
  else
    let off := wellOff w t.toNat
    if bankOwner s (bankOf off) ≠ 1 then 0 else (memWord s.cis.mem off).toInt

/-- A pump reads a window: foreign banks and errors are logged; the answer says whether the entry is muted (R80). -/
def wellWindow (s : State) (p : Nat) (w : Well) (lo hi : Int) (birth : Nat) : State × Bool :=
  let n := (hi - lo + 1).toNat
  (List.range n).foldl (fun (s, bad) (i : Nat) =>
    let t := lo + i
    if t < birth ∨ t < 0 then (s, bad)
    else
      let r := renderRead s (clPump p) 1 (wellOff w t.toNat)
      (r.1, bad || r.2.2)) (s, false)

/-! ### Scrubber (R296, R297) -/

/-- SCRUB_WRITEBACK: the scrubber writes a bank's corrected words back at its next idle cycle. -/
def doScrubWriteback (bank : Nat) (s : State) : State :=
  let mine := s.cis.fixes.filter fun o => bankOf o == bank
  { s with cis := { s.cis with
    upsets := s.cis.upsets.filter fun e => !(mine.contains e.1 && !e.2)
    fixes := s.cis.fixes.filter fun o => !mine.contains o } }

def execScrubWriteback (bank : Nat) (s : State) : Host.Outcome State Fault Refusal :=
  .next (settle (doScrubWriteback bank s))

/-- Lines in the cistern. -/
def cisLines : Nat := 0x400000

/-- The scrubber reads a line: upset words in it are corrected or logged. -/
def scrubWords (s : State) (first n : Nat) : State :=
  let hit := (s.cis.upsets.map (·.1)).filter fun o =>
    decide ((o / 32 + cisLines - first) % cisLines < n)
  hit.foldl (fun s o =>
    let e := errCount s o
    if 2 ≤ e then logUe s o 3 0 else if e = 1 then logCe s o else s) s

/-- R297: the lines of one tick. -/
def scrubTick (s : State) : State :=
  let n := s.field R.cisScrubRate 15 0
  if s.bit R.cisCtrl 0 then
    let p := s.regNat R.cisScrubPos
    (scrubWords s p n).setNat R.cisScrubPos ((p + n) % cisLines)
  else s

/-! ### Reads of the bus matrix and of the window -/

/-- Check units that `n` bytes at an offset touch, by first offset (R296). -/
def checkUnits (s : State) (off n : Nat) : List Nat :=
  let u := if bankLine s (bankOf off) then 8 else 4
  (List.range (ceilDiv (off % u + n) u)).map fun i => off / u * u + u * i

/-- A read through a port: the data, zero when an uncorrectable error met it, and whether one did (R296, R301). -/
def portRead (s : State) (off n port client : Nat) : State × List Byte × Bool :=
  let r := (checkUnits s off n).foldl (fun (s, ue) u =>
    let e := errCount s u
    if 2 ≤ e then (logUe s u port client, true) else if e = 1 then (logCe s u, ue) else (s, ue)) (s, false)
  (r.1, if r.2 then List.replicate n 0 else memBytes s.cis.mem off n, r.2)

/-! ### Region changes (R286) -/

/-- Zero a bank. -/
def clearBank (s : State) (n : Nat) : State :=
  { s with cis := { s.cis with
    mem := s.cis.mem.filter fun c => bankOf c.1 != n
    upsets := s.cis.upsets.filter fun e => bankOf e.1 != n
    fixes := s.cis.fixes.filter fun o => bankOf o != n } }

/-- Owner of a bank of a region at entry (R284). -/
def regionOwner (r : Nat) : Nat := if r = 0 then 1 else if r = 1 then 2 else if r = 2 then 3 else if r = 3 then 4 else 0

/-- At the boundary of the effective block: `c0` and `c1` are the maps before and after. -/
def mapChange (c0 c1 : Committed) (s : State) : State :=
  let moved := (List.range 256).filter fun n => bankCfg c0 n != bankCfg c1 n
  if moved.isEmpty then s
  else
    let s := moved.foldl (fun s n =>
      let s := clearBank s n
      if bankRegion c0 n = bankRegion c1 n then s
      else
        let s := s.setNat (bankOwnReg n) (regionOwner (bankRegion c1 n))
        { s with cis := { s.cis with drains := tabDel s.cis.drains n } }) s
    { s with cis := { s.cis with clearing := moved } }

/-- Region 3 gained or lost a bank (R286 item 4). -/
def measMapChanged (c0 c1 : Committed) : Bool := regionBanks c0 3 != regionBanks c1 3

end Sys2Proof.Machine
end

