-- ==== Sys2Proof/Machine/Geo.lean ====
section
/-! DEFINITION. The geometry engine block by block: paths, route changes and cuts (R40, R112 to R114, R554), evaluation and
publishing (R38, R57 to R63). -/

namespace Sys2Proof.Machine

def State.setLegs (s : State) (l : List Leg) : State := { s with geo := { s.geo with legs := l } }

def State.outRt (s : State) (o : Nat) : OutRt := tabGetD s.smp.outs o {}

def State.setOut (s : State) (o : Nat) (r : OutRt) : State := { s with smp := { s.smp with outs := tabSet s.smp.outs o r } }

/-! ### Standpipe mode at a block (R84) -/

/-- Mode and polarity an output has at block `b`. -/
def OutRt.spAt (r : OutRt) (b : Nat) : Bool :=
  match r.change with
  | some c => (match c.sw with
    | some w => if w ≤ b then c.sp else r.sp
    | none => r.sp)
  | none => r.sp

def OutRt.polAt (r : OutRt) (b : Nat) : Bool :=
  match r.change with
  | some c => (match c.sw with
    | some w => if w ≤ b then c.pol else r.pol
    | none => r.pol)
  | none => r.pol

/-- Outputs in standpipe mode at a block. -/
def spList (s : State) (b : Nat) : List Nat := (s.smp.outs.filter fun e => e.2.spAt b).map (·.1)

/-! ### Order of entries (R61) -/

def legKey (l : Leg) : Nat :=
  let p := l.out / 32
  (p * 4096 + (l.obj + 4096 - 32 * p) % 4096) * 1024 + l.out

def sortLegs (l : List Leg) : List Leg := sortBy legKey l

/-! ### Route changes (R554) -/

/-- Vertices of a layout, or none. -/
def vertsOf (c : Committed) (i : Nat) : List Nat :=
  match tabGet c.layouts i with
  | some l => l.vertices
  | none => []

def arrOuts (c : Committed) (i : Nat) : List Nat :=
  match tabGet c.arrays i with
  | some a => a.entries.map (·.out)
  | none => []

/-- Speaker fields whose change is a route change. -/
def spkRoute (r : SpkRec) : Bool × Bool × Nat := (r.enable, r.nozone, r.zone)

def excl (r : ObjRec) : Nat := r.exclLo + r.exclHi * 2 ^ 32

def arrMask (r : ObjRec) : Nat := r.targetLo + r.targetHi * 2 ^ 32

/-- Outputs whose pairs fade for an object that is on before and after: `r0` under `c0`, `r1` under `c1`. -/
def fadeSet (c0 c1 : Committed) (sosCut : Bool) (r0 r1 : ObjRec) : List Nat :=
  let both := (pairOuts c0 r0 ++ pairOuts c1 r1).dedup
  if r0.mode != r1.mode || (r1.mode == 2 && r0.focus != r1.focus) ||
      (decide (3 ≤ r1.mode) && r0.targetLo != r1.targetLo) then both
  else
    let spk := both.filter fun o => spkRoute (c0.spk o) != spkRoute (c1.spk o)
    let dif := both.filter fun o => (pairOuts c0 r0).contains o != (pairOuts c1 r1).contains o
    let own : List Nat := match r1.mode with
      | 1 => (List.range 32).flatMap fun i =>
          let a := r0.targetLo.testBit i
          let b := r1.targetLo.testBit i
          if a != b then (if a then vertsOf c0 i else vertsOf c1 i)
          else if !b then []
          else if tabGet c0.layouts i != tabGet c1.layouts i ||
              (vertsOf c1 i).any (fun o => (c0.spk o).pos != (c1.spk o).pos) then vertsOf c0 i ++ vertsOf c1 i
          else if (vertsOf c1 i).any (fun o => !(c1.spk o).nozone &&
              ((excl r0).testBit (c1.spk o).zone != (excl r1).testBit (c1.spk o).zone)) then vertsOf c1 i
          else []
      | 2 => (List.range 64).flatMap fun i =>
          let a := (arrMask r0).testBit i
          let b := (arrMask r1).testBit i
          if a != b then (if a then arrOuts c0 i else arrOuts c1 i)
          else if b && tabGet c0.arrays i != tabGet c1.arrays i then arrOuts c0 i ++ arrOuts c1 i
          else []
      | _ => []
    let sos := if sosCut && (r1.mode == 2 || (r1.mode == 1 && r1.distDelay)) then both else []
    both.filter fun o => spk.contains o || dif.contains o || own.contains o || sos.contains o

/-- Weight S of an incoming path at the end of block `b` (R112). -/
def legIn (l : Leg) (b : Nat) : Nat := xfSin (b + 1 - l.start) l.len

/-- A path whose pair fades at block `k` over `M` blocks becomes outgoing (R112, R114). -/
def outgoing (k M rule : Nat) (l : Leg) : Leg :=
  match l.kind with
  | .plain => { l with
      kind := .xfOut
      rule := if l.rule = 0 then rule else l.rule
      start := k
      len := M }
  | .xfIn => { l with
      kind := .xfOut
      rule := if l.rule = 0 then rule else l.rule
      w := some (xfSin (k - l.start) l.len)
      start := k
      len := M
      cutHold := false }
  | .xfOut => { l with start := k, len := 1 }

/-- Fade the pairs `F` of an object at block `k` over `M` blocks into the new pair set `N`; `rule` keeps the old rule. -/
def fadePairs (k M rule o : Nat) (F N : List Nat) (legs : List Leg) : List Leg :=
  let kept := legs.map fun l => if l.obj == o && F.contains l.out then outgoing k M rule l else l
  kept ++ ((N.filter (· < 0x10000)).filter fun x => F.contains x || !(legs.any fun l => l.obj == o && l.out == x)).map fun x =>
    { obj := o, out := x, kind := if F.contains x then .xfIn else .plain, start := k, len := M }

/-- Keep a rule for outgoing paths and for objects going OFF. -/
def addRule (s : State) (r : Rule) : State × Nat :=
  let n := s.geo.ruleNum
  ({ s with geo := { s.geo with rules := tabSet s.geo.rules n r, ruleNum := n + 1 } }, n)

/-- Blocks of a route fade (R112). -/
def routeLen (c : Committed) : Nat := msBlocks (fld (c.reg R.cmdRouteXfade) 9 0)

/-- The route changes between the state in force before boundary c and the one after it, at effective block `k` (R554). -/
def routeChanges (k : Nat) (c0 : Committed) (sosCut : Bool) (s : State) : State :=
  let c1 := s.cm
  let M := routeLen c1
  let sps := spList s (k - 1)
  let a := addRule s { cm := c0, ceff := if sosCut then some s.geo.ceff else none, sps := sps }
  let old := a.2
  let ids := ((c0.objs.map (·.1)) ++ (c1.objs.map (·.1))).dedup
  ids.foldl (fun s o =>
    let r0 := c0.obj o
    let r1 := c1.obj o
    let rt := s.rt o
    if r1.mode = 0 then
      if r0.mode = 0 then s
      else
        -- the object keeps its rule while its gain ramps to zero
        let g := addRule s
          { cm := c0, sps := sps, off := some (newRamp (wd (fld (rampClass c1 0) 13 0)) 0x100000 (-32768) k) }
        let s := g.1.setRt o { rt with rule := g.2, held := false }
        s.setLegs (s.geo.legs.map fun l => if l.obj == o && l.rule == 0 then { l with rule := g.2 } else l)
    else if r0.mode = 0 then
      let held := (s.geo.legs.filter (·.obj == o)).map (·.out)
      let s := s.setRt o { rt with rule := 0, held := false }
      let n := pairOuts c1 r1
      s.setLegs (fadePairs k M old o (held ++ n).dedup n s.geo.legs)
    else
      let f := fadeSet c0 c1 sosCut r0 r1
      if f.isEmpty then s
      else s.setLegs (fadePairs k M old o f (pairOuts c1 r1) s.geo.legs)) a.1

/-- Outputs whose mode switches at block `k` (R84): every object's pairs on them fade. -/
def modeFades (k : Nat) (s : State) : State :=
  let sw := s.smp.outs.filterMap fun e => match e.2.change with
    | some c => if c.sw = some k ∧ c.sp ≠ e.2.sp then some (e.1, c.len) else none
    | none => none
  if sw.isEmpty then s
  else
    let a := addRule s { cm := s.cm, sps := spList s (k - 1) }
    sw.foldl (fun s (out, M) =>
      let objs := ((s.geo.legs.filter (·.out == out)).map (·.obj)).dedup
      objs.foldl (fun s o =>
        if (s.rt o).rule != 0 then s
        else s.setLegs (fadePairs k M a.2 o [out] [out] s.geo.legs)) s) a.1

/-! ### Cuts (R40, R114) -/

/-- The paths of a cut object at block `k`. -/
def cutPairs (k o : Nat) (legs : List Leg) : List Leg :=
  let mine := legs.filter (·.obj == o)
  let fresh := (mine.filter fun l => l.kind == .xfIn && l.start == k && l.len != 1).map (·.out)
  let conv := legs.map fun l =>
    if l.obj != o then l
    else if fresh.contains l.out then
      (match l.kind with
       | .xfOut => if l.start = k ∧ l.len ≠ 1 then { l with hold := some (l.lastDelay, l.lastGain) } else l
       | .xfIn => { l with cutHold := true }
       | .plain => l)
    else { outgoing k 1 l.rule l with hold := some (l.lastDelay, l.lastGain) }
  let outs := (mine.filter fun l => l.kind != .xfOut && !fresh.contains l.out).map (·.out)
  conv ++ outs.map fun x =>
    { obj := o
      out := x
      kind := .xfIn
      rule := ((mine.find? fun l => l.out == x && l.kind != .xfOut).map (·.rule)).getD 0
      start := k
      len := 1
      cutHold := true }

/-- Before block `k`: cut blocks and endings of one block are over (R40, R114). -/
def endCuts (k : Nat) (legs : List Leg) : List Leg :=
  (legs.filter fun l => !(l.kind == .xfOut && l.len == 1 && decide (l.start < k))).map fun l =>
    let l := if l.start < k then { l with cutHold := false } else l
    if l.kind == .xfIn && l.len == 1 && decide (l.start < k) then { l with kind := .plain } else l

/-! ### Load (R87, R108) -/

/-- Pair-samples on pump `p` from paths and crosspoints, in entries. -/
def pumpEntries (legs : List Leg) (xps : List XpRt) (p : Nat) : Nat :=
  (legs.filter fun l => l.out / 32 == p).length + (xps.filter fun x => x.out / 32 == p).length

def pumpCap : Nat := 1500000

/-- Pumps present (R2). -/
def State.pumps (s : State) : Nat := s.outputs / 32

def moduleCap (s : State) : Nat := s.pumps * pumpCap

def loadFits (s : State) (legs : List Leg) : Bool :=
  (List.range s.pumps).all (fun p => decide (pumpEntries legs s.smp.xps p * s.blockLen ≤ pumpCap)) &&
  decide ((legs.length + s.smp.xps.length) * s.blockLen ≤ moduleCap s)

/-! ### Evaluation of one block -/

/-- R38 and R41 for one object at block `k`: promotion, and whether the block is a cut and reserved. -/
def stepObject (k o : Nat) (s : State) : State :=
  let rt := s.rt o
  let B := s.blockLen
  let p := promote B k rt.anchor rt.prev rt.queue 0 0 false
  let e := evalTraj B k p.anchor p.prev p.queue
  let s := s.inc R.geoCntKfPassed (p.promoted - 1)
  let s := if p.late = 0 then s else (s.inc R.geoCntKfLate p.late).evt R.geoEvtStatus 0
  let onTime := rt.placed || (p.cut && p.late == 0) ||
    (rt.queue.any fun q => q.cut && decide ((q.time : Int) ≤ evalPoint B k) && decide (evalPoint B (k - 1) < (q.time : Int)))
  let cut := p.cut || rt.placed || rt.cutDue
  let cutLegs := cutPairs k o s.geo.legs
  let fits := onTime || loadFits s cutLegs
  let s := if cut && fits then s.setLegs cutLegs else s
  let s := if cut && !fits then s.inc R.cmdCntCutDefer else s
  s.setRt o { rt with
    anchor := p.anchor
    prev := p.prev
    queue := p.queue
    placed := false
    cutDue := cut && !fits
    evPos := e.pos
    evExtW := e.extW
    evExtH := e.extH
    evGain := gainOfDb e.gain }

/-- The rule a path follows: tables, environment and the ramp of an object going OFF. -/
def legRule (s : State) (k rule : Nat) : Committed × GeoEnv × Option Ramp :=
  if rule = 0 then
    let l := spList s k
    (s.cm, { fs := s.fs, ceff := s.geo.ceff, sp := fun o => l.contains o }, none)
  else
    match tabGet s.geo.rules rule with
    | some r => (r.cm, { fs := s.fs, ceff := r.ceff.getD s.geo.ceff, sp := fun o => r.sps.contains o }, r.off)
    | none => (s.cm, { fs := s.fs, ceff := s.geo.ceff, sp := fun _ => false }, none)

/-- Targets of an object under a rule at block `k`. -/
def ruleTargets (s : State) (k o rule : Nat) : Targets :=
  let r := legRule s k rule
  let rt := s.rt o
  objTargets r.1 r.2.1 (r.1.obj o) { pos := rt.evPos, gain := 0, extW := rt.evExtW, extH := rt.evExtH }

/-- Delay change allowed from one block to the next, Q18.8 (R39). -/
def slewMax (s : State) : Nat := if s.rate96 then 1024 else 512

def slewDelay (lim : Nat) (l : Leg) (d : Nat) : Nat × Bool :=
  if l.lastIdx.isNone || l.cutHold then (d, false)
  else if l.lastDelay + lim < d then (l.lastDelay + lim, true)
  else if d + lim < l.lastDelay then (l.lastDelay - lim, true)
  else (d, false)

/-- Fade weights on a gain (R112, R114). -/
def fadeGain (k : Nat) (l : Leg) (g : Nat) : Nat :=
  let m := k + 1 - l.start
  match l.kind with
  | .plain => g
  | .xfIn => (rne (g * xfSin m l.len) 20).toNat
  | .xfOut =>
    let g := match l.w with
      | some w => (rne (g * w) 20).toNat
      | none => g
    (rne (g * xfCos m l.len) 20).toNat

/-- What publishing one path yields: the path with its new state, whether a slew or a gain clamp happened. -/
def publishLeg (s : State) (k : Nat) (tgt : Nat → Nat → Targets) (l : Leg) : Leg × Bool × Bool :=
  let rt := s.rt l.obj
  if rt.cutDue && l.lastIdx.isSome then (l, false, false)
  else
    match l.hold with
    | some (d, g) =>
      let g := if l.kind == .plain then g else (rne (g * xfCos (k + 1 - l.start) l.len) 20).toNat
      ({ l with lastDelay := d, lastGain := g }, false, false)
    | none =>
      let r := legRule s k l.rule
      let t := (tgt l.obj l.rule).list.find? (·.out == l.out)
      let d := (t.map (·.delay)).getD 0
      let g := (t.map (·.gain)).getD 0
      let off := match r.2.2 with
        | some o => [(o.at k).toNat]
        | none => []
      let fs := [(rt.gain.at k).toNat, rt.evGain] ++ off ++ [gainOfDb (r.1.spk l.out).gtrim]
      let pg := pubGain l.obj l.out g fs
      let sl := slewDelay (slewMax s) l (pubDelay d)
      ({ l with lastDelay := sl.1, lastGain := fadeGain k l pg.1 }, sl.2, pg.2 && l.kind != .xfOut)

/-- Objects the engine evaluates at a block: those that are not OFF, and those whose ramp to OFF still runs (R38). -/
def evalObjects (s : State) : List Nat :=
  sortBy id ((s.cm.objs.filter (fun e => e.2.mode != 0)).map (·.1) ++
    (s.geo.rts.filter (fun e => e.2.rule != 0 && !e.2.held)).map (·.1)).dedup

/-- Follow the record gain with the object ramp class (R35). -/
def followGain (k : Nat) (c : Committed) (o : Nat) (rt : ObjRt) : ObjRt :=
  { rt with gain := rt.gain.follow (rampClass c 0) (c.obj o).gain k }

/-- c_eff of block `k` (R59). -/
def stepSos (sosCut : Bool) (s : State) : State :=
  let t := sosTarget (s.cm.regNat R.geoSosNom) (s32 (s.cm.reg R.geoSosDelta))
  let c := if sosCut then min t (2 ^ 32 - 1) else slewSos s.geo.ceff (min t (2 ^ 32 - 1))
  { s with geo := { s.geo with ceff := c } }

/-- Counters of an evaluation by the rule in force (R63). -/
def countTargets (s : State) (t : Targets) : State :=
  let s := s.inc R.geoCntGap t.gap
  let s := s.inc R.geoCntExcl t.excl
  let s := if t.zone = 0 then s else (s.inc R.geoCntZone t.zone).evt R.geoEvtStatus 3
  if t.focus.isEmpty then s else (s.inc R.geoCntFocus t.focus.length).evt R.geoEvtStatus 4

/-- Publish block `k` (R57 to R63): `epoch` is the block's epoch. -/
def publish (k : Nat) (s : State) : State :=
  let ids := evalObjects s
  let keys := (s.geo.legs.map fun l => (l.obj, l.rule)).dedup ++ (ids.map fun o => (o, (s.rt o).rule))
  let memo := keys.dedup.map fun e => (e, ruleTargets s k e.1 e.2)
  let tgt (o r : Nat) : Targets := ((memo.find? fun e => e.1 == (o, r)).map (·.2)).getD {}
  let pub := s.geo.legs.map (publishLeg s k tgt)
  let legs := (pub.map (·.1)).zipIdx
  let ents : List Entry := legs.map fun (l, _) =>
    { obj := l.obj
      out := l.out
      delay := l.lastDelay
      gain := l.lastGain
      xfOut := l.kind == .xfOut
      xfIn := l.kind == .xfIn
      cutHold := l.cutHold
      pred := l.lastIdx }
  let slew := (pub.filter (·.2.1)).length
  let clamp := (pub.filter (·.2.2)).length
  let s := ids.foldl (fun s o => countTargets s (tgt o (s.rt o).rule)) s
  let s := if slew = 0 then s else (s.inc R.geoCntSlew slew).evt R.geoEvtStatus 2
  let s := if clamp = 0 then s else (s.inc R.geoCntGclamp clamp).evt R.geoEvtStatus 1
  let s := s.setLegs (legs.map fun (l, i) => { l with lastIdx := some i })
  let slot : Slot := { block := k, epoch := s.cm.epoch, entries := ents }
  let used := s.geo.legs.map (·.rule) ++ s.geo.rts.map (·.2.rule)
  let s := { s with geo := { s.geo with
    slots := (slot :: s.geo.slots).take 4
    rules := s.geo.rules.filter fun e => used.contains e.1 } }
  let s := (s.setNat R.geoPubEpoch s.cm.epoch).setNat64 R.geoPubTickLo k
  let s := (s.setNat R.geoSosEff s.geo.ceff).setNat R.geoPairs (s.geo.legs.filter (·.kind != .xfOut)).length
  (s.setNat R.geoPairsXf (s.geo.legs.filter (·.kind != .plain)).length).setNat R.geoEvals s.geo.legs.length

/-- The geometry engine's work for block `k` (R19 item 2): `c0` is the state in force before this boundary's commit. -/
def geometryBlock (k : Nat) (c0 : Committed) (sosCut : Bool) (s : State) : State :=
  let s := s.setLegs (endCuts k s.geo.legs)
  let s := routeChanges k c0 sosCut s
  let s := stepSos sosCut s
  let s := modeFades k s
  let s := { s with geo := { s.geo with rts := (s.cm.objs.map (·.1)).foldl (fun t o =>
    tabSet t o (followGain k s.cm o (tabGetD t o {}))) s.geo.rts } }
  let s := (evalObjects s).foldl (fun s o => stepObject k o s) s
  publish k (s.setLegs (sortLegs s.geo.legs))

/-! ### Commands -/

/-- Block the geometry engine evaluates next. -/
def nextGeo (s : State) : Nat := s.tick + 3

/-- ROUTE_FADE_END (R113): at the block after the fade the outgoing paths are gone and the incoming one is plain. -/
def doRouteFadeEnd (obj out : Nat) (s : State) : State :=
  let k := nextGeo s
  let done (l : Leg) : Bool := l.obj == obj && l.out == out && l.kind != .plain && decide (l.start + l.len ≤ k)
  if s.geo.legs.any done then
    s.setLegs ((s.geo.legs.filter fun l => !(done l && l.kind == .xfOut)).map fun l =>
      if done l then { l with kind := .plain } else l)
  else s

def execRouteFadeEnd (obj out : Nat) (s : State) : Host.Outcome State Fault Refusal :=
  .next (settle (doRouteFadeEnd obj out s))

/-- OBJ_OFF_RAMP_END (R554): the pairs are held at the delay last published, at zero gain (R46). -/
def doObjOffRampEnd (obj : Nat) (s : State) : State :=
  let rt := s.rt obj
  if rt.rule = 0 ∨ rt.held = true then s
  else
    match (tabGet s.geo.rules rt.rule).bind (·.off) with
    | none => s
    | some r =>
      if r.start + r.len ≤ nextGeo s then
        let s := s.setRt obj { rt with held := true }
        s.setLegs (s.geo.legs.map fun l =>
          if l.obj == obj && l.rule == rt.rule && l.hold.isNone then
            { l with hold := some (l.lastDelay, 0) }
          else l)
      else s

def execObjOffRampEnd (obj : Nat) (s : State) : Host.Outcome State Fault Refusal :=
  .next (settle (doObjOffRampEnd obj s))

/-- OUTPUT_MODE_SWITCH (R84): the change takes place at the first block after its ramp that geometry has not published yet. -/
def doOutputModeSwitch (out : Nat) (s : State) : State :=
  let r := s.outRt out
  match r.change with
  | none => s
  | some c =>
    if c.sw.isNone && decide (c.due ≤ nextGeo s) then
      s.setOut out { r with change := some { c with sw := some (nextGeo s) } }
    else s

def execOutputModeSwitch (out : Nat) (s : State) : Host.Outcome State Fault Refusal :=
  .next (settle (doOutputModeSwitch out s))

end Sys2Proof.Machine
end

