-- ==== Sys2Proof/Machine/Pump.lean ====
section
/-! DEFINITION. Pumps, sumps and bus mixer over one block (R68 to R83), and priming (R69). -/

namespace Sys2Proof.Machine

/-! ### Priming (R69) -/

/-- Block from which an object is primed since the birth of the well it has at block `b`. -/
def primedAt (rt : ObjRt) (birth : Nat) : Option Nat := (rt.primed.find? fun e => e.1 == birth).map (·.2)

/-- The object's signal is held back in block `b`. -/
def unprimed (s : State) (o b : Nat) : Bool :=
  match tabGet (s.cmAt b).wells o with
  | none => false
  | some w =>
    match primedAt (s.rt o) w.birth with
    | some j => decide (b < j)
    | none => true

def slotAt (s : State) (b : Nat) : List Entry :=
  match s.geo.slots.find? (fun t => t.block == b) with
  | some t => t.entries
  | none => []

/-- Delay and gain an entry starts its block from (R71, R74). -/
def entryFrom (prev : List Entry) (e : Entry) : Nat × Nat :=
  let p := match e.pred with
    | some i => (match prev[i]? with
      | some x => (x.delay, x.gain)
      | none => (e.delay, 0))
    | none => (e.delay, 0)
  if e.cutHold then (e.delay, p.2) else p

/-- No tap of any entry of the object reads a sample before its birth in block `b`. -/
def clearOfBirth (s : State) (o b : Nat) (w : Well) : Bool :=
  let B := s.blockLen
  ((slotAt s b).filter (·.obj == o)).all fun e =>
    let f := entryFrom (slotAt s (b - 1)) e
    decide ((w.birth * B : Int) ≤ (tapRange B (b * B) f.1 e.delay (some (wellDmax B w))).1)

/-- PMP_CTRL.PRIME_OBJ. -/
def primeObj (c : Committed) : Bool := bit (c.reg R.pmpCtrl) 0

/-- Every restored object is primed. -/
def allPrimed (s : State) : Bool := s.cm.wells.all fun e => !unprimed s e.1 s.tick

/-- WELL_PRIMED: in the tick of block j, the first whose taps all lie after the birth, the hold is released (R69). -/
def doWellPrimed (obj : Nat) (s : State) : State :=
  let j := s.tick
  match tabGet (s.cmAt j).wells obj with
  | none => s
  | some w =>
    let rt := s.rt obj
    if w.birth ≤ j ∧ (primedAt rt w.birth).isNone ∧ clearOfBirth s obj j w = true then
      let cls := wd (fld (rampClass (s.cmAt j) 2) 13 0)
      let s := s.setRt obj { rt with primed := ((w.birth, j) :: rt.primed).take 3, pw := newMuteRamp cls 0 true j }
      let s := s.evt R.pmpEvtStatus 1
      if s.bit R.cmdJnlCtrl 0 && s.bit R.cmdJnlStatus 1 && allPrimed s then
        { s with cmd := { s.cmd with recRelease := some (s.cmd.recRelease.getD j) } }
      else s
    else s

def execWellPrimed (obj : Nat) (s : State) : Host.Outcome State Fault Refusal := .next (settle (doWellPrimed obj s))

/-- Weights of a held or released object at the ends of blocks `b` - 1 and `b`, none when it is 1 throughout. -/
def primeWeight (s : State) (o b : Nat) : Option (Int × Int) :=
  if !primeObj (s.cmAt b) then none
  else if unprimed s o b then some (0, 0)
  else
    let r := (s.rt o).pw
    if r.len = 0 ∨ r.done (b - 1) = true ∨ b < r.start then none
    else some (if r.start ≤ b - 1 then r.at (b - 1) else 0, r.at b)

/-! ### Pair entries (R74) -/

/-- Add a contribution to a sump (R78). -/
def addSump (s : State) (out : Nat) (p : List Int) : State :=
  let old := tabGetD s.smp.sumps out (List.replicate p.length 0)
  let r := sumpAdd old p
  let s := { s with smp := { s.smp with sumps := tabSet s.smp.sumps out r.1 } }
  if r.2 then (s.setBit (R.smpOvf + out / 32 * 4) (out % 32) true).evt R.smpEvtStatus 0 else s

/-- One entry of block `b`. -/
def pumpOne (b : Nat) (prev : List Entry) (s : State) (e : Entry) : State :=
  let B := s.blockLen
  let f := entryFrom prev e
  let wt := primeWeight s e.obj b
  match tabGet (s.cmAt b).wells e.obj with
  | none =>
    let r := pumpEntry B (b * B) f.1 f.2 e.delay e.gain none (fun _ => 0) wt
    let s := if r.submin then s.inc R.pmpCntSubmin else s
    addSump s e.out r.prods
  | some w =>
    let dmax := wellDmax B w
    let last := b * B + B - 1
    let rng := tapRange B (b * B) f.1 e.delay (some dmax)
    let win := wellWindow s (e.out / 32) w rng.1 (min rng.2 last) (w.birth * B)
    if win.2 then
      failSelf ((win.1.inc R.pmpCntEcc).evt R.pmpEvtStatus 2)
    else
      let s := win.1
      let r := pumpEntry B (b * B) f.1 f.2 e.delay e.gain (some dmax) (wellSample s w (w.birth * B) last) wt
      let s := if r.wclamp then (s.inc R.pmpCntWclamp).evt R.pmpEvtStatus 0 else s
      let s := if r.submin then s.inc R.pmpCntSubmin else s
      addSump s e.out r.prods

/-! ### Bus mixer (R81 to R83) -/

/-- A direct-input sample by sample time. -/
def dinSample (s : State) (d t : Nat) : Int :=
  match (tabGetD s.smp.dinBuf d []).find? (fun e => e.1 == t) with
  | some e => e.2
  | none => 0

/-- Mute weights, crosspoint ramps and automatic scales move to block `b`. -/
def mixerParams (b : Nat) (s : State) : State :=
  let c := s.cmAt b
  let dins := c.dins.foldl (fun t (d, r) =>
    let old : Ramp := tabGetD t d { toDb := -32768 }
    tabSet t d (old.follow (rampClass c 2) (if r.mute then -32768 else 0) b)) s.smp.dins
  let atCommit := s.hist.any (·.1 == b)
  let keep := s.smp.xps.filter fun x =>
    !(atCommit && x.ramp.toDb == -32768 && x.ramp.done (b - 1) && !(c.xps.any fun y => y.din == x.din && y.out == x.out && y.en))
  let xps := c.xps.foldl (fun l y =>
    let code := if y.en then y.gain else -32768
    match l.find? (fun x => x.din == y.din && x.out == y.out) with
    | some x => l.map fun z => if z == x then { x with ramp := x.ramp.follow (rampClass c 3) code b } else z
    | none =>
      if y.en then
        let r : Ramp := { toDb := -32768 }
        insertBy (fun (x : XpRt) => x.out * 256 + x.din)
          { din := y.din, out := y.out, ramp := r.follow (rampClass c 3) code b } l
      else l) keep
  let outs := ((c.xps.map (·.out)) ++ s.smp.autos.map (·.1)).dedup
  let autos := outs.foldl (fun t o =>
    let n := (c.xps.filter fun y => y.out == o && y.en && !(c.din y.din).mute).length
    let a := fld (c.reg (smpOut o)) 20 19
    let old : AutoRt := tabGetD t o {}
    if old.n = n ∧ old.auto = a then tabSet t o old
    else
      let v := old.at (b - 1)
      tabSet t o
        { fromS := v
          toS := if n = 0 then v else autoScale a n
          start := b
          n := n
          auto := a }) s.smp.autos
  let s := { s with smp := { s.smp with
    dins := dins
    xps := xps
    autos := autos } }
  let s := autos.foldl (fun s e =>
    s.setNat (R.smpAuto + 4 * e.1) (e.2.n * 2 ^ 23 + (e.2.at b).toNat % 2 ^ 21)) s
  s.setNat R.smpXpActive xps.length

/-- Products of one crosspoint over block `b` (R83). -/
def xpProds (s : State) (b : Nat) (x : XpRt) : List Int :=
  let B := s.blockLen
  let m : Ramp := tabGetD s.smp.dins x.din { toDb := -32768 }
  let a : AutoRt := tabGetD s.smp.autos x.out {}
  let g := rampSamples B (x.ramp.at (b - 1)) (x.ramp.at b)
  let w := rampSamples B (m.at (b - 1)) (m.at b)
  let c := rampSamples B (a.at (b - 1)) (a.at b)
  ((g.zip (w.zip c)).zipIdx).map fun ((g, w, c), j) =>
    rne (rne (g * w) 20 * c) 20 * dinSample s x.din (b * B + j)

/-! ### One block -/

/-- PMP_LOAD of block `b`, and the registers that name it (R89). -/
def pumpRegs (b : Nat) (legs : List Entry) (s : State) : State :=
  let s := (List.range s.pumps).foldl (fun s p =>
    let n := (legs.filter fun e => e.out / 32 == p).length + (s.smp.xps.filter fun x => x.out / 32 == p).length
    s.setNat (R.pmpLoad + 4 * p) (n * s.blockLen)) s
  (s.setNat R.pmpBlkEpoch (s.cmAt b).epoch).setNat64 R.pmpBlkTickLo b

/-- R79: the sumps are stored. -/
def storeSumps (s : State) : State :=
  let s := { s with smp := { s.smp with
    stored := s.smp.sumps.map fun (e : Nat × List Int) => (e.1, (sumpStore e.2).1) } }
  s.smp.sumps.foldl (fun (s : State) (e : Nat × List Int) =>
    if (sumpStore e.2).2 then (s.setBit (R.smpSat + e.1 / 32 * 4) (e.1 % 32) true).evt R.smpEvtStatus 1 else s) s

/-- The pumps and the mixer render block `b`, and its sumps are stored. After a load shed they stand still (R483). -/
def pumpBlock (b : Nat) (s : State) : State :=
  let s := { s with smp := { s.smp with sumps := [] } }
  if s.pwr.shedDone then storeSumps s
  else
    let ents := slotAt s b
    let prev := slotAt s (b - 1)
    let s := ents.foldl (pumpOne b prev) s
    let s := mixerParams b s
    let s := s.smp.xps.foldl (fun s x => addSump s x.out (xpProds s b x)) s
    storeSumps (pumpRegs b ents s)

end Sys2Proof.Machine
end

