-- ==== Sys2Proof/Machine/Cor.lean ====
section
/-! DEFINITION. Correction engine (chapter 05): swaps, configuration changes, memory plans, loads and the block. -/

namespace Sys2Proof.Machine

def State.cor (s : State) (o : Nat) : CorRt := tabGetD s.cors o {}

def State.setCor (s : State) (o : Nat) (r : CorRt) : State := { s with cors := tabSet s.cors o r }

/-! ### Committed registers -/

def corCfgAt (c : Committed) (o : Nat) : Word := c.reg (R.corCfg + 4 * o)
def corLenAt (c : Committed) (o : Nat) : Word := c.reg (R.corLen + 4 * o)
def corPdAt (c : Committed) (o : Nat) : Word := c.reg (R.corPd + 4 * o)
def corXfAt (c : Committed) (o : Nat) : Word := c.reg (R.corXf + 4 * o)

def corWant (c : Committed) (o : Nat) : Word × Word × Word := (corCfgAt c o, corLenAt c o, corPdAt c o)

def CorRt.now (r : CorRt) : Word × Word × Word := (r.cfg, r.len, r.pd)

/-- Configuration that takes over next, or the one in force. -/
def CorRt.next (r : CorRt) : Word × Word × Word := r.pend.getD r.now

def sameCfg (a b : Word × Word × Word) : Bool := corNorm a.1 a.2.1 a.2.2 == corNorm b.1 b.2.1 b.2.2

/-- Outputs whose correction is not the plain reset chain, in any committed or running sense. -/
def corOutputs (s : State) (c : Committed) : List Nat :=
  let regs := (c.rwe.filter fun e => decide (R.corCfg ≤ e.1 ∧ e.1 < R.corCfg + 0x4000)).map fun e => e.1 % 0x1000 / 4
  sortBy id (s.cors.map (·.1) ++ regs).dedup

/-! ### Staging (R144, R148, R263) -/

def chkCorCfg (s : State) (_ : List Packet) (p : List Byte) : Nat :=
  listOk 5 p fun w => decide ((wAt w 0).toNat < s.outputs) && corRegsOk s.rate96 (wAt w 1) (wAt w 2) (wAt w 3) (wAt w 4)

def applyCorCfg (p : List Byte) (s : State) : State :=
  (listOf 5 p).foldl (fun s w =>
    let a := 4 * (wAt w 0).toNat
    let c := ((s.cm.setReg (R.corCfg + a) (wAt w 1)).setReg (R.corLen + a) (wAt w 2)).setReg (R.corPd + a) (wAt w 3)
    { s with cm := c.setReg (R.corXf + a) (wAt w 4) }) s

/-- Fields of an OP_COR_LOAD: output, bank, low band, first tap, taps. -/
def corLoadOf (p : List Byte) : Nat × CorLoad :=
  let w := wordsOf p
  (fld (wAt w 0) 9 0,
    { blk := none
      bank := bit (wAt w 0) 12
      low := bit (wAt w 0) 13
      first := fld (wAt w 1) 15 0
      taps := (w.drop 2).map s32 })

def chkCorLoad (s : State) (_ : List Packet) (p : List Byte) : Nat :=
  let w := wordsOf p
  let n := fld (wAt w 1) 31 16
  if 1 ≤ n ∧ n ≤ 1016 ∧ p.length = 8 + 4 * n ∧ fld (wAt w 0) 11 10 = 0 ∧ fld (wAt w 0) 31 14 = 0
      ∧ fld (wAt w 0) 9 0 < s.outputs then stOk else stBadParam

def chkCorSwap (s : State) (_ : List Packet) (p : List Byte) : Nat :=
  listOk 1 p fun w => decide (fld (wAt w 0) 9 0 < s.outputs) && fld (wAt w 0) 15 10 == 0 && fld (wAt w 0) 31 17 == 0

/-- Swaps of a transaction, in staging order: output and bank. -/
def swapsOf (p : List Byte) : List (Nat × Bool) := (listOf 1 p).map fun w => (fld (wAt w 0) 9 0, bit (wAt w 0) 16)

def corHash (l : CorLoad) : List Byte := sha256 (bytesOfWords (l.taps.map wdI))

/-- A load that fills a hold for missing coefficients (R123, R147): the hold without it. -/
def matchHold (s : State) (o : Nat) (l : CorLoad) : Option State :=
  match tabGet s.cmd.coefHold o with
  | none => none
  | some hs =>
    let key : CoefWait :=
      { bank := l.bank
        low := l.low
        first := l.first
        count := l.taps.length
        digest := corHash l }
    if hs.contains key then
      let rest := hs.erase key
      let t := if rest.isEmpty then tabDel s.cmd.coefHold o else tabSet s.cmd.coefHold o rest
      let s := { s with cmd := { s.cmd with coefHold := t } }
      some (if t.isEmpty then s.setBit R.cmdJnlStatus 2 false else s)
    else none

/-- Load and swap commands land at effective block `k`; fade times are those committed with the swap (R148). -/
def applyCorLoad (k : Nat) (p : List Byte) (s : State) : State :=
  let l := corLoadOf p
  let s := (matchHold s l.1 l.2).getD s
  let r := s.cor l.1
  s.setCor l.1 { r with loads := r.loads ++ [{ l.2 with blk := some k }] }

def applyCorSwap (k : Nat) (p : List Byte) (s : State) : State :=
  (swapsOf p).foldl (fun s e =>
    let xf := corXfAt s.cm e.1
    let r := s.cor e.1
    s.setCor e.1 { r with swaps := r.swaps ++ [(k, e.2, msBlocks (fld xf 9 0), bit xf 10)] }) s

/-! ### Swaps (R149) -/

/-- Counters a swap moves: no-ops, queued, superseded. -/
abbrev SwapCnt := Nat × Nat × Nat

/-- One swap request at block `b`. -/
def swapOne (r : CorRt) (b : Nat) (bank : Bool) (len : Nat) (lin : Bool) : CorRt × SwapCnt :=
  if r.supp == .hold then
    if r.active = bank then (r, (1, 0, 0)) else ({ r with active := bank }, (0, 0, 0))
  else
    match r.fade, r.queued with
    | none, _ =>
      if r.active = bank then (r, (1, 0, 0))
      else ({ r with active := bank, fade := some { start := b, len := len, lin := lin } }, (0, 0, 0))
    | some _, none =>
      if r.active = bank then (r, (1, 0, 0)) else ({ r with queued := some (len, lin) }, (0, 1, 0))
    | some _, some _ =>
      if r.active = bank then ({ r with queued := none }, (0, 0, 1)) else ({ r with queued := some (len, lin) }, (0, 0, 1))

/-- The end of a fade: steady, or the queued return starts at block `b` (R149). -/
def endFade (r : CorRt) (b : Nat) : CorRt :=
  match r.queued with
  | none => { r with fade := none }
  | some (len, lin) =>
    { r with
      fade := some { start := b, len := len, lin := lin }
      queued := none
      active := !r.active }

/-- Fades that end before block `b` (a fade and its queued return at most). -/
def fadeTo (r : CorRt) (b : Nat) : CorRt :=
  let one (r : CorRt) : CorRt := match r.fade with
    | some f => if f.start + f.len ≤ b then endFade r (f.start + f.len) else r
    | none => r
  one (one r)

/-- The chain as it will stand at block `b`, with every swap waiting until then applied. -/
def predict (r : CorRt) (b : Nat) : CorRt :=
  let r := (r.swaps.filter fun e => decide (e.1 ≤ b)).foldl (fun r e =>
    (swapOne (fadeTo r e.1) e.1 e.2.1 e.2.2.1 e.2.2.2).1) r
  fadeTo r b

/-- A bank in use: active, or either bank of a fade running or queued (R145). -/
def bankInUse (r : CorRt) (bank : Bool) : Bool := r.fade.isSome || r.active == bank

def CorRt.bank (r : CorRt) (bk : Bool) : CorBank := if bk then r.b else r.a

def CorRt.setBank (r : CorRt) (bk : Bool) (v : CorBank) : CorRt := if bk then { r with b := v } else { r with a := v }

/-- Store a load in its bank (R144). -/
def storeLoad (r : CorRt) (l : CorLoad) : CorRt :=
  let bk := r.bank l.bank
  let put (t : Tab Int) : Tab Int := (l.taps.zipIdx).foldl (fun t (c, i) =>
    if c = 0 then tabDel t (l.first + i) else tabSet t (l.first + i) c) t
  r.setBank l.bank (if l.low then { bk with low := put bk.low, loaded := true }
    else { bk with upper := put bk.upper, loaded := true })

def countSwap (s : State) (c : SwapCnt) : State :=
  let s := (s.inc R.corCntNoop c.1).inc R.corCntQueued c.2.1
  if c.2.2 = 0 then s else (s.inc R.corCntSupersede c.2.2).evt R.corEvtStatus 2

/-! ### Memory (R142, R143) -/

/-- Block at which a change committed for effective block `k` switches (R152, R154). -/
def switchBlock (c : Committed) (r : CorRt) (k : Nat) : Nat :=
  match r.supp with
  | .down => r.w
  | .hold => k
  | .open_ | .rampIn => k + msBlocks (fld (rampClass c 2) 13 0)

/-- An allocation that occupies its space at block `w`: the one in force until its own switch, the next one from it. -/
def occAt (r : CorRt) (w : Nat) : List Run :=
  let now := if r.pend.isSome ∧ r.w ≤ w then [] else r.alloc.toList
  now ++ (if r.pend.isSome then r.allocNext.toList else [])

/-- Outputs whose committed configuration differs from the one that would be in force, at a commit. -/
def corChanges (s : State) (c : Committed) : List Nat :=
  (corOutputs s c).filter fun o => !sameCfg (corWant c o) (s.cor o).next

/-- R143: allocations for the changes of a transaction; none when one finds no room. -/
def planCor (s : State) (c : Committed) (k : Nat) : Option (List (Nat × Nat × Option Run)) :=
  let ch := corChanges s c
  let size (o : Nat) : Nat := let x := corWant c o; corKiB s.blockLen x.1 x.2.1 x.2.2
  let w (o : Nat) : Nat := switchBlock c (s.cor o) k
  let keeps (o : Nat) : Bool := match (s.cor o).alloc with
    | some a => decide (0 < size o ∧ size o ≤ a.2)
    | none => false
  let fixed := ch.filter fun o => size o == 0 || keeps o
  let done := fixed.map fun o =>
    (o, w o, if size o = 0 then none else ((s.cor o).alloc.map fun a => (a.1, size o)))
  let others := s.cors.filter fun e => !ch.contains e.1
  let place (acc : Option (List (Nat × Nat × Option Run))) (o : Nat) : Option (List (Nat × Nat × Option Run)) :=
    acc.bind fun l =>
      let wo := w o
      -- space of this transaction's own changes: still held before their switch
      let mine := ch.flatMap fun p =>
        (if p != o && decide (wo < w p) then (s.cor p).alloc.toList else [])
      let placed := l.flatMap fun e => e.2.2.toList
      let occ := (others.flatMap fun e => occAt e.2 wo) ++ mine ++ placed
      let free := occ.foldl cutRun (regionRuns c 1 512)
      (firstFit free (size o)).map fun b => l ++ [(o, wo, some (b, size o))]
  (ch.filter fun o => !fixed.contains o).foldl place (some done)

/-- COR_MEM_FREE and COR_MEM_RUN (R143). -/
def corMemRegs (s : State) : State :=
  let occ := s.cors.flatMap fun (e : Nat × CorRt) => e.2.alloc.toList
  let free := occ.foldl cutRun (regionRuns s.mapCm 1 512)
  (s.setNat R.corMemFree (freeUnits free)).setNat R.corMemRun (largestRun free)

/-- The plan of a commit: where the next allocations will stand (R143). -/
def commitPlan (s : State) (c : Committed) (k : Nat) : State :=
  match planCor s c k with
  | none => s
  | some l => l.foldl (fun s e => s.setCor e.1 { s.cor e.1 with allocNext := e.2.2 }) s

/-! ### Suppression (R152, R154) -/

/-- The new configuration takes over at block `w`. -/
def takeOver (B w : Nat) (r : CorRt) (c : Word × Word × Word) : CorRt × Nat :=
  let cut := b2n r.fade.isSome + b2n r.queued.isSome
  let act := if r.queued.isSome then !r.active else r.active
  let clr := corClears (r.cfg, r.len) (c.1, c.2.1)
  let r := { r with
    cfg := c.1
    len := c.2.1
    pd := c.2.2
    fade := none
    queued := none
    active := if clr then false else act
    a := if clr then {} else r.a
    b := if clr then {} else r.b
    supp := .hold
    w := w
    j := w + ceilDiv (corSettle B c.1 c.2.1 c.2.2) B
    pend := none
    alloc := r.allocNext
    allocNext := none
    hist := []
    pdHist := [] }
  let due := r.loads.filter (·.blk.isNone)
  let r := due.foldl storeLoad { r with loads := r.loads.filter (·.blk.isSome) }
  (r, cut)

def countCut (s : State) (n : Nat) : State := if n = 0 then s else (s.inc R.corCntSupersede n).evt R.corEvtStatus 2

/-- What the registers of block `b` change in an output's suppression. -/
def corFollow (b : Nat) (c : Committed) (o : Nat) (s : State) : State :=
  let r := s.cor o
  let want := corWant c o
  let M := msBlocks (fld (rampClass c 2) 13 0)
  let r := if r.supp == .rampIn && decide (r.j + M ≤ b) then { r with supp := .open_ } else r
  if sameCfg want r.next then
    let r := match r.pend with
      | some _ => { r with pend := some want }
      | none => { r with cfg := want.1, len := want.2.1, pd := want.2.2 }
    if r == s.cor o ∨ (r == {} ∧ (tabGet s.cors o).isNone) then s else s.setCor o r
  else
    let s := s.inc R.corCntSuppress
    match r.supp with
    | .down => s.setCor o { r with pend := some want }
    | .hold =>
      let t := takeOver s.blockLen b r want
      corMemRegs (countCut (s.setCor o t.1) t.2)
    | .open_ | .rampIn =>
      s.setCor o { r with
        supp := .down
        k := b
        w := b + M
        pend := some want }

/-- Loads and swaps whose block is `b`. A load of a pending configuration waits for its switch block. -/
def corDue (b : Nat) (o : Nat) (s : State) : State :=
  let r := s.cor o
  let due (l : CorLoad) : Bool := match l.blk with
    | some k => decide (k ≤ b)
    | none => false
  let now := r.loads.filter due
  let rest := r.loads.filter fun l => !due l
  let r := if r.supp == .down then { r with loads := rest ++ now.map fun l => { l with blk := none } }
    else now.foldl storeLoad { r with loads := rest }
  let sw := r.swaps.filter fun e => decide (e.1 ≤ b)
  let r := { r with swaps := r.swaps.filter fun e => decide (b < e.1) }
  sw.foldl (fun s e =>
    let x := swapOne (s.cor o) b e.2.1 e.2.2.1 e.2.2.2
    countSwap (s.setCor o x.1) x.2) (if r == s.cor o then s else s.setCor o r)

/-! ### The block (R131 to R140, R148) -/

def histFn (h : List Int) (newest : Int) (t : Int) : Int := if t > newest then 0 else h.getD (newest - t).toNat 0

/-- A store to Q1.31 and whether it saturated. -/
def storeQ (a : Int) (n : Nat) : Int × Bool := (sat32 (rne a n), decide (sat32 (rne a n) ≠ rne a n))

/-- Samples a chain must remember. -/
def corKeep (B : Nat) (r : CorRt) : Nat := corSettle B r.cfg r.len r.pd + 4 * corD r.cfg * B + 4 * B

/-- One output's chain over block `b`. -/
def chainBlock (b : Nat) (r : CorRt) (xs : List Int) : CorRt × List Int × Bool :=
  let B := xs.length
  let hist := (xs.reverse ++ r.hist).take (corKeep B r)
  let newest : Int := (b * B + B - 1 : Nat)
  let x := histFn hist newest
  let one (bk : Bool) : List (Int × Bool) := (List.range B).map fun j =>
    storeQ (chainExact B r.cfg r.len r.pd (r.bank bk) x ((b * B + j : Nat) : Int)) 30
  let ys : List (Int × Bool) := match r.fade with
    | none => one r.active
    | some f =>
      let m := b + 1 - f.start
      let w0 := corWeights f (m - 1)
      let w1 := corWeights f m
      let wy := rampSamples B w0.1 w1.1
      let wx := rampSamples B w0.2 w1.2
      ((one r.active).zip ((one (!r.active)).zip (wy.zip wx))).map fun (y, o, a, c) =>
        let z := storeQ (a * y.1 + c * o.1) 20
        (z.1, z.2 || y.2 || o.2)
  let y := ys.map (·.1)
  let sat := ys.any (·.2)
  if corPdSel r.pd ∨ corPd r.pd = 0 then ({ r with hist := hist }, y, sat)
  else
    let ph := (y.reverse ++ r.pdHist).take 1100
    let f := histFn ph newest
    ({ r with hist := hist, pdHist := ph },
      (List.range B).map fun j => phaseDelay (corPd r.pd) f ((b * B + j : Nat) : Int), sat)

/-- Partitions an output is charged in a block (R141). -/
def corCharge (B : Nat) (r : CorRt) : Nat := corParts B r.cfg r.len * (if r.fade.isSome then 2 else 1)

def zeros (n : Nat) : List Int := List.replicate n 0

/-- The correction engine processes block `b` (R131). -/
def corBlock (b : Nat) (s : State) : State :=
  if s.pwr.shedDone then { s with smp := { s.smp with corOut := [(b, [])] } }
  else
    let c := s.cmAt b
    let outs := corOutputs s c
    let s := outs.foldl (fun s o => corDue b o (corFollow b c o s)) s
    let plain := s.smp.stored.filter fun e => !outs.contains e.1
    let r := outs.foldl (fun (s, (t : Tab (List Int))) o =>
      let rt := s.cor o
      if (s.outRt o).spAt b then
        (if (tabGet s.cors o).isSome then s.setCor o { rt with hist := [], pdHist := [] } else s, t)
      else
        let y := chainBlock b rt (tabGetD s.smp.stored o (zeros s.blockLen))
        let s := if (tabGet s.cors o).isSome ∨ y.1 ≠ {} then s.setCor o y.1 else s
        let s := if y.2.2 then (s.setBit (R.corSat + o / 32 * 4) (o % 32) true).evt R.corEvtStatus 0 else s
        (s, tabSet t o y.2.1)) (s, plain)
    let s := r.1
    let parts := sumNat (s.cors.map fun (e : Nat × CorRt) => if (s.outRt e.1).spAt b then 0 else corCharge s.blockLen e.2)
    let s := { s with smp := { s.smp with corOut := ((b, r.2) :: s.smp.corOut).take 12 } }
    ((s.setNat R.corParts parts).setNat R.corBlkEpoch c.epoch).setNat64 R.corBlkTickLo b

/-! ### Commands -/

/-- Block correction processes next: it ends with the tick. -/
def nextCor (s : State) : Nat := s.tick

/-- The output block of this tick has gone out. -/
def egressDone (s : State) : Bool := s.smp.outBuf.any fun e => e.1 + 1 == s.tick

/-- Block the output stage produces next. -/
def nextOut (s : State) : Nat := if egressDone s then s.tick else s.tick - 1

/-- COR_FADE_END (R149). -/
def doCorFadeEnd (out : Nat) (s : State) : State :=
  let r := s.cor out
  match r.fade with
  | none => s
  | some f => if f.start + f.len ≤ nextCor s then s.setCor out (endFade r (nextCor s)) else s

def execCorFadeEnd (out : Nat) (s : State) : Host.Outcome State Fault Refusal := .next (settle (doCorFadeEnd out s))

/-- COR_SWITCH (R152 step 2). -/
def doCorSwitch (out : Nat) (s : State) : State :=
  let r := s.cor out
  match r.supp, r.pend with
  | .down, some c =>
    if r.w ≤ nextCor s then
      let t := takeOver s.blockLen (nextCor s) r c
      corMemRegs (countCut (s.setCor out t.1) t.2)
    else s
  | _, _ => s

def execCorSwitch (out : Nat) (s : State) : Host.Outcome State Fault Refusal := .next (settle (doCorSwitch out s))

/-- COR_SETTLED (R152 step 4). -/
def doCorSettled (out : Nat) (s : State) : State :=
  let r := s.cor out
  if r.supp = .hold ∧ r.j ≤ nextOut s then
    (s.setCor out { r with supp := .rampIn, j := nextOut s }).evt R.corEvtStatus 1
  else s

def execCorSettled (out : Nat) (s : State) : Host.Outcome State Fault Refusal := .next (settle (doCorSettled out s))

/-! ### Views (R155, R160, R162) -/

/-- COR_STATE of an output. -/
def corStateRead (s : State) (o : Nat) : Word :=
  let r := s.cor o
  let b := s.tick - 1
  let su := match r.supp with
    | .open_ => 0
    | .down => 1
    | .hold => 2
    | .rampIn => 3
  let fd := match r.fade with
    | some f => f.len * 2048 + min f.len (b + 1 - f.start)
    | none => 0
  wd (su * 2 ^ 30 + b2n r.queued.isSome * 2 ^ 27 + b2n r.fade.isSome * 2 ^ 26 + b2n r.active * 2 ^ 25 +
    b2n r.b.loaded * 2 ^ 24 + b2n r.a.loaded * 2 ^ 23 + fd)

/-- COR_HOLD word `w`. -/
def corHoldRead (s : State) (w : Nat) : Word :=
  wd (sumNat ((s.cors.filter fun e => e.1 / 32 == w && e.2.supp != .open_).map fun e => 2 ^ (e.1 % 32)))

/-- COR_HB_ROM by entry and word. IIR entries are HB10 to HB15. -/
def hbRomRead (h k : Nat) : Word :=
  let order := [3, 5, 7, 7, 9, 11].getD (h - 10) 0
  let n := if h < 10 then (hbLen h + 1) / 4 else (order - 1) / 2
  if k = 0 then wd ((if h < 10 then 0 else 65536) + n * 256 + (if h < 10 then hbLen h else order))
  else if k ≤ n then Config.hbCoef h k else 0

end Sys2Proof.Machine
end

