-- ==== Sys2Proof/Machine/EcMath.lean ====
section
/-! DEFINITION. What one instruction does inside one effect core (R199 to R226): registers, flags, moves, control flow. -/

namespace Sys2Proof.Machine

/-- What an instruction sees from outside the core: its number, ECX_DECL, ECX_CTRL.ACC_CLAMP, and a number that never
repeats for the free values. -/
structure EcEnv where
  core : Nat
  decl : Nat
  clamp : Bool
  fresh : Nat
deriving DecidableEq, Repr

/-- What an instruction asks of the rest of the block. -/
inductive EcEff where
  | none
  | halted
  | overrun
  | faulted
  | signal (src : Nat)
  | reti
deriving DecidableEq, Repr

def EcCore.dr (c : EcCore) (i : Nat) : Word := c.d.toList.getD i 0
def EcCore.di (c : EcCore) (i : Nat) : Int := (c.dr i).toInt
def EcCore.ac (c : EcCore) (i : Nat) : Int := c.a.toList.getD i 0
def EcCore.pr (c : EcCore) (i : Nat) : Nat := c.p.toList.getD i 0
def EcCore.gr (c : EcCore) (i : Nat) : Int := c.g.toList.getD i 0
def EcCore.wr (c : EcCore) (i : Nat) : Word := c.w.toList.getD i 0
def EcCore.word (c : EcCore) (a : Nat) : Word := tabGetD c.mem a 0
/-- Store a word; a zero word is not listed, so that equal memories are equal lists. -/
def EcCore.store (c : EcCore) (a : Nat) (v : Word) : EcCore :=
  { c with mem := if v == 0 then tabDel c.mem a else tabSet c.mem a v }

/-! ### Writes and when they are seen (R217) -/

/-- A later instruction's own write of the register wins over one still on its way. -/
def EcCore.dropLate (c : EcCore) (f : EcWrite → Bool) : EcCore :=
  { c with late := c.late.filter fun e => !(f e.2.2) }

def EcCore.setD (c : EcCore) (i : Nat) (v : Word) : EcCore :=
  { c.dropLate (fun | .d n _ => n == i | _ => false) with d := c.d.setIfInBounds i v }

def EcCore.push (c : EcCore) (w : EcWrite) : EcCore := { c with late := c.late ++ [(c.cyc + 2, c.cyc, w)] }

def EcCore.apply (c : EcCore) : EcWrite → EcCore
  | .d i v => { c with d := c.d.setIfInBounds i v }
  | .p i v => { c with p := c.p.setIfInBounds i v }
  | .g i v => { c with g := c.g.setIfInBounds i v }
  | .w i v => { c with w := c.w.setIfInBounds i v }
  | .acc i v => { c with aS := c.aS.setIfInBounds i v }

/-- The writes that the present cycle sees. -/
def EcCore.settle (c : EcCore) : EcCore :=
  let due := c.late.filter fun e => decide (e.1 ≤ c.cyc)
  let c' := { c with late := c.late.filter fun e => !(decide (e.1 ≤ c.cyc)) }
  due.foldl (fun s e => s.apply e.2.2) c'

/-- R212: a result for accumulator `i`. -/
def EcCore.setAcc (env : EcEnv) (c : EcCore) (i : Nat) (v : Int) : EcCore :=
  let ov := decide (satS 72 v ≠ v)
  let r := if env.clamp then satS 72 v else signedOf 72 (bitsOf 72 v)
  { c with a := c.a.setIfInBounds i r, gov := c.gov || ov }.push (.acc i r)

/-- R214: conv(a, SH) and whether it saturates. -/
def ecConv (a : Int) (sh : Nat) : Int × Bool :=
  let r := rne (a * 2 ^ sh) 31
  (sat32 r, decide (sat32 r ≠ r))

def EcCore.zn (c : EcCore) (v : Word) : EcCore := { c with z := v == 0, n := v.msb }

/-! ### Slot A (R206, R211 to R216): each reads the core and answers it with the result written -/

def ecMul (env : EcEnv) (add : Bool) (a x y : Nat) (neg : Bool) (c : EcCore) : EcCore :=
  let p := c.di x * c.di y
  c.setAcc env a ((if add then c.ac a else 0) + if neg then -p else p)

def ecFir4 (env : EcEnv) (x q : Nat) (neg clr : Bool) (c : EcCore) : EcCore :=
  (List.range 4).foldl (fun s j =>
    let p := c.di x * c.di (4 * q + j)
    s.setAcc env j ((if clr then 0 else c.ac j) + if neg then -p else p)) c

def ecDmul (env : EcEnv) (add : Bool) (h x0 y0 x1 y1 : Nat) (c : EcCore) : EcCore :=
  let r0 := (if add then c.ac (2 * h) else 0) + c.di x0 * c.di y0
  let r1 := (if add then c.ac (2 * h + 1) else 0) + c.di x1 * c.di y1
  (c.setAcc env (2 * h) r0).setAcc env (2 * h + 1) r1

def ecCmac (env : EcEnv) (u v h : Nat) (conj clr : Bool) (c : EcCore) : EcCore :=
  let xr := c.di (2 * u); let xi := c.di (2 * u + 1)
  let yr := c.di (2 * v); let yi := if conj then -(c.di (2 * v + 1)) else c.di (2 * v + 1)
  let re := xr * yr - xi * yi
  let im := xr * yi + xi * yr
  (c.setAcc env (2 * h) ((if clr then 0 else c.ac (2 * h)) + re)).setAcc env (2 * h + 1)
    ((if clr then 0 else c.ac (2 * h + 1)) + im)

/-- R216: the second candidate beats the first. -/
def ecBeats (cb ca : Word) (min : Bool) : Bool :=
  let d := (cb - ca).toInt
  if min then decide (d < 0) else decide (d > 0)

def ecAcs2 (ma mb bm k : Nat) (min : Bool) (c : EcCore) : EcCore :=
  let c00 := c.dr ma + c.dr bm; let c01 := c.dr mb - c.dr bm
  let c10 := c.dr ma - c.dr bm; let c11 := c.dr mb + c.dr bm
  let s0 := ecBeats c01 c00 min; let s1 := ecBeats c11 c10 min
  { (c.setD (2 * k) (if s0 then c01 else c00)).setD (2 * k + 1) (if s1 then c11 else c10) with
    dec := (c.dec <<< 2) ||| wd (2 * b2n s0 + b2n s1) }

def ecAcs1 (dst s0 s1 bm : Nat) (min : Bool) (c : EcCore) : EcCore :=
  let c0 := c.dr s0 + c.dr bm; let c1 := c.dr s1
  let b := ecBeats c1 c0 min
  { c.setD dst (if b then c1 else c0) with dec := (c.dec <<< 1) ||| wd (b2n b) }

/-- R215: sum or difference with carry and overflow; `store` tells whether the result is written. -/
def ecAddSub (sub store : Bool) (d : Nat) (x y : Word) (c : EcCore) : EcCore :=
  let r := if sub then x - y else x + y
  let borrow := decide (x.toNat < y.toNat)
  let cy := if sub then (if Config.subCarryIsBorrow then borrow else !borrow) else decide (x.toNat + y.toNat ≥ 2 ^ 32)
  let i := if sub then x.toInt - y.toInt else x.toInt + y.toInt
  let c1 := if store then c.setD d r else c
  { c1.zn r with c := cy, v := decide (sat32 i ≠ i) }

/-- R215: a saturating result. -/
def ecSatRes (d : Nat) (i : Int) (c : EcCore) : EcCore :=
  let r := wdI (sat32 i)
  let o := decide (sat32 i ≠ i)
  { (c.setD d r).zn r with v := o, sat := c.sat || o }

/-- R215: a result that clears C and V. -/
def ecLogic (d : Nat) (r : Word) (c : EcCore) : EcCore := { (c.setD d r).zn r with c := false, v := false }

def ecMin (x y : Word) : Word := if x.toInt ≤ y.toInt then x else y
def ecMax (x y : Word) : Word := if x.toInt ≥ y.toInt then x else y

/-- R206 SHIFT: kind 0 LSL, 1 LSR, 2 ASR, 3 ASLS. -/
def ecShift (kind d s : Nat) (amt : ShAmt) (c : EcCore) : EcCore :=
  let n := match amt with
    | .imm k => k % 32
    | .reg r => (c.dr r).toNat % 32
  let x := c.dr s
  match kind with
  | 0 => { ecLogic d (x <<< n) c with c := n ≠ 0 && x.toNat.testBit (32 - n) }
  | 1 => { ecLogic d (x >>> n) c with c := n ≠ 0 && x.toNat.testBit (n - 1) }
  | 2 => { ecLogic d (x.sshiftRight n) c with c := n ≠ 0 && x.toNat.testBit (n - 1) }
  | _ => ecSatRes d (x.toInt * 2 ^ n) c

def ecAclr (env : EcEnv) (mask : Nat) (c : EcCore) : EcCore :=
  (List.range 4).foldl (fun s j => if mask.testBit j then s.setAcc env j 0 else s) c

def ecAadd (env : EcEnv) (d s : Nat) (sub : Bool) (c : EcCore) : EcCore :=
  c.setAcc env d (if sub then c.ac d - c.ac s else c.ac d + c.ac s)

def ecAsh (env : EcEnv) (d s : Nat) (n : Int) (c : EcCore) : EcCore :=
  c.setAcc env d (if n ≥ 0 then c.ac s * 2 ^ n.toNat else (c.ac s).fdiv (2 ^ (-n).toNat))

def ecArnd (d a sh : Nat) (c : EcCore) : EcCore :=
  let (r, o) := ecConv (c.aS.toList.getD a 0) sh
  { c.setD d (wdI r) with sat := c.sat || o }

def ecAld (env : EcEnv) (a d : Nat) (c : EcCore) : EcCore := c.setAcc env a (c.di d * 2 ^ 31)

/-! ### Moves and address updates (R202, R207, R208, R223) -/

def mvAddr (c : EcCore) : Mv → Option Nat
  | .none => none
  | .ld _ p => some (c.pr p)
  | .st _ p => some (c.pr p)
  | .sta _ _ p => some (c.pr p)

/-- The two moves address one bank (R201, R207). -/
def parSameBank (q : Par) (c : EcCore) : Bool :=
  match mvAddr c q.m0, mvAddr c q.m1 with
  | some a, some b => a / 0x2000 == b / 0x2000
  | _, _ => false

def parCost (q : Par) (c : EcCore) : Nat := if parSameBank q c then 2 else 1

/-- An address of a move outside data memory (R202). -/
def parBadAddr (q : Par) (c : EcCore) : Bool :=
  [mvAddr c q.m0, mvAddr c q.m1].any fun a => match a with
    | some x => decide (x ≥ 0x8000)
    | none => false

/-- A local word that a queued transfer covers (R204). -/
def EcCore.covered (c : EcCore) (a : Nat) : Bool :=
  c.queue.any fun x => decide (x.loc ≤ a) && decide (a < x.loc + 8 * x.lines)

/-- One move; `r` is the core as the instruction reads it. -/
def ecMove (env : EcEnv) (r : EcCore) (c : EcCore) : Mv → EcCore
  | .none => c
  | .ld d p =>
    let a := r.pr p
    c.push (.d d (if c.covered a then Config.xferWord env.core a env.fresh else c.word a))
  | .st d p => c.store (r.pr p) (r.dr d)
  | .sta a sh p =>
    let (v, o) := ecConv (r.aS.toList.getD a 0) sh
    { c.store (r.pr p) (wdI v) with sat := c.sat || o }

/-- R223: one update of a pointer by a step. -/
def ecRing (p : Nat) (s : Int) (w : Word) : Nat :=
  let L : Int := min (w.toNat / 65536) 32768
  let B : Int := w.toNat % 65536
  let t : Int := p + s
  let t := if L == 0 then t else if t ≥ B + L then t - L else if t < B then t + L else t
  (t % 65536).toNat

def ecUpdate (c : EcCore) : Upd → EcCore
  | .none => c
  | .upd n op =>
    let s : Int := match op with
      | 0 => 1
      | 1 => -1
      | 2 => c.gr n
      | _ => -(c.gr n)
    { c.dropLate (fun | .p m _ => m == n | _ => false) with p := c.p.setIfInBounds n (ecRing (c.pr n) s (c.wr n)) }

/-- The parallel part of a P instruction after slot A has been computed. -/
def ecPar (env : EcEnv) (r : EcCore) (q : Par) (c : EcCore) : EcCore :=
  ecUpdate (ecUpdate (ecMove env r (ecMove env r c q.m0) q.m1) q.u0) q.u1

/-! ### Register identifiers (R200) -/

def EcCore.status (c : EcCore) : Word :=
  wd (b2n c.z + 2 * b2n c.n + 4 * b2n c.v + 8 * b2n c.c + 256 * b2n c.sat + 512 * b2n c.gov)

/-- Value of a register by identifier; none for one that a program may not read. -/
def EcCore.readId (env : EcEnv) (c : EcCore) (i : Nat) : Option Word :=
  if i < 0x10 then some (c.dr i)
  else if i < 0x18 then some (wd (c.pr (i - 0x10)))
  else if i < 0x20 then some (wdI (c.gr (i - 0x18)))
  else if i < 0x28 then some (c.wr (i - 0x20))
  else match i with
    | 0x30 => some c.status
    | 0x31 => some c.dec
    | 0x32 => some (wd (c.tick % 2))
    | 0x33 => some (wd c.issue)
    | 0x34 => some (wd env.core)
    | 0x35 => some (wd c.blk)
    | 0x36 => some (wd ((c.loops.reverse.map (·.count)).getD 0 0))
    | 0x37 => some (wd ((c.loops.reverse.map (·.count)).getD 1 0))
    | _ => none

/-- Write a register by identifier; none for one that a program may not write. `clr`: the write may clear SAT and GOV
(MOVC to STATUS, R215). -/
def EcCore.writeId (c : EcCore) (clr : Bool) (i : Nat) (v : Word) : Option EcCore :=
  if i < 0x10 then some (c.setD i v)
  else if i < 0x18 then some (c.push (.p (i - 0x10) (v.toNat % 65536)))
  else if i < 0x20 then some (c.push (.g (i - 0x18) (signedOf 16 v.toNat)))
  else if i < 0x28 then some (c.push (.w (i - 0x20) v))
  else if i == 0x30 then
    some { c with z := bit v 0, n := bit v 1, v := bit v 2, c := bit v 3,
                  sat := c.sat && (!clr || bit v 8), gov := c.gov && (!clr || bit v 9) }
  else if i == 0x31 then some { c with dec := v }
  else none

/-- The conditions of R209. -/
def EcCore.cond (c : EcCore) (k : Nat) : Bool :=
  let lt := c.n != c.v
  match k with
  | 0 => true
  | 1 => c.z
  | 2 => !c.z
  | 3 => lt
  | 4 => !lt
  | 5 => !c.z && !lt
  | 6 => c.z || lt
  | 7 => c.n
  | 8 => !c.n
  | 9 => c.v
  | 10 => !c.v
  | 11 => c.c
  | 12 => !c.c
  | 13 => c.sat
  | 14 => c.gov
  | _ => false

/-! ### Issue and control flow (R217 to R222, R231 to R233) -/

/-- R219: a taken branch ends every loop whose body does not hold its target, and those inside it. -/
def loopsFor (t : Nat) : List EcLoop → List EcLoop
  | [] => []
  | l :: rest =>
    let r := loopsFor t rest
    if r.length == rest.length && decide (l.start ≤ t) && decide (t ≤ l.stop) then l :: rest else r

/-- The instruction after `pc`, with the loop decisions (R221). -/
def ecNext (pc : Nat) : List EcLoop → Nat × List EcLoop
  | [] => ((pc + 1) % 8192, [])
  | l :: rest =>
    if pc == l.stop then
      if l.count > 1 then (l.start, { l with count := l.count - 1 } :: rest)
      else ecNext pc rest
    else ((pc + 1) % 8192, l :: rest)

/-- After an ordinary instruction: repeat, delay slot, or the next one. -/
def EcCore.advance (c : EcCore) : EcCore :=
  match c.rep with
  | some (r + 2) => { c with rep := some (r + 1) }
  | _ =>
    let c := { c with rep := none }
    match c.slots with
    | some (t, 1) => { c with slots := none, pc := t, loops := loopsFor t c.loops }
    | some (t, n) => { c with slots := some (t, n - 1), pc := (c.pc + 1) % 8192 }
    | none => let (p, l) := ecNext c.pc c.loops; { c with pc := p, loops := l }

/-- Kinds of instruction for the placement rules of R219 and R220. -/
inductive EcKind where
  | px          -- P or X format
  | ctl         -- other C format
  | flow        -- BR, CALL, RET, RPT, LOOP, HALT
deriving DecidableEq, Repr

def EcCore.active (c : EcCore) : Bool := c.mode == .running || c.mode == .handler

/-- R232, R233: the core stops on a fault. -/
def EcCore.stopFault (c : EcCore) (cause : Nat) : EcCore := { c with mode := .fault, cause := cause }

/-- Issue one instruction: writes on their way settle, the budget and the placement are checked, then `f` runs. It answers
the cause of a fault, or the core with PC already moved. -/
def ecIssue (env : EcEnv) (kind : EcKind) (cost : EcCore → Nat) (f : EcCore → Nat ⊕ (EcCore × EcEff)) (c0 : EcCore) :
    EcCore × EcEff :=
  if !c0.active || c0.waiting then (c0, .none) else
  let c := c0.settle
  let k := cost c
  if c.mode == .running && decide (c.issue + k > env.decl) then ({ c with mode := .overrun }, .overrun) else
  if (c.rep.isSome && kind != .px) || (c.slots.isSome && kind == .flow) then (c.stopFault 1, .faulted) else
  match f c with
  | .inl n => (c.stopFault n, .faulted)
  | .inr (c1, e) =>
    let c2 := { c1 with cyc := c1.cyc + k }
    (if c.mode == .running then { c2 with issue := c2.issue + k } else { c2 with quota := c2.quota + k }, e)

/-- A P instruction with a slot-A function. -/
def ecP (env : EcEnv) (q : Par) (slotA : EcCore → EcCore) : EcCore → EcCore × EcEff :=
  ecIssue env .px (parCost q) fun c =>
    if parBadAddr q c then .inl 2 else .inr ((ecPar env c q (slotA c)).advance, .none)

/-- An X instruction (R210). -/
def ecX (env : EcEnv) (f : EcCore → EcCore) : EcCore → EcCore × EcEff :=
  ecIssue env .px (fun _ => 1) fun c => .inr ((f c).advance, .none)

/-- A taken or untaken branch: two delay slots follow (R217). -/
def EcCore.branch (c : EcCore) (taken : Bool) (t : Nat) : EcCore :=
  { c with slots := some (if taken then t else (c.pc + 3) % 8192, 2), pc := (c.pc + 1) % 8192 }

def ecBr (env : EcEnv) (cond t : Nat) : EcCore → EcCore × EcEff :=
  ecIssue env .flow (fun _ => 1) fun c => .inr (c.branch (c.cond cond) t, .none)

def ecCall (env : EcEnv) (cond t : Nat) : EcCore → EcCore × EcEff :=
  ecIssue env .flow (fun _ => 1) fun c =>
    if !(c.cond cond) then .inr (c.branch false t, .none)
    else if c.stack.length ≥ 8 then .inl 4
    else .inr ({ c.branch true t with stack := ((c.pc + 3) % 8192) :: c.stack }, .none)

def ecRet (env : EcEnv) (cond : Nat) : EcCore → EcCore × EcEff :=
  ecIssue env .flow (fun _ => 1) fun c =>
    if !(c.cond cond) then .inr (c.branch false 0, .none) else
    match c.stack with
    | [] => .inl 4
    | t :: r => .inr ({ c.branch true t with stack := r }, .none)

def cntVal (c : EcCore) : Cnt → Nat
  | .imm n => n
  | .reg r => (c.dr r).toNat

/-- R220. -/
def ecRpt (env : EcEnv) (n : Cnt) : EcCore → EcCore × EcEff :=
  ecIssue env .flow (fun _ => 2) fun c =>
    let k := cntVal c n
    if k > 4096 then .inl 1
    else if k == 0 then
      let (p, l) := ecNext c.pc c.loops
      let (p2, l2) := ecNext p l
      .inr ({ c with pc := p2, loops := l2 }, .none)
    else .inr ({ c.advance with rep := some k }, .none)

/-- The op byte of an instruction word: format and op (R205). -/
def ecOpOf (w : BitVec 64) : Nat := w.toNat / 2 ^ 56

/-- BR, CALL, RET, LOOP or HALT (R221). -/
def ecIsFlow (w : BitVec 64) : Bool := [0x41, 0x42, 0x43, 0x46, 0x47].contains (ecOpOf w)

/-- R221: a LOOP body that keeps the placement rules. -/
def ecBodyOk (c : EcCore) (start stop : Nat) : Bool :=
  let at_ (i : Nat) := tabGetD c.prog i 0
  decide (stop ≥ start + 1) && !(ecIsFlow (at_ stop)) && !(ecIsFlow (at_ (stop - 1))) &&
    (stop < start + 2 || !(ecIsFlow (at_ (stop - 2)))) && ecOpOf (at_ stop) != 0x45

/-- R221. -/
def ecLoop (env : EcEnv) (stop : Nat) (n : Cnt) : EcCore → EcCore × EcEff :=
  ecIssue env .flow (fun c => if cntVal c n % 65536 == 0 then 3 else 1) fun c =>
    let k := cntVal c n % 65536
    if !(ecBodyOk c (c.pc + 1) stop) then .inl 1
    else if c.loops.length ≥ 2 then .inl 3
    else if k == 0 then
      let (p, l) := ecNext stop c.loops
      .inr ({ c with pc := p, loops := l }, .none)
    else .inr ({ c with pc := (c.pc + 1) % 8192, loops := { start := c.pc + 1, stop := stop, count := k } :: c.loops }, .none)

/-- R231: the end of the tick program. The PC stays at the HALT; the next tick program sets it (R228). -/
def ecHalt (env : EcEnv) : EcCore → EcCore × EcEff :=
  ecIssue env .flow (fun _ => 1) fun c =>
    if c.mode == .handler then .inl 1 else .inr ({ c with mode := .halted }, .halted)

/-- R226: return from a handler. -/
def ecReti (env : EcEnv) : EcCore → EcCore × EcEff :=
  ecIssue env .ctl (fun _ => 3) fun c =>
    match c.mode, c.save with
    | .handler, some s =>
      .inr ({ c with pc := s.pc, z := bit s.status 0, n := bit s.status 1, v := bit s.status 2, c := bit s.status 3,
                     sat := bit s.status 8, gov := bit s.status 9, dec := s.dec, loops := s.loops, save := none,
                     slots := none, rep := none, mode := if s.halted then .halted else .running }, .reti)
    | _, _ => .inl 1

def ecLdi (env : EcEnv) (id : Nat) (v : Word) : EcCore → EcCore × EcEff :=
  ecIssue env .ctl (fun _ => 1) fun c =>
    match c.writeId false id v with
    | some c1 => .inr (c1.advance, .none)
    | none => .inl 1

def ecMovc (env : EcEnv) (dst src : Nat) : EcCore → EcCore × EcEff :=
  ecIssue env .ctl (fun _ => 1) fun c =>
    match c.readId env src with
    | none => .inl 1
    | some v => match c.writeId true dst v with
      | some c1 => .inr (c1.advance, .none)
      | none => .inl 1

/-- R204: queue a transfer; with the queue full the core waits and issues again. -/
def ecXmov (env : EcEnv) (d p : Nat) (out : Bool) (lines : Nat) (c0 : EcCore) : EcCore × EcEff :=
  if c0.active && decide (c0.queue.length ≥ 4) then (c0, .none) else
  ecIssue env .ctl (fun _ => 1) (fun c =>
    let cis := (c.dr d).toNat
    let loc := c.pr p
    if lines < 1 || lines > 4096 then .inl 1
    else if cis % 32 != 0 || loc % 8 != 0 || loc + 8 * lines > 0x8000 then .inl 5
    else .inr ({ c.advance with queue := c.queue ++ [{ out := out, cis := cis, loc := loc, lines := lines }] }, .none)) c0

/-- R204: the core waits while a transfer is queued. -/
def ecXwait (env : EcEnv) : EcCore → EcCore × EcEff :=
  ecIssue env .ctl (fun _ => 1) fun c =>
    if c.queue.isEmpty then .inr (c.advance, .none) else .inr ({ c with waiting := true }, .none)

def ecSignal (env : EcEnv) (src : Nat) : EcCore → EcCore × EcEff :=
  ecIssue env .ctl (fun _ => 1) fun c => .inr (c.advance, .signal src)

def ecClrf (env : EcEnv) (m : Nat) : EcCore → EcCore × EcEff :=
  ecIssue env .ctl (fun _ => 1) fun c =>
    .inr ({ c with gov := c.gov && !(m.testBit 0), sat := c.sat && !(m.testBit 1) }.advance, .none)

/-- A word no format accepts (R233, cause 0x01); its issue cycle still has to fit the budget. -/
def ecIllegal (env : EcEnv) : EcCore → EcCore × EcEff := ecIssue env .px (fun _ => 1) fun _ => .inl 1

end Sys2Proof.Machine
end

