-- ==== Sys2Proof/Machine/EcDecode.lean ====
section
/-! DEFINITION. The instruction a 64-bit word of program memory holds (R205 to R210), and the cost of the next issue. -/

namespace Sys2Proof.Machine

/-- Bits `[hi:lo]` of an instruction. -/
def ib (w : Nat) (hi lo : Nat) : Nat := w / 2 ^ lo % 2 ^ (hi - lo + 1)

def ibit (w i : Nat) : Bool := w.testBit i

/-- A move field (R207): none for one that is illegal. -/
def decMv (m : Nat) : Option Mv :=
  if ib m 1 0 != 0 then none
  else
    match ib m 11 9 with
    | 0 => if m = 0 then some .none else none
    | 1 => some (.ld (ib m 8 5) (ib m 4 2))
    | 2 => some (.st (ib m 8 5) (ib m 4 2))
    | 3 => some (.sta (ib m 8 7) (ib m 6 5) (ib m 4 2))
    | _ => none

/-- An address update (R208). -/
def decUpd (u : Nat) : Option Upd :=
  if ib u 1 0 != 0 then none
  else if ibit u 7 then some (.upd (ib u 6 4) (ib u 3 2))
  else if u = 0 then some .none else none

/-- Slot A (R206), 22 bits; `nul` is the instruction for an empty slot. -/
def decSlotA (c a : Nat) (q : Par) (nul : Instr) : Option Instr :=
  let f (hi lo : Nat) := ib a hi lo
  let z (m : Nat) (i : Instr) : Option Instr := if a % 2 ^ 17 &&& m = 0 then some i else none
  match f 21 17 with
  | 0x00 => z 0x1FFFF nul
  | 0x01 => z 0x3F (.mpy c (f 16 15) (f 14 11) (f 10 7) (ibit a 6) q)
  | 0x02 => z 0x3F (.mac c (f 16 15) (f 14 11) (f 10 7) (ibit a 6) q)
  | 0x03 => z 0x1FF (.fir4 c (f 16 13) (f 12 11) (ibit a 10) (ibit a 9) q)
  | 0x04 => some (.dmac c (f 16 16) (f 15 12) (f 11 8) (f 7 4) (f 3 0) q)
  | 0x05 => some (.dmpy c (f 16 16) (f 15 12) (f 11 8) (f 7 4) (f 3 0) q)
  | 0x06 => z 0xFF (.cmac c (f 16 14) (f 13 11) (f 10 10) (ibit a 9) (ibit a 8) q)
  | 0x07 => z 0x1 (.acs2 c (f 16 13) (f 12 9) (f 8 5) (f 4 2) (ibit a 1) q)
  | 0x08 => some (.acs1 c (f 16 13) (f 12 9) (f 8 5) (f 4 1) (ibit a 0) q)
  | 0x09 => z 0x1F (.add c (f 16 13) (f 12 9) (f 8 5) q)
  | 0x0A => z 0x1F (.sub c (f 16 13) (f 12 9) (f 8 5) q)
  | 0x0B => z 0x1F (.adds c (f 16 13) (f 12 9) (f 8 5) q)
  | 0x0C => z 0x1F (.subs c (f 16 13) (f 12 9) (f 8 5) q)
  | 0x0D => z 0x1F (.and c (f 16 13) (f 12 9) (f 8 5) q)
  | 0x0E => z 0x1F (.or c (f 16 13) (f 12 9) (f 8 5) q)
  | 0x0F => z 0x1F (.xor c (f 16 13) (f 12 9) (f 8 5) q)
  | 0x10 =>
    if ibit a 6 then z 0x30 (.shift c (f 8 7) (f 16 13) (f 12 9) (.reg (f 3 0)) q)
    else z 0x20 (.shift c (f 8 7) (f 16 13) (f 12 9) (.imm (f 4 0)) q)
  | 0x11 => z 0x1F (.min c (f 16 13) (f 12 9) (f 8 5) q)
  | 0x12 => z 0x1F (.max c (f 16 13) (f 12 9) (f 8 5) q)
  | 0x13 => z 0x1FF (.abs c (f 16 13) (f 12 9) q)
  | 0x14 => z 0x1FF (.neg c (f 16 13) (f 12 9) q)
  | 0x15 => z 0x1E01F (.cmp c (f 12 9) (f 8 5) q)
  | 0x16 => z 0x1FF (.mov c (f 16 13) (f 12 9) q)
  | 0x17 => z 0x1FFF (.aclr c (f 16 13) q)
  | 0x18 => z 0xFFF (.aadd c (f 16 15) (f 14 13) (ibit a 12) q)
  | 0x19 => z 0x7F (.ash c (f 16 15) (f 14 13) (signedOf 6 (f 12 7)) q)
  | 0x1A => z 0x1FF (.arnd c (f 16 13) (f 12 11) (f 10 9) q)
  | 0x1B => z 0x7FF (.ald c (f 16 15) (f 14 11) q)
  | _ => none

/-- A P word with slot A empty: the row of its first move, or of its update, stands for it. -/
def emptySlot (c : Nat) (q : Par) : Instr :=
  match q.m0 with
  | .ld d p => .ld c d p q.m1 q.u0 q.u1
  | .st d p => .st c d p q.m1 q.u0 q.u1
  | .sta a sh p => .sta c a sh p q.m1 q.u0 q.u1
  | .none =>
    match q.m1, q.u0 with
    | .none, .upd n op => .addressUpdate c n op q.u1
    | _, _ => .nop c q

def decP (c w : Nat) : Option Instr :=
  match decMv (ib w 39 28), decMv (ib w 27 16), decUpd (ib w 15 8), decUpd (ib w 7 0) with
  | some m0, some m1, some u0, some u1 =>
    let q : Par := { m0 := m0, m1 := m1, u0 := u0, u1 := u1 }
    decSlotA c (ib w 61 40) q (emptySlot c q)
  | _, _, _, _ => none

/-- C format (R209). -/
def decC (c w : Nat) : Option Instr :=
  let cond := ib w 55 52
  let imm := ib w 31 0
  let un (i : Instr) : Option Instr := if cond = 0 then some i else none
  let tgt (i : Instr) : Option Instr := if imm < 8192 then some i else none
  let cnt (n : Nat) : Cnt := if ibit w 43 then .reg (ib w 47 44) else .imm n
  match ib w 61 56 with
  | 0x01 => tgt (.br c cond imm)
  | 0x02 => tgt (.call c cond imm)
  | 0x03 => some (.ret c cond)
  | 0x04 => un (.reti c)
  | 0x05 => un (.rpt c (cnt (ib w 12 0)))
  | 0x06 => if ib w 31 29 = 0 then un (.loop c (ib w 28 16) (cnt (ib w 15 0))) else none
  | 0x07 => un (.halt c)
  | 0x08 => un (.ldi c (ib w 47 40) (wd imm))
  | 0x09 => un (.movc c (ib w 47 40) (ib w 39 32))
  | 0x0A => un (.xmov c (ib w 47 44) (ib w 42 40) (ibit w 32) (ib w 12 0))
  | 0x0B => un (.xwait c)
  | 0x0C => un (.signal c (ib w 8 0))
  | 0x0D => un (.clrf c (ib w 1 0))
  | _ => none

/-- X format (R210). -/
def decX (c w : Nat) : Option Instr :=
  if ib w 47 32 != 0 then none
  else
    let d := ib w 55 52
    let x := ib w 51 48
    let v := wd (ib w 31 0)
    match ib w 61 56 with
    | 0x00 => some (.addi c d x v)
    | 0x01 => some (.addsi c d x v)
    | 0x02 => some (.andi c d x v)
    | 0x03 => some (.ori c d x v)
    | 0x04 => some (.xori c d x v)
    | 0x05 => some (.cmpi c x v)
    | 0x06 => some (.mini c d x v)
    | 0x07 => some (.maxi c d x v)
    | _ => none

/-- What core `c` issues for a word. -/
def ecDecode (c : Nat) (v : BitVec 64) : Instr :=
  let w := v.toNat
  let r := match ib w 63 62 with
    | 0 => decP c w
    | 1 => decC c w
    | 2 => decX c w
    | _ => none
  r.getD (.illegalInstruction c)

/-- The word at the PC. -/
def EcCore.fetch (c : EcCore) : BitVec 64 := tabGetD c.prog c.pc 0

/-- Issue cycles of the instruction at the PC (R218); the writes that its cycle sees are in. -/
def ecNextCost (c0 : EcCore) : Nat :=
  let c := c0.settle
  let w := c.fetch.toNat
  match ib w 63 62 with
  | 0 =>
    (match decMv (ib w 39 28), decMv (ib w 27 16) with
     | some m0, some m1 => parCost { m0 := m0, m1 := m1 } c
     | _, _ => 1)
  | 1 =>
    (match decC 0 w with
     | some (.rpt _ _) => 2
     | some (.loop _ _ n) => if cntVal c n % 65536 = 0 then 3 else 1
     | _ => 1)
  | _ => 1

end Sys2Proof.Machine
end

