-- ==== Sys2Proof/Machine/Ec.lean ====
section
/-! DEFINITION. Effect cores in the block (chapter 07): tick programs, inserts, faults, interrupts, transfers and the commands
of group 0x08. -/

namespace Sys2Proof.Machine

def State.ec (s : State) (c : Nat) : EcCore := tabGetD s.ecs c {}

def State.setEc (s : State) (c : Nat) (e : EcCore) : State := { s with ecs := tabSet s.ecs c e }

/-! ### Committed registers (R236, R237) -/

def ecCtrl (cm : Committed) (c : Nat) : Word := cm.reg (ecReg c 4)
def ecRunBit (cm : Committed) (c : Nat) : Bool := bit (ecCtrl cm c) 0
def ecClass (cm : Committed) (c : Nat) : Nat := fld (ecCtrl cm c) 5 4
def ecDepth (cm : Committed) (c : Nat) : Nat := fld (ecCtrl cm c) 10 8

/-- Tick in which a core of a class processes block `k` (R229, R230); the commit boundary for class 3. -/
def ecTickOf (cls depth k : Nat) : Nat :=
  match cls with
  | 0 => k
  | 1 => k + 2 + depth
  | 2 => k + 2
  | _ => k - 2

/-- Block a core processes in tick `t` (R229). -/
def ecBlkOf (cls depth t : Nat) : Nat :=
  match cls with
  | 1 => t - 2 - depth
  | 2 => t - 2
  | _ => t

/-- State that governs a running tick program (R20, R230). -/
def ecCm (s : State) (e : EcCore) : Committed := if e.cls = 3 then s.cm else s.cmAt e.blk

def ecEnvOf (s : State) (c : Nat) : EcEnv :=
  let e := s.ec c
  let cm := ecCm s e
  { core := c
    decl := fld (cm.reg (ecReg c 0x14)) 19 0
    clamp := bit (ecCtrl cm c) 1
    fresh := s.freeCtr }

/-! ### Inserts in force -/

/-- Insert of an object at a block (class 0). -/
def objRouteAt (s : State) (o b : Nat) : Option Insert :=
  match (tabGetD s.ecIo.objRoute o []).find? (fun e => decide (e.1 ≤ b)) with
  | some e => e.2
  | none => none

/-- Post-correction chain of an output, by depth. -/
def outChain (s : State) (o : Nat) : List Insert :=
  sortBy (fun (i : Insert) => (s.ec i.core).depth) (s.ecIo.outIns.filter (·.target == o))

/-- Every insert in force that core `c` serves while it processes block `b`. -/
def insertsOf (s : State) (c b : Nat) : List Insert :=
  (s.ecIo.objRoute.filterMap fun (e : Nat × List (Nat × Option Insert)) =>
    match objRouteAt s e.1 b with
    | some i => if i.core = c then some i else none
    | none => none) ++
  (s.ecIo.outIns.filter (·.core == c)) ++ (s.ecIo.auxIns.filter (·.core == c))

/-! ### The output buffer (R228, R232, R235) -/

/-- Multiply samples by weights of 20 fraction bits. -/
def weigh (xs w : List Int) : List Int := (xs.zip w).map fun (x, g) => rne (x * g) 20

/-- R232: weight 1 - (j + 1) / B. -/
def fadeLast (xs : List Int) : List Int :=
  xs.zipIdx.map fun (x, j) => rneDiv (x * (xs.length - 1 - j : Nat)) xs.length

/-- Take the output buffers of a core. -/
def takeOut (c : Nat) (fade : Bool) (s : State) : State :=
  let e := s.ec c
  let B := s.blockLen
  let w := rampSamples B (e.ramp.at (e.blk - 1)) (e.ramp.at e.blk)
  let new : List EcOut := (insertsOf s c e.blk).map fun i =>
    let xs := (List.range B).map fun j => (e.word (i.outBuf + j)).toInt
    { tick := e.tick
      blk := e.blk
      core := c
      target := i.target
      samples := weigh (if fade then fadeLast xs else xs) w }
  { s with ecIo := { s.ecIo with
    outs := new ++ s.ecIo.outs.filter fun x => !(x.core == c && x.tick == e.tick) } }

/-- What a core delivered for a target and block. -/
def ecOutOf (s : State) (c target b : Nat) : Option (List Int) :=
  (s.ecIo.outs.find? fun x => x.core == c && x.target == target && x.blk == b).map (·.samples)

/-! ### Data memory from the bus matrix (R201, R203) -/

def ecByte (e : EcCore) (off : Nat) : Byte :=
  if off < 0x10000 then (tabGetD e.prog (off / 8) 0).extractLsb' (off % 8 * 8) 8
  else (e.word ((off - 0x40000) / 4)).extractLsb' (off % 4 * 8) 8

def setWordByte (w : Word) (i : Nat) (b : Byte) : Word := setFld w (8 * i + 7) (8 * i) b.toNat

/-- Write bytes to data memory. -/
def ecPutBytes (e : EcCore) (off : Nat) (l : List Byte) : EcCore :=
  l.zipIdx.foldl (fun e (b, i) =>
    let o := off + i - 0x40000
    e.store (o / 4) (setWordByte (e.word (o / 4)) (o % 4) b)) e

/-- The window offset lies in program memory, or in data memory. -/
def ecInProg (off n : Nat) : Bool := decide (off + n ≤ 0x10000)
def ecInData (off n : Nat) : Bool := decide (0x40000 ≤ off) && decide (off + n ≤ 0x60000)

/-! ### Responses of the bus matrix (R300, R301, R304) -/

/-- Alias responses of a master go out in issue order. -/
def aliasFlush (m : Nat) (s : State) : State :=
  let mine := s.cis.bus.filter fun w => w.aliased && w.t.master == m
  let go := mine.takeWhile fun w => w.ans.isSome
  let nums := go.map (·.num)
  let s := { s with cis := { s.cis with bus := s.cis.bus.filter fun w => !nums.contains w.num } }
  go.foldl (fun s w => match w.ans with
    | some a => s.emit (.bus m w.t.id a.1 a.2.1 a.2.2)
    | none => s) s

/-- The response of the transaction of number `n`. -/
def busRespond (n resp : Nat) (busy : Bool) (data : List Byte) (s : State) : State :=
  match s.cis.bus.find? (·.num == n) with
  | none => s
  | some w =>
    if w.aliased then
      let w := { w with ans := some (resp, busy, data) }
      aliasFlush w.t.master { s with cis := { s.cis with bus := s.cis.bus.map fun v => if v.num == n then w else v } }
    else
      let s := { s with cis := { s.cis with bus := s.cis.bus.filter fun v => v.num != n } }
      s.emit (.bus w.t.master w.t.id resp busy data)

/-- Data of an error response: zeros for a read. -/
def zeroData (t : BusTxn) : List Byte := if t.write then [] else List.replicate t.len 0

/-- What an ERR_DECODE leaves in the BUS block (R298). -/
def logDecode (t : BusTxn) (s : State) : State :=
  let s := (s.inc R.busCntDecode).setNat R.busErrAddr t.addr
  (s.setNat R.busErrInfo (t.master % 32 + 256 * b2n t.write)).evt R.busEvtStatus 0

def decodeErr (n : Nat) (t : BusTxn) (s : State) : State := busRespond n 2 false (zeroData t) (logDecode t s)

/-- Answer an access to a core's window (R201, R203): bus transaction `n`, or with none an access of its own. -/
def ecReply (n : Option Nat) (t : BusTxn) (resp : Nat) (data : List Byte) (s : State) : State :=
  match n with
  | some k => busRespond k resp false data s
  | none => s.emit (.bus t.master t.id resp false data)

def ecAnswer (c : Nat) (n : Option Nat) (t : BusTxn) (s : State) : State :=
  let off := t.addr % 0x100000
  let e := s.ec c
  if ecInData off t.len && t.write then ecReply n t 0 [] (s.setEc c (ecPutBytes e off (t.data.take t.len)))
  else if ecInData off t.len || (ecInProg off t.len && !t.write) then
    ecReply n t 0 ((List.range t.len).map fun i => ecByte e (off + i)) s
  else ecReply n t 2 (zeroData t) (logDecode t s)

/-- An access to an effect-core memory: data memory of a running core makes it wait. -/
def ecAccess (n : Option Nat) (t : BusTxn) (s : State) : State :=
  let c := t.addr / 0x100000 % 16
  if (s.ec c).active && ecInData (t.addr % 0x100000) t.len then
    { s with ecIo := { s.ecIo with waits := s.ecIo.waits ++ [(c, n, t)] } }
  else ecAnswer c n t s

/-- Words of an OP_EC_READ. -/
def ecReadWords (s : State) (c a n : Nat) : List Word := (List.range n).map fun i => (s.ec c).word (a + i)

/-- Answer what waited for the core (R203). -/
def ecServe (c : Nat) (s : State) : State :=
  if (s.ec c).active then s
  else
    let mine := s.ecIo.waits.filter (·.1 == c)
    let rd := s.ecIo.reads.filter (·.1 == c)
    let s := { s with ecIo := { s.ecIo with
      waits := s.ecIo.waits.filter (·.1 != c)
      reads := s.ecIo.reads.filter (·.1 != c) } }
    let s := mine.foldl (fun s e => ecAnswer c e.2.1 e.2.2 s) s
    rd.foldl (fun s (_, a, n, num) =>
      let cp := resCpl (resWords (ecReadWords s c a n))
      { s with cmd := { s.cmd with fetched := s.cmd.fetched.map fun f =>
        if f.num == num then { f with cpl := some cp } else f } }) s

/-! ### Ends of a tick program (R231 to R234, R236) -/

/-- ECX_FLAGS takes SAT and GOV. -/
def ecFlags (c : Nat) (s : State) : State :=
  let e := s.ec c
  s.setReg (ecReg c 0x28) (s.reg (ecReg c 0x28) ||| wd (b2n e.gov + 2 * b2n e.sat))

def ecHalted (c : Nat) (s : State) : State :=
  let e := s.ec c
  let s := s.setNat (ecReg c 0x1C) e.issue
  let s := if s.regNat (ecReg c 0x20) < e.issue then s.setNat (ecReg c 0x20) e.issue else s
  let s := s.setNat (ecReg c 0x24) (s.clk - e.startClk)
  ecServe c (takeOut c false (ecFlags c s))

/-- The record an overrun or a fault leaves: counter, event bit. -/
def ecStopped (c cnt b : Nat) (s : State) : State :=
  let s := (ecFlags c s).setNat (ecReg c 0x2C) (s.ec c).pc
  ecServe c (takeOut c true ((s.inc (ecReg c cnt)).evt (ecReg c 0x4C) b))

def ecOverran (c : Nat) (s : State) : State := ecStopped c 0x38 0 s

def ecFaulted (c : Nat) (s : State) : State := ecStopped c 0x40 1 s

/-- RETI completes the claim (R321). -/
def ecClaimDone (c : Nat) (s : State) : State := s.setStack (c + 5) (irqStack s (c + 5)).tail

def ecEffect (c : Nat) : EcEff → State → State
  | .none, s => s
  | .halted, s => ecHalted c s
  | .overrun, s => ecOverran c s
  | .faulted, s => ecFaulted c s
  | .signal src, s => ringDoorbell s src
  | .reti, s => ecServe c (ecClaimDone c s)

/-- Issue one instruction on a core. -/
def ecRun (c : Nat) (f : EcEnv → EcCore → EcCore × EcEff) (s : State) : State :=
  if 16 ≤ c ∨ (s.ec c).active = false then s
  else
    let r := f (ecEnvOf s c) (s.ec c)
    ecEffect c r.2 { s.setEc c r.1 with freeCtr := s.freeCtr + 1 }

/-! ### Boundary (R228, R230, R234, R235) -/

/-- Stop a tick program that has not reached HALT (R234). -/
def lateHalt (c : Nat) (s : State) : State :=
  let e := s.ec c
  let open_ := e.mode == .running || (e.mode == .handler && (match e.save with
    | some v => !v.halted
    | none => true))
  if open_ then failSelf (ecStopped c 0x3C 0 (s.setEc c (e.stopFault 6))) else s

/-- Well words of an object's block: `xs` at sample times from `t0` on (R69, R290). -/
def writeWell (s : State) (w : Well) (t0 : Nat) (xs : List Int) : State :=
  xs.zipIdx.foldl (fun s (x, j) => renderWrite s clIngress 1 (wellOff w (t0 + j)) (wdI x)) s

/-- Class 0: the block processed in the tick that ended goes to the well for the pumps of tick `t` (R229). -/
def classZeroOut (t : Nat) (s : State) : State :=
  let B := s.blockLen
  s.ecIo.objRoute.foldl (fun s (o, _) =>
    match objRouteAt s o t, tabGet (s.cmAt t).wells o with
    | some i, some w => writeWell s w (t * B) ((ecOutOf s i.core o (t - 1)).getD (zeros B))
    | _, _ => s) s

/-- Chains whose ramp has ended switch (R235). -/
def chainSwitch (t : Nat) (s : State) : State :=
  let due := s.ecIo.outChg.filter fun e => decide (e.2.2 ≤ t)
  due.foldl (fun s (o, _) =>
    { s with ecIo := { s.ecIo with
      outIns := s.ecIo.outIns.filter (·.target != o) ++
        s.cm.inserts.filter fun i => i.target == o && (s.ec i.core).cls == 1
      outChg := tabDel s.ecIo.outChg o } }) s

/-- Parameter words land (R230). -/
def landParams (c t : Nat) (s : State) : State :=
  let e := s.ec c
  let due := e.params.filter fun x => decide (x.1 ≤ t)
  if due.isEmpty then s
  else
    let e := { e with params := e.params.filter fun x => !(decide (x.1 ≤ t)) }
    s.setEc c (due.foldl (fun e (_, a, ws) => ws.zipIdx.foldl (fun e (w, i) => e.store (a + i) w) e) e)

/-- Samples of an insert's input block. -/
def insertInput (s : State) (c : Nat) (i : Insert) (t : Nat) : List Word :=
  let e := s.ec c
  let B := s.blockLen
  let b := ecBlkOf e.cls e.depth t
  match e.cls with
  | 0 =>
    let l := tabGetD s.ecIo.hw i.target []
    (List.range B).map fun j => match l.find? (fun x => x.1 == b * B + j) with
      | some x => wdI x.2
      | none => 0
  | 1 =>
    let before := (outChain s i.target).filter fun x => decide ((s.ec x.core).depth < e.depth)
    let xs := if t < 2 + e.depth then zeros B else match before.getLast? with
      | some p => (ecOutOf s p.core i.target b).getD (zeros B)
      | none => match s.smp.corOut.find? (fun x => x.1 == b) with
        | some x => tabGetD x.2 i.target (zeros B)
        | none => zeros B
    xs.map wdI
  | _ => (List.range B).map fun j => Config.insertWord c i.inBuf t j

/-- Place input blocks in half `t` mod 2; at the first start both halves are zeroed (R228). -/
def placeInputs (c t : Nat) (first : Bool) (s : State) : State :=
  let B := s.blockLen
  let ins := insertsOf s c (ecBlkOf (s.ec c).cls (s.ec c).depth t)
  ins.foldl (fun s i =>
    let e := s.ec c
    let e := if first then (List.range (2 * B)).foldl (fun e j => e.store (i.inBuf + j) 0) e else e
    let xs := insertInput s c i t
    s.setEc c (xs.zipIdx.foldl (fun e (w, j) => e.store (i.inBuf + t % 2 * B + j) w) e)) s

/-- Registers zeroed (R235), the rest of the core kept. -/
def zeroRegs (e : EcCore) : EcCore :=
  { prog := e.prog
    mem := e.mem
    params := e.params
    queue := e.queue
    runOn := e.runOn
    cls := e.cls
    depth := e.depth
    ramp := e.ramp
    stopDue := e.stopDue
    stopAt := e.stopAt
    mode := .halted }

/-- Writes on their way are done. -/
def EcCore.flush (e : EcCore) : EcCore := { e.late.foldl (fun x w => x.apply w.2.2) e with late := [] }

/-- Begin the tick program of tick `t`. A handler that a halted core was woken for returns into it. -/
def beginProgram (c t : Nat) (s : State) : State :=
  let e := s.ec c
  let blk := ecBlkOf e.cls e.depth t
  let cm := ecCm s { e with blk := blk }
  let entry := fld (cm.reg (ecReg c 0xC)) 12 0
  let e := { e.flush with
    issue := 0
    quota := 0
    held := []
    stack := []
    tick := t
    blk := blk
    startClk := s.clk }
  let e := match e.mode, e.save with
    | .handler, some v => { e with save := some { v with pc := entry, loops := [], halted := false } }
    | _, _ =>
      { e with
        pc := entry
        loops := []
        slots := none
        rep := none
        waiting := false
        mode := .running }
  (s.setEc c e).setNat64 (ecReg c 0x30) t

/-- One core at boundary `t`. -/
def ecCoreTick (t c : Nat) (s : State) : State :=
  let s := landParams c t s
  let e := s.ec c
  let s := s.setEc c { e with quota := 0, held := [] }
  if (match e.stopAt with
      | some x => decide (x ≤ t)
      | none => false) then
    s.setEc c { e with
      mode := .stopped
      runOn := false
      startTick := none
      stopDue := none
      stopAt := none
      quota := 0
      held := [] }
  else if (match e.startTick with
      | some x => decide (x ≤ t)
      | none => false) then
    let s := (s.setEc c (zeroRegs e)).setStack (c + 5) []
    beginProgram c t (placeInputs c t true s)
  else if e.runOn && e.startTick.isNone && (e.mode == .halted || e.mode == .handler) then
    beginProgram c t (placeInputs c t false s)
  else s

/-- The effect cores at boundary `t` (R19 item 5). -/
def ecTick (t : Nat) (s : State) : State :=
  let cores := s.ecs.map (·.1)
  let s := cores.foldl (fun s c => lateHalt c s) s
  let s := classZeroOut t s
  let s := chainSwitch t s
  let s := (s.ecs.map (·.1)).foldl (fun s c => ecCoreTick t c s) s
  let B := s.blockLen
  { s with ecIo := { s.ecIo with
    outs := s.ecIo.outs.filter fun x => decide (t ≤ x.tick + 9)
    hw := s.ecIo.hw.map fun (x : Nat × List (Nat × Int)) => (x.1, x.2.filter fun y => decide ((t + 1) * B ≤ y.1)) } }

/-! ### Commands of the tick (R231, R234, R235) -/

/-- EC_OVERRUN. -/
def doEcOverrun (core : Nat) (s : State) : State :=
  let e := s.ec core
  if core < 16 ∧ e.mode = .running ∧ e.waiting = false ∧ (ecEnvOf s core).decl < e.issue + ecNextCost e then
    ecOverran core (s.setEc core { e.settle with mode := .overrun })
  else s

def execEcOverrun (core : Nat) (s : State) : Host.Outcome State Fault Refusal := .next (settle (doEcOverrun core s))

/-- LATE_HALT. -/
def doLateHalt (core : Nat) (s : State) : State :=
  if s.tickRuns = true ∧ core < 16 ∧ (s.ec core).active = true then lateHalt core (s.atClk s.tickEnd) else s

def execLateHalt (core : Nat) (s : State) : Host.Outcome State Fault Refusal := .next (settle (doLateHalt core s))

/-- EC_STOP_RAMP_END: the core stops at the next boundary. -/
def doEcStopRampEnd (core : Nat) (s : State) : State :=
  let e := s.ec core
  match e.stopDue with
  | some d => if d ≤ s.tick + 1 ∧ e.stopAt = none then s.setEc core { e with stopAt := some (s.tick + 1) } else s
  | none => s

def execEcStopRampEnd (core : Nat) (s : State) : Host.Outcome State Fault Refusal :=
  .next (settle (doEcStopRampEnd core s))

/-! ### Transfers (R204) -/

/-- One line of a transfer: the state, and whether the transfer faults. -/
def xmovLine (c : Nat) (x : EcXfer) (i : Nat) (s : State) : State × Bool :=
  let a := x.cis + 32 * i
  let off := a - 0x10000000
  let loc := x.loc + 8 * i
  if a < 0x10000000 ∨ cisSize ≤ off then
    let s := (s.inc R.busCntDecode).setNat R.busErrAddr a
    ((s.setNat R.busErrInfo (4 + c + 256 * b2n x.out)).evt R.busEvtStatus 0, true)
  else if bankOwner s (bankOf off) ≠ 0x10 + c ∨ (bankPending s (bankOf off) = true ∧ x.inFlight = false) then
    (logForeign s off 1 (4 + c) x.out, true)
  else if x.out then
    (cisWrite s off (bytesOfWords ((List.range 8).map fun j => (s.ec c).word (loc + j))), false)
  else
    let r := portRead s off 32 1 (4 + c)
    let e := (wordsOf r.2.1).zipIdx.foldl (fun e (w, j) => e.store (loc + j) w) (r.1.ec c)
    (r.1.setEc c e, false)

/-- XMOV_COMPLETE: the oldest transfer of the queue is done, or faults at its first foreign line. -/
def doXmovComplete (core : Nat) (s : State) : State :=
  let e := s.ec core
  match e.queue with
  | [] => s
  | x :: rest =>
    let banks := (List.range x.lines).map fun i => bankOf (x.cis + 32 * i - 0x10000000)
    if 16 ≤ core ∨ banks.any (s.cis.clearing.contains ·) = true then s
    else
      let r := (List.range x.lines).foldl (fun (s, bad) i => if bad then (s, bad) else xmovLine core x i s) (s, false)
      let s := r.1.setEc core { r.1.ec core with queue := rest }
      if r.2 && (s.ec core).mode != .fault then ecFaulted core (s.setEc core ((s.ec core).stopFault 5)) else s

def execXmovComplete (core : Nat) (s : State) : Host.Outcome State Fault Refusal := .next (settle (doXmovComplete core s))

/-- XWAIT_COMPLETE: the waiting XWAIT proceeds once the queue is empty. -/
def doXwaitComplete (core : Nat) (s : State) : State :=
  let e := s.ec core
  if e.active = true ∧ e.waiting = true ∧ e.queue = [] then s.setEc core { e.advance with waiting := false } else s

def execXwaitComplete (core : Nat) (s : State) : Host.Outcome State Fault Refusal :=
  .next (settle (doXwaitComplete core s))

/-! ### Interrupts (R225, R226, R321) -/

/-- The core stands at an open instruction boundary. -/
def ecOpen (e : EcCore) : Bool := e.slots.isNone && e.rep.isNone && !e.waiting

/-- Sources that only the spent quota holds back. -/
def ecHeldBack (s : State) (c : Nat) : List Nat :=
  let e := s.ec c
  (pendList s).filter fun x =>
    s.srcEn x && s.irq.rel.contains x && irqRoute s x == c + 5 &&
    (e.mode == .running || (e.mode == .halted && irqWake s x)) && !e.held.contains x &&
    (irqStack s (c + 5)).isEmpty

/-- IRQ_HANDLER_ENTRY: claim the candidate and enter the handler; a spent quota holds what is pending. -/
def doIrqHandlerEntry (core : Nat) (s : State) : State :=
  let e := s.ec core
  if 16 ≤ core ∨ ecOpen e = false then s
  else if s.field (ecReg core 0x18) 15 0 ≤ e.quota then
    let h := ecHeldBack s core
    (s.setEc core { e with held := e.held ++ h }).inc (ecReg core 0x44) h.length
  else
    match irqCandidate s (core + 5) (fun _ => true) with
    | none => s
    | some src =>
      let s := claimSrc s (core + 5) src
      let sv : EcSave :=
        { pc := e.pc
          status := e.status
          dec := e.dec
          loops := e.loops
          halted := e.mode == .halted }
      let vec := fld ((ecCm s e).reg (ecReg core 0x10)) 12 0
      s.setEc core { e.store 0x7FFF (wd src) with
        save := some sv
        mode := .handler
        pc := vec
        loops := []
        quota := e.quota + 2
        cyc := e.cyc + 2 }

def execIrqHandlerEntry (core : Nat) (s : State) : Host.Outcome State Fault Refusal :=
  .next (settle (doIrqHandlerEntry core s))

/-! ### Accesses and reads (R203) -/

/-- EC_MEM_ACCESS: a word access of a bus master at a bus address. -/
def doEcMemAccess (master addr : Nat) (write : Bool) (data : Word) (s : State) : State :=
  if 0x30000000 ≤ addr ∧ addr < 0x31000000 then
    ecAccess none { master := master, addr := addr, write := write, len := 4, data := bytesOfWord data } s
  else s

def execEcMemAccess (master addr : Nat) (write : Bool) (data : Word) (s : State) : Host.Outcome State Fault Refusal :=
  .next (settle (doEcMemAccess master addr write data s))

/-- OP_EC_READ. -/
def ecRead (p : List Byte) (s : State) : State × Res :=
  let w := wordsOf p
  let c := (wAt w 0).toNat
  let a := (wAt w 1).toNat
  let n := (wAt w 2).toNat
  if p.length = 12 ∧ c < 16 ∧ 1 ≤ n ∧ n ≤ 10 ∧ a + n ≤ 0x8000 then
    if (s.ec c).active then
      ({ s with ecIo := { s.ecIo with reads := s.ecIo.reads ++ [(c, a, n, s.cmd.fetchNum - 1)] } }, { later := true })
    else (s, resWords (ecReadWords s c a n))
  else (s, resErr stBadParam)

/-! ### Staging (R263) -/

def chkEcLoad (_ : State) (_ : List Packet) (p : List Byte) : Nat :=
  let w := wordsOf p
  let n := (wAt w 2).toNat
  if 1 ≤ n ∧ n ≤ 508 ∧ p.length = 12 + 8 * n ∧ (wAt w 0).toNat < 16 ∧ (wAt w 1).toNat + n ≤ 8192 then stOk
  else stBadParam

def chkEcParam (_ : State) (_ : List Packet) (p : List Byte) : Nat :=
  let w := wordsOf p
  let n := (wAt w 2).toNat
  if 1 ≤ n ∧ n ≤ 1017 ∧ p.length = 12 + 4 * n ∧ (wAt w 0).toNat < 16 ∧ (wAt w 1).toNat + n ≤ 0x8000 then stOk
  else stBadParam

def chkEcAttach (_ : State) (_ : List Packet) (p : List Byte) : Nat :=
  listOk 4 p fun w => fld (wAt w 0) 7 4 == 0 && fld (wAt w 0) 31 9 == 0

def chkEcMask (_ : State) (_ : List Packet) (p : List Byte) : Nat :=
  if p.length = 4 ∧ fld (wAt (wordsOf p) 0) 31 16 = 0 then stOk else stBadParam

/-! ### Landing (R230, R235) -/

/-- A core that runs at the effective block: its start or its program is committed (R235). -/
def ecRuns (s : State) (c : Nat) : Bool :=
  let e := s.ec c
  e.runOn && e.mode != .overrun && e.mode != .fault || e.active || e.mode == .halted

/-- OP_EC_LOAD for a running core (R107, R235). -/
def ecLoadBad (s : State) (p : List Byte) : Bool := ecRuns s (wAt (wordsOf p) 0).toNat

/-- Pairs of words as instructions, low word first. -/
def instrWords : List Word → List (BitVec 64)
  | lo :: hi :: t => (hi ++ lo) :: instrWords t
  | _ => []

def applyEcLoad (p : List Byte) (s : State) : State :=
  let w := wordsOf p
  let c := (wAt w 0).toNat
  let e := s.ec c
  s.setEc c { e with prog := (instrWords (w.drop 3)).zipIdx.foldl (fun t (v, i) =>
    let a := (wAt w 1).toNat + i
    if v == 0 then tabDel t a else tabSet t a v) e.prog }

def applyEcParam (k : Nat) (p : List Byte) (s : State) : State :=
  let w := wordsOf p
  let c := (wAt w 0).toNat
  let e := s.ec c
  let t := ecTickOf (ecClass s.cm c) (ecDepth s.cm c) k
  s.setEc c { e with params := e.params ++ [(t, (wAt w 1).toNat, w.drop 3)] }

/-- One insert of OP_EC_ATTACH; two records of a core name the same insert by target, in classes 2 and 3 by buffer. -/
def insertOf (w : List Word) : Insert :=
  { core := fld (wAt w 0) 3 0
    target := (wAt w 1).toNat
    inBuf := (wAt w 2).toNat
    outBuf := (wAt w 3).toNat }

def sameInsert (cm : Committed) (a b : Insert) : Bool :=
  a.core == b.core && a.target == b.target && (decide (ecClass cm a.core < 2) || a.inBuf == b.inBuf)

def applyEcAttach (p : List Byte) (s : State) : State :=
  (listOf 4 p).foldl (fun s w =>
    let i := insertOf w
    let rest := s.cm.inserts.filter fun x => !(sameInsert s.cm x i)
    { s with cm := { s.cm with inserts := if bit (wAt w 0) 8 then rest else rest ++ [i] } }) s

/-- A detachment of an insert that is not there. -/
def detachBad (cm : Committed) (p : List Byte) : Bool :=
  (listOf 4 p).any fun w => bit (wAt w 0) 8 && !(cm.inserts.any fun x => sameInsert cm x (insertOf w))

def applyEcMask (on : Bool) (p : List Byte) (s : State) : State :=
  (List.range 16).foldl (fun s c =>
    if (wAt (wordsOf p) 0).toNat.testBit c then
      let v := if on then setBitW (ecCtrl s.cm c) 0 else clrBitW (ecCtrl s.cm c) 0
      let s := { s with cm := s.cm.setReg (ecReg c 4) v }
      s.setEc c { s.ec c with startReq := on }
    else s) s

/-! ### Rules of the pass (R229, R231, R237) -/

/-- Two word ranges meet. -/
def overlap (a n b m : Nat) : Bool := decide (a < b + m) && decide (b < a + n)

/-- Buffers of a core's inserts: address and length. -/
def insBufs (B : Nat) (l : List Insert) : List (Nat × Nat) := l.flatMap fun i => [(i.inBuf, 2 * B), (i.outBuf, B)]

def bufsBad : List (Nat × Nat) → Bool
  | [] => false
  | (a, n) :: t => decide (0x8000 < a + n) || t.any (fun x => overlap a n x.1 x.2) || bufsBad t

/-- R229, R237: `old` is the state before the transaction. -/
def insertsBad (s : State) (old c : Committed) : Bool :=
  (List.range 16).any (fun k =>
    let l := c.inserts.filter (·.core == k)
    let cls := ecClass c k
    let decl := fld (c.reg (ecReg k 0x14)) 31 0
    bufsBad (insBufs s.blockLen l) || decide (decl < 1) || decide (750000 < decl) ||
    (cls != ecClass old k && !(l.isEmpty && (old.inserts.filter (·.core == k)).isEmpty)) ||
    l.any fun i => match cls with
      | 0 => decide (s.objects ≤ i.target)
      | 1 => decide (s.outputs ≤ i.target)
      | _ => i.target != 0) ||
  c.inserts.any fun i => c.inserts.any fun j =>
    i.core != j.core && i.target == j.target && ecClass c i.core == ecClass c j.core &&
    (ecClass c i.core == 0 || (ecClass c i.core == 1 && ecDepth c i.core == ecDepth c j.core))

/-! ### Commit (R235) -/

/-- Start or stop of core `c` at effective block `k`. -/
def ecCommitCore (k : Nat) (c0 : Committed) (c : Nat) (s : State) : State :=
  let e := s.ec c
  let run0 := ecRunBit c0 c
  let run1 := ecRunBit s.cm c
  let cls := ecClass s.cm c
  let depth := ecDepth s.cm c
  let free := (s.cm.inserts.filter (·.core == c)).isEmpty || !e.runOn
  let e := if free || (c0.inserts.filter (·.core == c)).isEmpty then { e with cls := cls, depth := depth } else e
  let mute := rampClass s.cm 2
  let idle := e.mode == .stopped || e.mode == .overrun || e.mode == .fault
  let e' :=
    if run1 && (e.startReq || !run0) then
      if idle && e.startTick.isNone then
        { e with
          startReq := false
          runOn := true
          startTick := some (ecTickOf e.cls e.depth k)
          stopDue := none
          stopAt := none
          ramp := newMuteRamp mute 0 true k }
      else if e.stopDue.isSome then
        { e with
          startReq := false
          stopDue := none
          stopAt := none
          ramp := newMuteRamp mute (e.ramp.at (k - 1)) true k }
      else { e with startReq := false }
    else if run0 && !run1 then
      let r := newMuteRamp mute (e.ramp.at (k - 1)) false k
      { e with
        startReq := false
        ramp := r
        stopDue := some (ecTickOf e.cls e.depth (k + r.len)) }
    else { e with startReq := false }
  if e' == s.ec c then s else s.setEc c e'

/-- Insert of an object, and chain of an output, in a committed state. -/
def objInsert (cm : Committed) (o : Nat) : Option Insert :=
  cm.inserts.find? fun i => i.target == o && ecClass cm i.core == 0

def outInserts (cm : Committed) (o : Nat) : List Insert :=
  cm.inserts.filter fun i => i.target == o && ecClass cm i.core == 1

/-- Blocks an output's chain adds (R229): the output stage takes the block its last core processes in the tick. -/
def chainDelay (s : State) (o : Nat) : Nat :=
  match (outChain s o).getLast? with
  | some i => (s.ec i.core).depth + 1
  | none => 0

/-- Attached and detached inserts start their ramps at effective block `k`. -/
def insertChange (k : Nat) (c0 : Committed) (s : State) : State :=
  if c0.inserts == s.cm.inserts then s
  else
    let mute := rampClass s.cm 2
    let tg := ((c0.inserts ++ s.cm.inserts).map (·.target)).dedup
    let s := tg.foldl (fun s o =>
      if objInsert c0 o == objInsert s.cm o then s
      else
        let down := newMuteRamp mute 0x100000 false k
        let r := (k + down.len, objInsert s.cm o) :: tabGetD s.ecIo.objRoute o []
        { s with ecIo := { s.ecIo with
          objRoute := tabSet s.ecIo.objRoute o (r.take 4)
          objGate := tabSet s.ecIo.objGate o (down, newMuteRamp mute 0 true (k + down.len)) } }) s
    let s := tg.foldl (fun s o =>
      if outInserts c0 o == outInserts s.cm o then s
      else
        let m := msBlocks (fld mute 13 0)
        { s with ecIo := { s.ecIo with outChg := tabSet s.ecIo.outChg o (k, k + m + 1 + chainDelay s o) } }) s
    { s with ecIo := { s.ecIo with auxIns := s.cm.inserts.filter fun i => decide (2 ≤ ecClass s.cm i.core) } }

/-- Weight of an object's samples at its insert point at the end of block `b` (R235). -/
def objGateAt (s : State) (o b : Nat) : Int :=
  match tabGet s.ecIo.objGate o with
  | some (d, u) => if b < u.start then (if b < d.start then 0x100000 else d.at b) else u.at b
  | none => 0x100000

/-- The effect cores' part of a commit; `s.cm` is the new state. -/
def ecCommit (k : Nat) (c0 : Committed) (s : State) : State :=
  insertChange k c0 ((List.range 16).foldl (fun s c => ecCommitCore k c0 c s) s)

/-! ### Views (R236, R238) -/

def ecModeCode : EcMode → Nat
  | .stopped => 0
  | .running => 1
  | .halted => 2
  | .handler => 3
  | .overrun => 4
  | .fault => 5

def ecStateRead (s : State) (c : Nat) : Word :=
  let e := s.ec c
  wd (e.cause * 256 + ecModeCode e.mode)

/-- ECX_REGS of an identifier: zero while the core runs, and for one that names nothing. -/
def ecRegsRead (s : State) (c r : Nat) : Word :=
  let e := s.ec c
  if e.active then 0 else ((e.flush.readId (ecEnvOf s c) r).getD 0)

/-- ECX_ACC word `j` of an accumulator. -/
def ecAccRead (s : State) (c a j : Nat) : Word :=
  let e := s.ec c
  if e.active || decide (3 ≤ j) then 0 else wdI ((e.ac a).fdiv (2 ^ (32 * j)))

end Sys2Proof.Machine
end

