-- ==== Sys2Proof/Machine/Bank.lean ====
section
/-! DEFINITION. Bank ownership and the BAR2 window (R286, R289 to R293). -/

namespace Sys2Proof.Machine

/-! ### Handover (R290 to R292) -/

/-- Owner codes that software may write (R290). -/
def ownerOk (t : Nat) : Bool := t == 0 || t == 5 || (decide (8 ≤ t) && decide (t ≤ 11)) || (decide (16 ≤ t) && decide (t < 32))

/-- A transfer touches a bank. -/
def xferTouches (x : EcXfer) (n : Nat) : Bool :=
  (List.range x.lines).any fun i => bankOf (x.cis + 32 * i - 0x10000000) == n

/-- An accepted transfer of the old owner is still in flight at the bank. -/
def bankBusy (s : State) (n : Nat) : Bool :=
  s.ecs.any fun (e : Nat × EcCore) => e.2.queue.any fun x => x.inFlight && xferTouches x n

def dropInFlight (n : Nat) (e : EcCore) : EcCore :=
  let q := e.queue.map fun x => if xferTouches x n then { x with inFlight := false } else x
  { e with queue := q }

/-- The transfer at the front of the old owner's queue was accepted before the write. -/
def markInFlight (s : State) (n : Nat) : State :=
  let o := bankOwner s n
  if o < 0x10 then s
  else
    let e := s.ec (o - 0x10)
    match e.queue with
    | x :: t => if xferTouches x n then s.setEc (o - 0x10) { e with queue := { x with inFlight := true } :: t } else s
    | [] => s

/-! ### The host window (R289, R293) -/

/-- Split an access at bank boundaries: offset and length. -/
def bankPieces (off n : Nat) : List (Nat × Nat) :=
  let k := ceilDiv (off % 0x80000 + n) 0x80000
  (List.range k).map fun i =>
    let a := if i = 0 then off else off / 0x80000 * 0x80000 + i * 0x80000
    (a, min (off + n) (a / 0x80000 * 0x80000 + 0x80000) - a)

/-- The access has to wait for clearing, or for a handover to HOST. -/
def winMustWait (s : State) (n : Nat) : Bool :=
  s.cis.clearing.contains n || (bankPending s n && bankTarget s n == 5 && bankOwner s n != 5)

def winFlag (s : State) (b : Nat) : State := s.setBit R.cisWinStatus b true

/-- One piece of a window access: the state and the data of a read. -/
def winPiece (s : State) (off n : Nat) (write : Bool) (data : List Byte) (collide : Bool) : State × List Byte :=
  let b := bankOf off
  if bankOwner s b ≠ 5 ∨ bankPending s b = true then
    (winFlag (logForeign s off 2 0 write) 1, List.replicate n 0)
  else if write then (cisWrite s off data, [])
  else if collide && !bankLine s b then
    let d := s.draw
    let s := winFlag ((d.2.inc R.cisCntBusy).evt R.cisEvtStatus 2) 0
    (s, (List.range n).map fun i => Config.collideByte d.1 i)
  else
    let r := portRead s off n 2 0
    (if r.2.2 then winFlag r.1 2 else r.1, r.2.1)

/-- Serve a window access; a read's data goes out as one completion. -/
def winServe (s : State) (w : WinWait) : State :=
  let r := (bankPieces w.off w.data.length).foldl (fun (s, (acc : List Byte)) (p : Nat × Nat) =>
    let x := winPiece s p.1 p.2 w.write ((w.data.drop (p.1 - w.off)).take p.2) w.collide
    (x.1, acc ++ x.2)) (s, [])
  if w.write then r.1 else r.1.emit (.window r.2)

def winBlocked (s : State) (w : WinWait) : Bool :=
  (bankPieces w.off w.data.length).any fun p => winMustWait s (bankOf p.1)

/-- WINDOW_ACCESS: for a read, `data` gives the length. -/
def doWindowAccess (off : Nat) (write : Bool) (data : List Byte) (collide : Bool) (s : State) : State :=
  let w : WinWait := { off := off, write := write, data := data, collide := collide }
  if cisSize < off + data.length then (if write then s else s.emit (.window (List.replicate data.length 0)))
  else if winBlocked s w then { s with cis := { s.cis with waits := s.cis.waits ++ [w] } }
  else winServe s w

def execWindowAccess (off : Nat) (write : Bool) (data : List Byte) (collide : Bool) (s : State) :
    Host.Outcome State Fault Refusal := .next (settle (doWindowAccess off write data collide s))

/-- Window accesses that wait no longer are presented in order. -/
def winRelease (s : State) : State :=
  let go := s.cis.waits.filter fun w => !winBlocked s w
  let s := { s with cis := { s.cis with waits := s.cis.waits.filter (winBlocked s ·) } }
  go.foldl winServe s

/-! ### Handover commands -/

/-- OWNER takes TARGET, and the accesses that waited for it are presented (R291 item 4). -/
def handOver (s : State) (n : Nat) : State :=
  let s := s.setNat (bankOwnReg n) (bankTarget s n)
  winRelease { s with cis := { s.cis with drains := tabDel s.cis.drains n } }

/-- A write to CIS_BANK_OWN by the host or a control core (R290, R291). -/
def bankOwnWrite (n : Nat) (val : Word) (s : State) : State :=
  let t := fld val 4 0
  if bankRegion s.mapCm n ≠ 4 ∨ ownerOk t = false then s.evt R.cisEvtStatus 4
  else if bankPending s n then s.setField (bankOwnReg n) 20 16 t
  else if t = bankOwner s n then s
  else
    let s := (s.setField (bankOwnReg n) 20 16 t).setBit (bankOwnReg n) 31 true
    let s := markInFlight s n
    if bankBusy s n then
      { s with cis := { s.cis with drains := tabSet s.cis.drains n (s.clk + 1 + s.field R.cisDrainTo 15 0) } }
    else handOver s n

def doCisBankOwnWrite (bank : Nat) (val : Word) (s : State) : State := if bank < 256 then bankOwnWrite bank val s else s

def execCisBankOwnWrite (bank : Nat) (val : Word) (s : State) : Host.Outcome State Fault Refusal :=
  .next (settle (doCisBankOwnWrite bank val s))

/-- DRAIN_COMPLETE. -/
def doDrainComplete (bank : Nat) (s : State) : State :=
  if bank < 256 ∧ bankPending s bank = true ∧ bankBusy s bank = false then handOver s bank else s

def execDrainComplete (bank : Nat) (s : State) : Host.Outcome State Fault Refusal := .next (settle (doDrainComplete bank s))

/-- DRAIN_TIMEOUT: what is left of the old owner's accesses is foreign from now on (R292). -/
def doDrainTimeout (bank : Nat) (s : State) : State :=
  match tabGet s.cis.drains bank with
  | none => s
  | some due =>
    if bankPending s bank && bankBusy s bank && s.dueOk due then
      let s := s.atClk due
      let s := { s with ecs := s.ecs.map fun (e : Nat × EcCore) => (e.1, dropInFlight bank e.2) }
      ((handOver s bank).inc R.cisCntDrainTo).evt R.cisEvtStatus 3
    else s

def execDrainTimeout (bank : Nat) (s : State) : Host.Outcome State Fault Refusal := .next (settle (doDrainTimeout bank s))

/-- BANK_CLEAR_DONE: clearing took 16,384 cycles from the boundary (R286). -/
def doBankClearDone (s : State) : State :=
  let due := s.tickClk + 16384
  if s.cis.clearing.isEmpty = false ∧ s.dueOk due = true then
    winRelease { s.atClk due with cis := { s.cis with clearing := [] } }
  else s

def execBankClearDone (s : State) : Host.Outcome State Fault Refusal := .next (settle (doBankClearDone s))

end Sys2Proof.Machine
end

