-- ==== Sys2Proof/Machine/Net.lean ====
section
/-! DEFINITION. The Ethernet ports: frames, classification, PFC, transmit queues and the firmware's own traffic (R336 to R344). -/

namespace Sys2Proof.Machine

/-! ### Port configuration in force (R370, R371) -/

/-- Register of a port at an offset of its window. -/
def portReg (p off : Nat) : Nat := R.netCfg + 0x80 * p + off

def portCfg (s : State) (p off : Nat) : Nat := s.mapCm.regNat (portReg p off)

def portEn (s : State) (p : Nat) : Bool := (portCfg s p 0).testBit 0
def portVlan (s : State) (p : Nat) : Word := s.mapCm.reg (portReg p 0x1C)
def portVid (s : State) (p : Nat) : Nat := fld (portVlan s p) 11 0
def portIp (s : State) (p : Nat) : Nat := portCfg s p 0xC
def portCtrlIp (s : State) (p : Nat) : Nat := portCfg s p 0x18
def portMax (s : State) (p : Nat) : Nat := portCfg s p 0x20 % 2 ^ 14
def portPfc (s : State) (p : Nat) : Word := s.mapCm.reg (portReg p 0x24)

def portUp (s : State) (p : Nat) : Bool := decide (p < 4) && s.bit (portReg p 0x40) 0

/-- MAC address: the register image, factory where nothing was committed (R370). -/
def portMac (s : State) (p : Nat) : Nat :=
  let f := s.modId.macs.getD p 0
  let part (off k : Nat) := match tabGet s.mapCm.rwe (portReg p off) with
    | some w => w.toNat
    | none => f / 2 ^ k % 2 ^ 32
  part 4 0 + part 8 32 % 65536 * 2 ^ 32

def State.np (s : State) (p : Nat) : NetPort := tabGetD s.str.ports p {}
def State.setNp (s : State) (p : Nat) (n : NetPort) : State :=
  { s with str := { s.str with ports := tabSet s.str.ports p n } }

/-! ### Frame building (R340, R363) -/

/-- Ones' complement checksum of bytes, 16-bit words big-endian. -/
def inetSum : List Byte → Nat
  | a :: b :: t => a.toNat * 256 + b.toNat + inetSum t
  | [a] => a.toNat * 256
  | [] => 0

def foldSum (n : Nat) : Nat :=
  let m := n % 65536 + n / 65536
  let m := m % 65536 + m / 65536
  m % 65536 + m / 65536

def inetChk (l : List Byte) : Nat := 65535 - foldSum (inetSum l)

/-- Tag of a frame: PCP and VID, none for VID 0. -/
def tagBytes (vid pcp : Nat) : List Byte := if vid = 0 then [] else beBytes 2 0x8100 ++ beBytes 2 (pcp * 8192 + vid)

def ethFrame (dst src vid pcp etype : Nat) (body : List Byte) : List Byte :=
  leBytes 6 dst ++ leBytes 6 src ++ tagBytes vid pcp ++ beBytes 2 etype ++ body

/-- IPv4 header without options: DF, identification 0 (R363). -/
def ipHead (len tos ttl proto src dst : Nat) : List Byte :=
  let h0 := beBytes 1 0x45 ++ beBytes 1 tos ++ beBytes 2 (20 + len) ++ beBytes 2 0 ++ beBytes 2 0x4000 ++ beBytes 1 ttl ++
    beBytes 1 proto
  let h1 := leBytes 4 src ++ leBytes 4 dst
  h0 ++ beBytes 2 (inetChk (h0 ++ [0, 0] ++ h1)) ++ h1

/-- UDP datagram in IPv4, with its checksum. -/
def udpPacket (tos ttl src dst sport dport : Nat) (payload : List Byte) : List Byte :=
  let n := 8 + payload.length
  let u := beBytes 2 sport ++ beBytes 2 dport ++ beBytes 2 n
  let ph := leBytes 4 src ++ leBytes 4 dst ++ [0, 17] ++ beBytes 2 n
  let c := inetChk (ph ++ u ++ [0, 0] ++ payload)
  ipHead n tos ttl 17 src dst ++ u ++ beBytes 2 (if c = 0 then 65535 else c) ++ payload

def isMulticast (ip : Nat) : Bool := decide (224 ≤ ip % 256) && decide (ip % 256 ≤ 239)

/-- MAC of a group (RFC 1112). -/
def groupMac (ip : Nat) : Nat :=
  leNat ([0x01, 0x00, 0x5E] ++ leBytes 1 (ip / 256 % 128) ++ leBytes 2 (ip / 65536))

/-- Network-order value of an address whose octet 0 lies in the low bits. -/
def ipBe (ip : Nat) : Nat := beNat (leBytes 4 ip)

/-- Next hop of a unicast address (R370). -/
def nextHop (s : State) (p ip : Nat) : Nat :=
  let sh := 2 ^ (32 - min 32 (portCfg s p 0x10 % 64))
  if ipBe ip / sh = ipBe (portIp s p) / sh then ip
  else if portCfg s p 0x14 = 0 then ip else portCfg s p 0x14

/-- Destination MAC, once it is known (R360). -/
def macFor (s : State) (p ip : Nat) : Option Nat :=
  if isMulticast ip then some (groupMac ip) else tabGet (s.np p).arp (nextHop s p ip)

/-! ### Transmit queues (R341) -/

def queueLen (l : List (List Byte)) : Nat := sumNat (l.map List.length)

/-- Queue a frame in a class; one that finds its queue full is dropped. -/
def txQueue (s : State) (p cls : Nat) (frame : List Byte) : State :=
  let n := s.np p
  let q := tabGetD n.queues cls []
  if 0x10000 < queueLen q + frame.length then (s.inc (portReg p 0x70)).evt R.netEvtStatus 6
  else s.setNp p { n with queues := tabSet n.queues cls (q ++ [frame]) }

/-- A firmware frame: media VLAN, PCP 0. -/
def fwFrame (s : State) (p dst etype : Nat) (body : List Byte) : State :=
  txQueue s p 0 (ethFrame dst (portMac s p) (portVid s p) 0 etype body)

/-- Command replies waiting for the port become frames of class 0 on the control VLAN (R274, R340). -/
def takeReplies (s : State) (p : Nat) : State :=
  let mine := s.cmd.netOut.filter (·.1 == p)
  let s := { s with cmd := { s.cmd with netOut := s.cmd.netOut.filter (·.1 != p) } }
  mine.foldl (fun s (_, vlan, ip, port, body) =>
    match macFor s p ip with
    | some m => txQueue s p 0 (ethFrame m (portMac s p) vlan 0 0x0800 (udpPacket 0 64 (portCtrlIp s p) ip 7474 port body))
    | none => (s.inc (portReg p 0x70)).evt R.netEvtStatus 6) s

/-- Class the transmitter serves next: the highest that holds a frame and is not paused. -/
def txClass (n : NetPort) : Option Nat :=
  ([7, 6, 5, 4, 3, 2, 1, 0] : List Nat).find? fun c => !(tabGetD n.queues c []).isEmpty && (tabGet n.paused c).isNone

/-- FRAME_TRANSMIT. -/
def doFrameTransmit (port : Nat) (s : State) : State :=
  if portUp s port && portEn s port then
    let s := takeReplies s port
    let n := s.np port
    match txClass n with
    | none => s
    | some c =>
      match tabGetD n.queues c [] with
      | [] => s
      | f :: rest =>
        let s := s.setNp port { n with queues := if rest.isEmpty then tabDel n.queues c else tabSet n.queues c rest }
        let f := f ++ List.replicate (60 - f.length) 0
        if portMax s port < f.length + 4 then (s.inc (portReg port 0x6C)).evt R.netEvtStatus 4
        else (s.inc (portReg port 0x68)).emit (.frame port f)
  else s

def execFrameTransmit (port : Nat) (s : State) : Host.Outcome State Fault Refusal := .next (settle (doFrameTransmit port s))

/-! ### PFC (R342 to R344) -/

/-- Cycles of `q` quanta of 512 bit times at the speed in force. -/
def quanta (s : State) (p q : Nat) : Nat := if s.bit (portReg p 0x40) 1 then 64 * q else q * 128 / 5

def showPaused (s : State) (p : Nat) : State :=
  s.setField (portReg p 0x40) 15 8 (sumNat ((s.np p).paused.map fun e => 2 ^ e.1))

/-- One class of a PFC request. -/
def pfcClass (p c q : Nat) (s : State) : State :=
  if (fld (portPfc s p) 7 0).testBit c then
    if q = 0 then s else (s.inc (portReg p 0x64)).evt R.netEvtStatus 5
  else
    let n := s.np p
    let paused := if q = 0 then tabDel n.paused c else tabSet n.paused c (s.clk + quanta s p q)
    showPaused (s.setNp p { n with paused := paused }) p

/-- A MAC control frame: PFC, or PAUSE, which is never honoured. -/
def doPfcFrame (port : Nat) (frame : List Byte) (s : State) : State :=
  if portUp s port && portEn s port && beNat ((frame.drop 12).take 2) == 0x8808 then
    let op := beNat ((frame.drop 14).take 2)
    if op = 0x0001 then s.inc (portReg port 0x5C)
    else if op = 0x0101 then
      let en := beNat ((frame.drop 16).take 2)
      (List.range 8).foldl (fun s c =>
        if en.testBit c then pfcClass port c (beNat ((frame.drop (18 + 2 * c)).take 2)) s else s) (s.inc (portReg port 0x60))
    else s
  else s

def execPfcFrame (port : Nat) (frame : List Byte) (s : State) : Host.Outcome State Fault Refusal :=
  .next (settle (doPfcFrame port frame s))

/-- PFC_PAUSE_END. -/
def doPfcPauseEnd (port cls : Nat) (s : State) : State :=
  let n := s.np port
  match tabGet n.paused cls with
  | none => s
  | some due =>
    if s.dueOk due then
      let s := s.atClk due
      showPaused (s.setNp port { n with paused := tabDel n.paused cls }) port
    else s

def execPfcPauseEnd (port cls : Nat) (s : State) : Host.Outcome State Fault Refusal :=
  .next (settle (doPfcPauseEnd port cls s))

/-- PFC may be sent for a class (R344). -/
def pfcAllowed (s : State) (p c : Nat) : Bool :=
  (fld (portPfc s p) 15 8).testBit c && !((fld (portPfc s p) 7 0).testBit c)

/-- Send a PFC frame for one class. -/
def sendPfc (s : State) (p c q : Nat) : State :=
  let body := beBytes 2 0x0101 ++ beBytes 2 (2 ^ c) ++
    (List.range 8).flatMap (fun i => beBytes 2 (if i = c then q else 0)) ++ List.replicate 26 0
  let f := ethFrame (leNat [0x01, 0x80, 0xC2, 0, 0, 0x01]) (portMac s p) 0 0 0x8808 body
  (s.inc (portReg p 0x74)).emit (.frame p f)

def pfcTime (s : State) (p : Nat) : Nat := fld (portPfc s p) 31 16

/-- Size of a class's firmware receive queue, and the levels of R344. -/
def fwqMax : Nat := 0x8000
def fwqHigh : Nat := 0x6000
def fwqLow : Nat := 0x2000

/-- A frame enters the firmware receive queue; past 75 % a PFC request is sent. -/
def fwQueue (s : State) (p c len : Nat) : State :=
  let n := s.np p
  let old := tabGetD n.rxq c 0
  if fwqMax < old + len then s
  else
    let s := s.setNp p { n with rxq := tabSet n.rxq c (old + len) }
    if old ≤ fwqHigh && decide (fwqHigh < old + len) && pfcAllowed s p c && (tabGet n.pfc c).isNone then
      let s := sendPfc s p c (pfcTime s p)
      let n := s.np p
      s.setNp p { n with pfc := tabSet n.pfc c (s.clk + quanta s p (pfcTime s p) / 2) }
    else s

/-- PFC_REPEAT. -/
def doPfcRepeat (port cls : Nat) (s : State) : State :=
  match tabGet (s.np port).pfc cls with
  | none => s
  | some due =>
    if decide (fwqLow < tabGetD (s.np port).rxq cls 0) && s.dueOk due then
      let s := sendPfc (s.atClk due) port cls (pfcTime s port)
      let n := s.np port
      s.setNp port { n with pfc := tabSet n.pfc cls (s.clk + quanta s port (pfcTime s port) / 2) }
    else s

def execPfcRepeat (port cls : Nat) (s : State) : Host.Outcome State Fault Refusal := .next (settle (doPfcRepeat port cls s))

/-- FIRMWARE_QUEUE_DRAIN: the firmware consumes `n` octets of a class. -/
def doFirmwareQueueDrain (port cls n : Nat) (s : State) : State :=
  let np := s.np port
  let left := tabGetD np.rxq cls 0 - n
  let low := decide (left < fwqLow) && (tabGet np.pfc cls).isSome
  let s := s.setNp port { np with
    rxq := if left = 0 then tabDel np.rxq cls else tabSet np.rxq cls left
    pfc := if low then tabDel np.pfc cls else np.pfc }
  if low then sendPfc s port cls 0 else s

def execFirmwareQueueDrain (port cls : Nat) (n : Nat) (s : State) : Host.Outcome State Fault Refusal :=
  .next (settle (doFirmwareQueueDrain port cls n s))

/-! ### The firmware's own traffic (R336) -/

/-- Groups joined on a port: the destinations of enabled receive legs. -/
def joined (s : State) (p : Nat) : List (Nat × Option Nat) :=
  (s.cm.rx.flatMap fun (e : Nat × RxDesc) =>
    let w (i : Nat) := wAt e.2.words i
    let src (i : Nat) : Option Nat := if bit (w 0) 16 then some (w i).toNat else none
    (if bit (w 2) 4 && fld (w 2) 1 0 == p && isMulticast (w 3).toNat then [((w 3).toNat, src 4)] else []) ++
    (if bit (w 2) 12 && fld (w 2) 9 8 == p && isMulticast (w 6).toNat then [((w 6).toNat, src 7)] else [])).dedup

/-- IGMPv3 report with group records of a type. -/
def igmpReport (s : State) (p : Nat) (recs : List (Nat × Nat × List Nat)) : State :=
  if recs.isEmpty then s
  else
    let body := recs.flatMap fun (ty, g, srcs) =>
      beBytes 1 ty ++ beBytes 1 0 ++ beBytes 2 srcs.length ++ leBytes 4 g ++ srcs.flatMap (leBytes 4)
    let h := beBytes 1 0x22 ++ beBytes 1 0
    let t := beBytes 2 0 ++ beBytes 2 recs.length ++ body
    let m := h ++ beBytes 2 (inetChk (h ++ [0, 0] ++ t)) ++ t
    let dst := leNat [224, 0, 0, 22]
    let opt : List Byte := [0x94, 0x04, 0, 0]
    let h0 := beBytes 1 0x46 ++ beBytes 1 0xC0 ++ beBytes 2 (24 + m.length) ++ beBytes 2 0 ++ beBytes 2 0x4000 ++
      beBytes 1 1 ++ beBytes 1 2
    let h1 := leBytes 4 (portIp s p) ++ leBytes 4 dst ++ opt
    fwFrame s p (groupMac dst) 0x0800 (h0 ++ beBytes 2 (inetChk (h0 ++ [0, 0] ++ h1)) ++ h1 ++ m)

/-- Membership records of what is joined: INCLUDE with a source, EXCLUDE of none without. -/
def memberRecs (l : List (Nat × Option Nat)) : List (Nat × Nat × List Nat) :=
  l.map fun (g, src) => match src with
    | some a => (1, g, [a])
    | none => (2, g, [])

/-- ARP for the media and control addresses (R336), and what a received one resolves (R360). -/
def arpIn (s : State) (p : Nat) (a : List Byte) : State :=
  let op := beNat ((a.drop 6).take 2)
  let sha := leNat ((a.drop 8).take 6)
  let spa := leNat ((a.drop 14).take 4)
  let tpa := leNat ((a.drop 24).take 4)
  let n := s.np p
  let s := s.setNp p { n with arp := tabSet n.arp spa sha }
  if op = 1 ∧ tpa ≠ 0 ∧ (tpa = portIp s p ∨ tpa = portCtrlIp s p) then
    fwFrame s p sha 0x0806 (a.take 6 ++ beBytes 2 2 ++ leBytes 6 (portMac s p) ++ leBytes 4 tpa ++ leBytes 6 sha ++ leBytes 4 spa)
  else s

/-- Ask for an address (R360). -/
def arpAsk (s : State) (p ip : Nat) : State :=
  fwFrame s p (2 ^ 48 - 1) 0x0806 (beBytes 2 1 ++ beBytes 2 0x0800 ++ beBytes 1 6 ++ beBytes 1 4 ++ beBytes 2 1 ++
    leBytes 6 (portMac s p) ++ leBytes 4 (portIp s p) ++ leBytes 6 0 ++ leBytes 4 ip)

/-- ICMP echo (R336). -/
def icmpIn (s : State) (p : Nat) (mac src dst : Nat) (m : List Byte) : State :=
  if m.headD 0 = 8 ∧ (dst = portIp s p ∨ dst = portCtrlIp s p) then
    let b := [(0 : Byte), 0, 0, 0] ++ m.drop 4
    let r := [(0 : Byte), 0] ++ beBytes 2 (inetChk b) ++ m.drop 4
    fwFrame s p mac 0x0800 (ipHead r.length 0 64 1 dst src ++ r)
  else s

/-! ### Receive (R338 to R340) -/

/-- A frame taken apart: priority, VLAN (none untagged), ethertype, body; none where its tags are refused. -/
def untag (f : List Byte) : Option (Nat × Option Nat × Nat × List Byte) :=
  let et := beNat ((f.drop 12).take 2)
  if et = 0x88A8 then none
  else if et = 0x8100 then
    let tci := beNat ((f.drop 14).take 2)
    let inner := beNat ((f.drop 16).take 2)
    if inner = 0x8100 ∨ inner = 0x88A8 then none else some (tci / 8192, some (tci % 4096), inner, f.drop 18)
  else some (0, none, et, f.drop 14)

/-- R340: the frame's VLAN is accepted. -/
def vlanOk (s : State) (p : Nat) (v : Option Nat) : Bool :=
  let vid := portVid s p
  match v with
  | some x =>
    if x = 0 then vid == 0 || (portCfg s p 0).testBit 2
    else x == vid || (x == s.field R.cmdNetCtrl 23 12 && s.bit R.cmdNetCtrl (24 + p))
  | none => vid == 0 || (portCfg s p 0).testBit 2

/-- The descriptor whose legs apply in tick `t` (R359). -/
def RxRt.descAt (r : RxRt) (t : Nat) : List Word :=
  match r.descs.find? (fun e => decide (e.1 ≤ t)) with
  | some e => e.2
  | none => []

/-- The stream takes packets in tick `t`. -/
def RxRt.takes (r : RxRt) (t : Nat) : Bool :=
  decide (r.start ≤ t) && (match r.stop with
    | some k => decide (t < k)
    | none => true)

/-- The leg of a descriptor a datagram matches (R351): true for red. -/
def legOf (d : List Word) (p src dst udp : Nat) : Option Bool :=
  let w (i : Nat) := wAt d i
  let ssm := bit (w 0) 16
  if bit (w 2) 4 && fld (w 2) 1 0 == p && (w 3).toNat == dst && fld (w 5) 15 0 == udp && (!ssm || (w 4).toNat == src)
  then some true
  else if bit (w 2) 12 && fld (w 2) 9 8 == p && (w 6).toNat == dst && fld (w 8) 15 0 == udp && (!ssm || (w 7).toNat == src)
  then some false
  else none

/-- The receive stream a datagram goes to: slot, start that tells its stream from a fading one, red leg (R351). -/
def legMatch (s : State) (p src dst udp : Nat) : Option (Nat × Nat × Bool) :=
  s.str.rx.findSome? fun (e : Nat × List RxRt) =>
    e.2.findSome? fun r =>
      if r.takes s.tick then (legOf (r.descAt s.tick) p src dst udp).map fun red => (e.1, r.start, red) else none

/-- An IPv4 packet (R338 items 2 to 7). What a stream, command or PTP datagram does is the command of its own. -/
def ipIn (s : State) (p cls size : Nat) (mac : Nat) (b : List Byte) : State :=
  let other := s.inc (portReg p 0x58)
  let ihl := 4 * ((b.headD 0).toNat % 16)
  let len := beNat ((b.drop 2).take 2)
  let frag := beNat ((b.drop 6).take 2) % 0x4000
  if (b.headD 0).toNat / 16 ≠ 4 ∨ ihl < 20 ∨ b.length < len ∨ foldSum (inetSum (b.take ihl)) ≠ 65535 ∨ frag ≠ 0 then other
  else
    let src := leNat ((b.drop 12).take 4)
    let dst := leNat ((b.drop 16).take 4)
    let m := (b.take len).drop ihl
    match (b.getD 9 0).toNat with
    | 17 =>
      let udp := beNat ((m.drop 2).take 2)
      let chk := beNat ((m.drop 6).take 2)
      let ph := leBytes 4 src ++ leBytes 4 dst ++ [0, 17] ++ (m.drop 4).take 2
      let good := chk == 0 || foldSum (inetSum (ph ++ m)) == 65535
      if (legMatch s p src dst udp).isSome || (udp == 7474 && dst == portCtrlIp s p) then (if good then s else other)
      else if udp = 319 ∨ udp = 320 then s
      else if dst = portIp s p ∨ dst = portCtrlIp s p then s.inc (portReg p 0x78)
      else other
    | 1 => icmpIn (fwQueue s p cls size) p mac src dst m
    | 2 =>
      let s := fwQueue s p cls size
      if m.headD 0 = 0x11 then igmpReport s p (memberRecs (joined s p)) else s
    | _ => other

/-- FRAME_RECEIVE: size, FCS and VLAN checks and classification. -/
def doFrameReceive (port : Nat) (frame : List Byte) (fcsOk : Bool) (s : State) : State :=
  if !(portUp s port && portEn s port) then s
  else
    let size := frame.length + 4
    if !fcsOk then s.inc (portReg port 0x50)
    else if size < 64 then s.inc (portReg port 0x48)
    else if portMax s port < size then (s.inc (portReg port 0x4C)).evt R.netEvtStatus 4
    else
      match untag frame with
      | none => s.inc (portReg port 0x54)
      | some (pcp, vlan, et, body) =>
        if !vlanOk s port vlan then s.inc (portReg port 0x54)
        else
          let s := s.inc (portReg port 0x44)
          let mac := leNat ((frame.drop 6).take 6)
          if et = 0x8808 then
            (match beNat (body.take 2) with
             | 0x0001 => s.inc (portReg port 0x5C)
             | 0x0101 => s
             | _ => s.inc (portReg port 0x58))
          else if et = 0x0800 then ipIn s port pcp size mac body
          else if et = 0x0806 then arpIn (fwQueue s port pcp size) port body
          else if et = 0x88F7 then s
          else s.inc (portReg port 0x58)

def execFrameReceive (port : Nat) (frame : List Byte) (fcsOk : Bool) (s : State) : Host.Outcome State Fault Refusal :=
  .next (settle (doFrameReceive port frame fcsOk s))

/-! ### Link (R337, R373) -/

def linkSet (s : State) (p : Nat) (up : Bool) : State :=
  if s.bit (portReg p 0x40) 0 = up then s
  else
    let s := (s.setBit (portReg p 0x40) 0 up).evt R.netEvtStatus p
    let s := if up then s.setBit (portReg p 0x40) 1 ((portCfg s p 0).testBit 1) else s
    showPaused (s.setNp p { s.np p with paused := [] }) p

/-- LINK_CHANGE: a link comes up only on an enabled port. -/
def doLinkChange (port : Nat) (up : Bool) (s : State) : State :=
  if port < 4 ∧ (up = false ∨ portEn s port = true) then linkSet s port up else s

def execLinkChange (port : Nat) (up : Bool) (s : State) : Host.Outcome State Fault Refusal :=
  .next (settle (doLinkChange port up s))

/-- At a boundary: a change of EN or SPEED restarts the link (R337). -/
def netBoundary (s : State) : State :=
  (List.range 4).foldl (fun s p =>
    let c := portCfg s p 0 % 4
    if (s.np p).cfg = c then s else linkSet (s.setNp p { s.np p with cfg := c }) p false) s

/-! ### OP_NET_PORT_SET (R337) -/

def netPortOk (w : List Word) : Bool :=
  let d (i : Nat) := wAt w (1 + i)
  fld (wAt w 0) 31 2 == 0 && fld (d 0) 31 3 == 0 && fld (d 2) 31 16 == 0 && decide (1 ≤ (d 4).toNat) && decide ((d 4).toNat ≤ 32) &&
  fld (d 7) 31 19 == 0 && fld (d 7) 15 15 == 0 && decide (1518 ≤ (d 8).toNat) && decide ((d 8).toNat ≤ 9600) &&
  (List.range 6).all fun i => d (10 + i) == 0

def chkNetPort (_ : State) (_ : List Packet) (p : List Byte) : Nat :=
  if p.length = 68 ∧ netPortOk (wordsOf p) = true then stOk else stBadParam

def applyNetPort (p : List Byte) (s : State) : State :=
  let w := wordsOf p
  let port := fld (wAt w 0) 1 0
  (List.range 10).foldl (fun s i => { s with cm := s.cm.setReg (portReg port (4 * i)) (wAt w (1 + i)) }) s

end Sys2Proof.Machine
end

