-- ==== Sys2Proof/Machine/Link.lean ====
section
/-! DEFINITION. Messages on the Nyith links (R439 to R443), and what the pair state says (R456, R475). -/

namespace Sys2Proof.Machine

/-! ### Kinds of message

The spec names the messages and their contents; the numbers and the order of the arguments are the model's own. -/

/-- arguments: slot, sequence number, present, CRC-32C (R457) -/
def mkPresence : Nat := 1
/-- arguments: slot, sequence number, timestamp; the payload (R457) -/
def mkFill : Nat := 2
/-- arguments: slot, sequence number: PARTNER asks for PREFERRED's payload (R457) -/
def mkAsk : Nat := 3
/-- arguments: serial port, sample time; left and right samples (R422) -/
def mkSerial : Nat := 4
def mkPhase : Nat := 5
def mkStaged : Nat := 6
def mkAdmit : Nat := 7
def mkVerdict : Nat := 8
def mkCommit : Nat := 9
def mkSnapshot : Nat := 10
def mkDoorbell : Nat := 11
def mkDigest : Nat := 12
def mkDown : Nat := 13
def mkJournal : Nat := 14
def mkPrime : Nat := 15
def mkBulk : Nat := 16
def mkDiscovery : Nat := 17
def mkAnswer : Nat := 18
def mkResend : Nat := 19

/-- Class of a message (R440); the spec does not class discovery, answers, DOWN notices and resend requests. -/
def linkClass (kind : Nat) : Nat :=
  if kind = mkPhase then 0
  else if kind = mkPresence ∨ kind = mkFill ∨ kind = mkAsk ∨ kind = mkSerial then 1
  else if kind = mkDigest then 3
  else if kind = mkDoorbell then 4
  else if kind = mkJournal then 5
  else if kind = mkPrime then 6
  else if kind = mkBulk ∨ kind = mkDiscovery ∨ kind = mkAnswer then 7
  else 2

/-- Classes 2 and 4 to 7 are resent on error; a resend request itself is not. -/
def isResent (kind : Nat) : Bool := kind != mkResend && linkClass kind != 0 && linkClass kind != 1 && linkClass kind != 3

/-! ### Links -/

def linkReg (l off : Nat) : Nat := R.nylLinkStat + 0x40 * l + off

def linkUp (s : State) (l : Nat) : Bool := decide (l < 6) && s.field (linkReg l 0) 1 0 == 2

/-- Port of a link code. -/
def linkPort (l : Nat) : Nat := if l = 0 ∨ l = 2 ∨ l = 3 then 0 else 1

/-- The SPLIT setting in a committed state provides the link (R439). -/
def linkThere (c : Committed) (l : Nat) : Bool := decide (l < 6) && bit (c.reg (R.nylPortCfg + 4 * linkPort l)) 1 == decide (2 ≤ l)

/-- Its port is also enabled. -/
def linkOn (c : Committed) (l : Nat) : Bool := linkThere c l && bit (c.reg (R.nylPortCfg + 4 * linkPort l)) 0

/-- Most messages a link keeps for resending. -/
def sentMax : Nat := 1024

/-- Send a message on a link that is UP: sequence numbers run by link and class, and what may be resent is kept (R440, R442). -/
def sendMsg (s : State) (m : LinkMsg) : State :=
  if linkUp s m.link then
    if isResent m.kind then
      let k := 8 * m.link + linkClass m.kind
      let n := tabGetD s.nyl.tx k 0
      let m := { m with seq := n }
      let old := tabGetD s.nyl.sent k []
      let kept := (old.drop (old.length + 1 - sentMax)) ++ [m]
      let s := { s with nyl := { s.nyl with tx := tabSet s.nyl.tx k ((n + 1) % 65536), sent := tabSet s.nyl.sent k kept } }
      s.emit (.link m.link m)
    else s.emit (.link m.link m)
  else s

def sendOn (s : State) (l kind : Nat) (args : List Nat) (bytes : List Byte) : State :=
  sendMsg s { link := l, sender := s.field R.nylGangState 3 0, kind := kind, args := args, bytes := bytes }

/-- Ask for everything from the first missing number (R442). -/
def askResend (s : State) (l cls n : Nat) : State := sendOn s l mkResend [cls, n] []

/-- A message arrives: true when it is taken. One whose CRC fails is discarded and counted; on a resent class one out of sequence
is discarded, and what is missing is asked for (R442). -/
def takeMsg (kind : Nat) (m : LinkMsg) (s : State) : State × Bool :=
  let cls := linkClass m.kind
  let k := 8 * m.link + cls
  let want := tabGetD s.nyl.rx k 0
  if m.kind != kind || !linkUp s m.link then (s, false)
  else if !m.crcOk then
    let s := (s.inc (linkReg m.link 0x10)).evt R.nylEvtStatus 4
    (if isResent m.kind then askResend s m.link cls want else s, false)
  else if !isResent m.kind then (s, true)
  else if m.seq % 65536 = want then
    ({ s with nyl := { s.nyl with rx := tabSet s.nyl.rx k ((want + 1) % 65536) } }, true)
  else if (m.seq + 65536 - want) % 65536 < 32768 then (askResend s m.link cls want, false)
  else (s, false)

/-- RESEND_REQUEST (R442): arguments class and first missing number. -/
def doResendRequest (m : LinkMsg) (s : State) : State :=
  let a := takeMsg mkResend m s
  if a.2 then
    let l := tabGetD s.nyl.sent (8 * m.link + m.args.getD 0 0) []
    let again := l.dropWhile fun x => x.seq != m.args.getD 1 0
    let flits (x : LinkMsg) : Nat := max 1 (ceilDiv x.bytes.length 52)
    (again.foldl (fun s x => s.emit (.link m.link x)) a.1).inc (linkReg m.link 0x14) (sumNat (again.map flits))
  else a.1

def execResendRequest (m : LinkMsg) (s : State) : Host.Outcome State Fault Refusal := .next (settle (doResendRequest m s))

/-! ### The pair (R453, R475) -/

def mirCfgW (s : State) (i : Nat) : Word := s.mapCm.reg (R.mirCfg + 4 * i)

def mirSt (s : State) : Nat := s.field R.mirState 3 0

/-- This unit is PREFERRED. -/
def isPref (s : State) : Bool := s.bit R.mirState 4

/-- This unit belongs to a formed pair. -/
def inPair (s : State) : Bool := decide (2 ≤ mirSt s)

/-- States in which a unit of a pair renders in step: SENDING, SOLO, PRIME, VERIFY. -/
def inStep (st : Nat) : Bool := st == 2 || st == 3 || st == 6 || st == 7

/-- Both units render in step. -/
def partnerUp (s : State) : Bool := inStep (mirSt s) && inStep (s.mir.partner % 16)

def pairLinks (s : State) : List Nat :=
  let w := mirCfgW s 0
  fld w 6 4 :: (if bit w 7 then [fld w 10 8] else [])

/-- The message came from the partner. -/
def fromPartner (s : State) (m : LinkMsg) : Bool := decide (mirSt s ≠ 0) && (pairLinks s).contains m.link

/-- Send to the partner on every pair link: the classes that are not resent (R442). -/
def sendPair (s : State) (kind : Nat) (args : List Nat) (bytes : List Byte) : State :=
  (pairLinks s).foldl (fun s l => sendOn s l kind args bytes) s

/-- Send to the partner once, on the first pair link that is UP. -/
def sendPartner (s : State) (kind : Nat) (args : List Nat) (bytes : List Byte) : State :=
  match (pairLinks s).find? (linkUp s) with
  | some l => sendOn s l kind args bytes
  | none => s

/-! ### The gang (R446, R450) -/

def gangW (s : State) (i : Nat) : Word := s.mapCm.reg (R.nylGangCfg + 4 * i)

/-- 0 none, 1 leader, 2 member. -/
def gangRole (s : State) : Nat := s.field R.nylGangState 9 8
def gangSt (s : State) : Nat := s.field R.nylGangState 26 24
def gangN (s : State) : Nat := s.field R.nylGangState 7 4 + 1
def gangMe (s : State) : Nat := s.field R.nylGangState 3 0
def linkA (s : State) : Nat := fld (gangW s 1) 2 0
def linkB (s : State) : Nat := fld (gangW s 1) 10 8
def isRing (s : State) : Bool := bit (gangW s 0) 1

/-- The link toward member `m`: the shorter way round a ring whose links are UP (R446). -/
def linkToward (s : State) (m : Nat) : Nat :=
  let n := gangN s
  let d := (m + n - gangMe s) % n
  let up := if isRing s then decide (2 * d ≤ n) else decide (gangMe s < m)
  let l := if up then linkB s else linkA s
  let o := if up then linkA s else linkB s
  if isRing s && !linkUp s l && linkUp s o then o else l

/-- A gang message to member `m`; its number is the first argument. -/
def sendMember (s : State) (m kind : Nat) (args : List Nat) (bytes : List Byte) : State :=
  sendOn s (linkToward s m) kind (m :: args) bytes

/-- A gang message to the module one level up: a member's leader, or an inner leader's over LINK_UP. -/
def sendUp (s : State) (kind : Nat) (args : List Nat) (bytes : List Byte) : State :=
  if gangRole s = 2 then sendMember s 0 kind args bytes
  else if bit (gangW s 1) 19 then sendOn s (fld (gangW s 1) 18 16) kind (0 :: args) bytes
  else s

/-- Members that commit in step with this leader (R451). -/
def formedMembers (s : State) : List Nat := (s.nyl.members.filter fun e => e.2.phase == 2).map (·.1)

/-- Every module this leader leads, whatever its state. -/
def allMembers (s : State) : List Nat := s.nyl.members.map (·.1)

/-- A gang message names this module; one for another member goes on round the gang. -/
def gangTake (m : LinkMsg) (s : State) : State × Bool :=
  let to_ := m.args.getD 0 0
  let fromUp := gangRole s == 1 && bit (gangW s 1) 19 && m.link == fld (gangW s 1) 18 16
  if gangRole s = 0 || fromPartner s m || fromUp || to_ = gangMe s then (s, true)
  else (sendMsg s { m with link := if m.link = linkA s then linkB s else linkA s }, false)

/-- Outputs a member presents: with the local one each stands for. -/
def memberLocals (per stride : Nat) : List Nat := (List.range per).map (strideOut stride)

end Sys2Proof.Machine
end

