-- ==== Sys2Proof/Machine/Stream.lean ====
section
/-! DEFINITION. Receive streams (R345 to R359), the stream commands and buffers (R348 to R368), and their registers. -/

namespace Sys2Proof.Machine

/-! ### Sample time (R380) -/

/-- Cycle in which sample `x` starts. -/
def sampleClk (s : State) (x : Int) : Int := (x * 1280000000000 / s.fs - s.tim.base) / 1024

/-- Sample time at present. -/
def sampleNow (s : State) : Nat := s.t1280 * s.fs / 1280000000000

/-! ### Descriptors (R346, R350, R360) -/

/-- Samples in a packet (R346). -/
def ptimeS (rate96 : Bool) (code : Nat) : Nat := ([6, 12, 16, 48] : List Nat).getD code 48 * (if rate96 then 2 else 1)

def descS (s : State) (d : List Word) : Nat := ptimeS s.rate96 (fld (wAt d 0) 6 4)
def descCh (d : List Word) : Nat := fld (wAt d 0) 14 8
def descFmt (d : List Word) : Nat := fld (wAt d 0) 1 0
def descMask (d : List Word) : Nat := (wAt d 11).toNat + 2 ^ 32 * (wAt d 12).toNat
def rxLo (d : List Word) : Nat := fld (wAt d 9) 15 0
def rxBase (d : List Word) : Nat := fld (wAt d 10) 11 0
def txBase (d : List Word) : Nat := fld (wAt d 10) 9 0
def redEn (d : List Word) : Bool := bit (wAt d 2) 4
def blueEn (d : List Word) : Bool := bit (wAt d 2) 12
def redPort (d : List Word) : Nat := fld (wAt d 2) 1 0
def bluePort (d : List Word) : Nat := fld (wAt d 2) 9 8

/-- Octets of one sample of one channel on the wire. -/
def fmtBytes (f : Nat) : Nat := if f = 0 then 3 else if f = 1 then 2 else 4

/-- Fields of a stream that only its creation sets. -/
def RxRt.d0 (r : RxRt) : List Word := (r.descs.headD (0, [])).2

/-- BUF (R368). -/
def rxBuf (s : State) (d : List Word) : Nat :=
  let n := 2 * (rxLo d + descS s d)
  if 2 ^ n.log2 = n then n else 2 ^ (n.log2 + 1)

/-- KiB a receive slot needs (R368). -/
def rxKiB (s : State) (d : List Word) : Nat := ceilDiv (descCh d * rxBuf s d * 4) 1024

/-- Frame size on a port (R346, R348). -/
def frameSize (c : Committed) (p n bytes : Nat) : Nat :=
  58 + (if fld (c.reg (portReg p 0x1C)) 11 0 = 0 then 0 else 4) + n * bytes

/-! ### Counters of a slot (R374, R375) -/

def rxReg (slot off : Nat) : Nat := R.strRx + 0x40 * slot + off
def txReg (slot off : Nat) : Nat := R.strTx + 0x40 * slot + off

def strEvt (s : State) (b : Nat) : State := s.evt R.strEvtStatus b

/-- Count in a slot and raise a status bit. -/
def rxCount (s : State) (slot off b : Nat) : State := strEvt (s.inc (rxReg slot off)) b

def State.rxs (s : State) (slot : Nat) : List RxRt := tabGetD s.str.rx slot []

def State.setRxs (s : State) (slot : Nat) (l : List RxRt) : State :=
  { s with str := { s.str with rx := if l.isEmpty then tabDel s.str.rx slot else tabSet s.str.rx slot l } }

/-- Replace the stream of a slot that started at `r.start`. -/
def State.putRx (s : State) (slot : Nat) (r : RxRt) : State :=
  s.setRxs slot ((s.rxs slot).map fun x => if x.start == r.start then r else x)

def State.rxAt (s : State) (slot start : Nat) : Option RxRt := (s.rxs slot).find? (·.start == start)

/-- The newest stream of a slot that has begun. -/
def rxNewest (s : State) (slot t : Nat) : Option RxRt := (s.rxs slot).find? fun r => decide (r.start ≤ t)

/-! ### RTP (R351, R352) -/

/-- An RTP packet: version, payload type, sequence number, timestamp, SSRC, payload without CSRC list, extension and padding. -/
structure Rtp where
  ver : Nat
  pt : Nat
  seq : Nat
  ts : Nat
  ssrc : Nat
  body : List Byte

def rtpOf (l : List Byte) : Rtp :=
  let b0 := (l.getD 0 0).toNat
  let after := l.drop (12 + 4 * (b0 % 16))
  let after := if b0.testBit 4 then after.drop (4 + 4 * beNat ((after.drop 2).take 2)) else after
  let pad := if b0.testBit 5 then (after.getLastD 0).toNat else 0
  { ver := b0 / 64
    pt := (l.getD 1 0).toNat % 128
    seq := beNat ((l.drop 2).take 2)
    ts := beNat ((l.drop 4).take 4)
    ssrc := beNat ((l.drop 8).take 4)
    body := after.take (after.length - pad) }

/-- R352: the time congruent to a timestamp nearest to the present. -/
def extendTs (now ts : Nat) : Int := now + signedOf 32 (bitsOf 32 ((ts : Int) - now))

/-- One sample from its octets (R352). -/
def sampleOf (f : Nat) (b : List Byte) : Int :=
  let v := beNat b
  match f with
  | 1 => signedOf 32 (v * 65536)
  | 0 => signedOf 32 (v * 256)
  | _ => signedOf 32 (v % 2 ^ 24 * 256)

/-- Payload as rows of channels, one row a sample. -/
def rowsOf (d : List Word) (n : Nat) (body : List Byte) : List (List Int) :=
  let f := descFmt d
  chunk (descCh d) n ((chunk (fmtBytes f) (n * descCh d) body).map (sampleOf f))

/-- Cut-off of a packet whose first sample has time `t`, in sample time (R354). -/
def cutOff (s : State) (d : List Word) (t : Int) : Int :=
  t + rxLo d - (if inPair s then (if s.rate96 then 8 else 4) else 0)

/-- Sequence numbers later in the modulo order (R356). -/
def seqAfter (a b : Nat) : Bool := decide (0 < (a + 65536 - b) % 65536) && decide ((a + 65536 - b) % 65536 < 32768)

/-- The last 256 numbers are kept for duplicates; samples only while they can still be released (R355). -/
def prune (relT : Nat) (d : List Word) (l : List RxPkt) : List RxPkt :=
  (l.take 256).map fun p => if p.t + p.s + rxLo d < (relT : Int) then { p with samples := [], pay := [] } else p

/-- Note a margin in nanoseconds (R358). -/
def noteMargin (r : RxRt) (m : Int) : RxRt :=
  { r with
    mMin := if r.mCnt = 0 then m else min r.mMin m
    mSum := r.mSum + m
    mCnt := r.mCnt + 1 }

/-- A second copy of a packet that is kept (R355). -/
def dupCopy (slot : Nat) (r : RxRt) (p : RxPkt) (red : Bool) (q : RxPkt) (s : State) : State :=
  let s := (s.inc (rxReg slot 8)).inc R.strCntDup
  let differ := p.pay != q.pay && !p.pay.isEmpty
  let p' := { p with red := p.red || red, blue := p.blue || !red }
  let p' := if differ && red && !p.red then { p' with samples := q.samples, pay := q.pay, t := q.t } else p'
  let s := s.putRx slot { r with pkts := r.pkts.map fun x => if x.seq == p.seq then p' else x }
  if differ then rxCount s slot 0x20 5 else s

/-- A matched and well-formed packet meets its cut-off, the buffer and the copies already kept (R354, R355). -/
def placePacket (slot : Nat) (r : RxRt) (red : Bool) (x : Rtp) (s : State) : State :=
  let d := r.d0
  let n := descS s d
  let t := extendTs (sampleNow s) x.ts
  let cut := sampleClk s (cutOff s d t)
  let margin := ((cutOff s d t) * 1280000000000 / s.fs - s.t1280) / 1280
  let known := r.pkts.find? fun p => p.seq == x.seq
  let q : RxPkt :=
    { seq := x.seq
      t := t
      s := n
      red := red
      blue := !red
      samples := rowsOf d n x.body
      pay := x.body }
  let r := { r with seen := if red then (true, r.seen.2) else (r.seen.1, true) }
  let r := if known.isNone then noteMargin r margin else r
  if cut < (s.clk : Int) then
    let r := if known.isNone then
        { r with pkts := prune s.str.relT d ({ q with samples := [], pay := [], late := true } :: r.pkts) } else r
    (rxCount (s.putRx slot r) slot 0xC 1).inc R.strCntLate
  else if (s.t1280 * s.fs : Int) + (rxBuf s d - n : Nat) * 1280000000000 < (t + rxLo d) * 1280000000000 then
    rxCount (s.putRx slot r) slot 0x14 2
  else
    match known with
    | some p => dupCopy slot r p red q s
    | none =>
      let chg := match r.ssrc with
        | some v => v != x.ssrc
        | none => false
      let s := s.putRx slot { r with pkts := prune s.str.relT d (q :: r.pkts), ssrc := some x.ssrc }
      let s := s.setNat (rxReg slot 0x28) x.ssrc
      if chg then rxCount s slot 0x24 4 else s

/-- STREAM_PACKET. -/
def doStreamPacket (port : Nat) (d : Dgram) (s : State) : State :=
  if !(portUp s port && portEn s port && d.ok) then s
  else
    match legMatch s port d.srcIp d.dstIp d.dstUdp with
    | none => s
    | some (slot, start, red) =>
      match s.rxAt slot start with
      | none => s
      | some r =>
        let x := rtpOf d.payload
        let w := r.d0
        if x.ver = 2 ∧ x.pt = fld (wAt w 1) 6 0 ∧ 12 ≤ d.payload.length
            ∧ x.body.length = descCh w * descS s w * fmtBytes (descFmt w) then placePacket slot r red x s
        else rxCount s slot 0x18 3

def execStreamPacket (port : Nat) (d : Dgram) (s : State) : Host.Outcome State Fault Refusal :=
  .next (settle (doStreamPacket port d s))

/-! ### Cut-off (R355, R357) -/

/-- Cycle of the cut-off of a sequence number: from its own copy, else by the spacing from the newest packet known. -/
def cutDue (s : State) (r : RxRt) (seq : Nat) : Option Nat :=
  let d := r.d0
  let at_ (t : Int) : Nat := (sampleClk s (cutOff s d t)).toNat
  match r.pkts.find? (·.seq == seq) with
  | some p => some (at_ p.t)
  | none => r.pkts.head?.map fun p => at_ (p.t + signedOf 16 (bitsOf 16 ((seq : Int) - p.seq)) * descS s d)

/-- A lost packet (R355). -/
def countLost (s : State) (slot : Nat) : State :=
  let s := (rxCount s slot 0x10 0).inc R.strCntLost
  s.setBit (R.strRxLossMap + 4 * (slot / 32)) (slot % 32) true

def closeWait (r : RxRt) (seq : Nat) : RxRt := { r with waits := r.waits.filter (· != seq) }

/-- What a decided packet and the partner's report of it lead to (R357): the exchange closes, or waits for a payload. -/
def exchange (slot seq : Nat) (r : RxRt) (s : State) : State :=
  match tabGet r.reports seq with
  | none => s
  | some (present, crc) =>
    match r.pkts.find? (fun p => p.seq == seq && !p.late) with
    | some p =>
      if !present then
        sendPair (s.putRx slot (closeWait r seq)) mkFill [slot, seq, bitsOf 64 p.t] p.pay
      else if crc = crc32c p.pay then s.putRx slot (closeWait r seq)
      else
        let s := rxCount s slot 0x20 5
        if isPref s then s.putRx slot (closeWait r seq) else sendPair s mkAsk [slot, seq] []
    | none => if present then s else s.putRx slot (closeWait r seq)

/-- PACKET_CUTOFF: presence is decided once; in a pair it is reported to the partner. -/
def doPacketCutoff (slot seq : Nat) (s : State) : State :=
  match rxNewest s slot s.tick with
  | none => s
  | some r =>
    let due := (cutDue s r seq).getD s.clk
    if r.stop.isNone ∧ seq < 65536 ∧ r.decided.contains seq = false ∧ s.dueOk due = true then
      let s := s.atClk due
      let pkt := r.pkts.find? fun p => p.seq == seq && !p.late
      let pair := inPair s && partnerUp s
      let r := { r with
        decided := (seq :: r.decided).take 256
        waits := if pair then r.waits ++ [seq] else r.waits }
      let s := s.putRx slot r
      let crc := match pkt with
        | some p => crc32c p.pay
        | none => 0
      let s := if pair then sendPair s mkPresence [slot, seq, b2n pkt.isSome, crc] [] else s
      let s := if pkt.isSome then s.inc (rxReg slot 4) else countLost s slot
      if pair then exchange slot seq r s else s
    else s

def execPacketCutoff (slot seq : Nat) (s : State) : Host.Outcome State Fault Refusal :=
  .next (settle (doPacketCutoff slot seq s))

/-! ### Margins (R358, R376) -/

def publishMargin (s : State) (slot : Nat) (r : RxRt) : State :=
  let s' := s.putRx slot { r with
    mMin := 0
    mSum := 0
    mCnt := 0
    seen := (false, false)
    seenLast := r.seen }
  if r.mCnt = 0 then s'
  else
    let s' := (s'.setReg (rxReg slot 0x2C) (wdI r.mMin)).setReg (rxReg slot 0x30) (wdI (rneDiv r.mSum r.mCnt))
    if r.mMin < s.regNat R.strMarginWarn then strEvt s' 6 else s'

/-- MARGIN_WINDOW_END: once for each boundary divisible by 150. -/
def doMarginWindowEnd (s : State) : State :=
  if s.tick % 150 = 0 ∧ s.str.winTick < s.tick then
    s.str.rx.foldl (fun s (e : Nat × List RxRt) => e.2.foldl (fun s r => publishMargin s e.1 r) s)
      { s with str := { s.str with winTick := s.tick } }
  else s

def execMarginWindowEnd (s : State) : Host.Outcome State Fault Refusal := .next (settle (doMarginWindowEnd s))

/-! ### Staging checks (R350, R360, R263) -/

/-- No bit outside the masks is set; words past them are zero. -/
def maskedOk (masks : List Nat) (d : List Word) : Bool :=
  d.zipIdx.all fun (w, i) => w &&& wd (masks.getD i 0) == w

def rxMasks : List Nat :=
  [0x17F73, 0x7F, 0x1313, 0xFFFFFFFF, 0xFFFFFFFF, 0xFFFF, 0xFFFFFFFF, 0xFFFFFFFF, 0xFFFF, 0xFFFF, 0xFFF, 0xFFFFFFFF, 0xFFFFFFFF]

def txMasks : List Nat :=
  [0x7F73, 0x3FFF007F, 0x31313, 0xFFFFFFFF, 0xFFFFFFFF, 0xFFFFFFFF, 0xFFFFFFFF, 0xFFFFFFFF, 0xFFFF, 0xFFFFFFFF, 0x3FF,
   0xFFFFFFFF, 0xFFFFFFFF]

/-- What both kinds of descriptor must satisfy. -/
def strCommonOk (d : List Word) : Bool :=
  decide (fld (wAt d 0) 6 4 ≤ 3) && decide (1 ≤ descCh d) && decide (descCh d ≤ 64) && decide (96 ≤ fld (wAt d 1) 6 0) &&
  (redEn d || blueEn d) && !(redEn d && blueEn d && redPort d == bluePort d) && decide (descMask d < 2 ^ descCh d)

/-- Objects a receive descriptor feeds, with the channel of each. -/
def rxFeeds (d : List Word) : List (Nat × Nat) :=
  ((List.range 64).filter fun c => (descMask d).testBit c).map fun c => (rxBase d + c, c)

def rxDescOk (s : State) (d : List Word) : Bool :=
  let k := if s.rate96 then 2 else 1
  maskedOk rxMasks d && strCommonOk d && descFmt d != 3 && decide (12 * k ≤ rxLo d) && decide (rxLo d ≤ 960 * k) &&
  (rxFeeds d).all fun e => decide (e.1 < s.objects)

def txDescOk (s : State) (d : List Word) : Bool :=
  let adj := (wAt d 9).toInt
  maskedOk txMasks d && strCommonOk d && decide (descFmt d ≤ 1) && decide (1 ≤ fld (wAt d 1) 23 16) &&
  decide (-1048576 ≤ adj) && decide (adj ≤ 1048575) && decide (txBase d + descCh d ≤ s.outputs)

def slotWord (p : List Byte) : Word := wAt (wordsOf p) 0
def slotOf (p : List Byte) : Nat := fld (slotWord p) 7 0
def descOf (p : List Byte) : List Word := (wordsOf p).drop 1

def chkRx (s : State) (_ : List Packet) (p : List Byte) : Nat :=
  if p.length = 132 ∧ fld (slotWord p) 31 8 = 0 ∧ rxDescOk s (descOf p) = true then stOk else stBadParam

def chkTx (s : State) (_ : List Packet) (p : List Byte) : Nat :=
  if p.length = 132 ∧ fld (slotWord p) 31 8 = 0 ∧ txDescOk s (descOf p) = true then stOk else stBadParam

def chkStrDelete (_ : State) (_ : List Packet) (p : List Byte) : Nat :=
  if p.length = 4 ∧ fld (slotWord p) 31 9 = 0 then stOk else stBadParam

def chkStrMask (_ : State) (_ : List Packet) (p : List Byte) : Nat :=
  if p.length = 12 ∧ fld (slotWord p) 31 8 = 0 then stOk else stBadParam

/-! ### At the pass (R348, R349, R351, R359, R365, R366) -/

/-- The descriptor with its changeable fields taken out: legs, and for a transmit stream LEGS, TTL and DSCP. -/
def rxFixed (d : List Word) : List Word := d.zipIdx.map fun (w, i) => if 2 ≤ i ∧ i ≤ 8 then 0 else w

def txFixed (d : List Word) : List Word :=
  d.zipIdx.map fun (w, i) => if i = 1 then w &&& 0xFF else if 2 ≤ i ∧ i ≤ 6 then 0 else w

/-- Status of a stream command against the committed state it would apply to. -/
def strStatus (c : Committed) (op : Nat) (p : List Byte) : Nat :=
  let slot := slotOf p
  match op with
  | 0x0901 => (match tabGet c.rx slot with
    | some d => if rxFixed d.words == rxFixed (descOf p) then stOk else stBadState
    | none => stOk)
  | 0x0902 => (match tabGet c.tx slot with
    | some d => if txFixed d.words == txFixed (descOf p) then stOk else stBadState
    | none => stOk)
  | 0x0903 => if (if bit (slotWord p) 8 then (tabGet c.tx slot).isSome else (tabGet c.rx slot).isSome) then stOk else stBadState
  | 0x0904 => (match tabGet c.tx slot with
    | some d =>
      let m := (wAt (wordsOf p) 1).toNat + 2 ^ 32 * (wAt (wordsOf p) 2).toNat
      if m < 2 ^ descCh d.words then stOk else stBadParam
    | none => stBadState)
  | _ => stOk

/-- Ports of a descriptor's enabled legs. -/
def legPorts (d : List Word) : List Nat := (if redEn d then [redPort d] else []) ++ (if blueEn d then [bluePort d] else [])

/-- Enabled receive legs as port, address and UDP port. -/
def rxLegs (c : Committed) : List Nat :=
  c.rx.flatMap fun (e : Nat × RxDesc) =>
    let d := e.2.words
    let key (p i : Nat) : Nat := p * 2 ^ 48 + (wAt d i).toNat * 2 ^ 16 + fld (wAt d (i + 2)) 15 0
    (if redEn d then [key (redPort d) 3] else []) ++ (if blueEn d then [key (bluePort d) 6] else [])

/-- Objects that serial ports feed (R435). -/
def sapFeeds (c : Committed) (p : Nat) : List (Nat × Nat) :=
  let v := c.reg (R.sapObj + 0x80 * p)
  (if bit v 15 then [(fld v 11 0, 0)] else []) ++ (if bit v 31 then [(fld v 27 16, 1)] else [])

/-- Every object fed, once for each channel that feeds it (R349). -/
def fedObjects (c : Committed) : List Nat :=
  (c.rx.flatMap fun (e : Nat × RxDesc) => (rxFeeds e.2.words).map (·.1)) ++
  (List.range 32).flatMap fun p => (sapFeeds c p).map (·.1)

/-- Frames over a port's limit (R348). -/
def framesBad (s : State) (c : Committed) : Bool :=
  let big (d : List Word) (bytes : Nat) : Bool := (legPorts d).any fun p =>
    decide (c.regNat (portReg p 0x20) % 2 ^ 14 < frameSize c p (descCh d * descS s d) bytes)
  (c.rx.any fun (e : Nat × RxDesc) => big e.2.words (fmtBytes (descFmt e.2.words))) ||
  c.tx.any fun (e : Nat × TxDesc) => big e.2.words (fmtBytes (descFmt e.2.words))

/-- Checks that end with ST_BAD_PARAM. -/
def strParamBad (s : State) (c : Committed) : Bool := !noDup (rxLegs c) || !noDup (fedObjects c) || framesBad s c

/-- Transmit load of a port in bits per second (R348). -/
def portLoad (s : State) (c : Committed) (p : Nat) : Nat :=
  sumNat (c.tx.map fun (e : Nat × TxDesc) =>
    let d := e.2.words
    if (legPorts d).contains p then
      (frameSize c p (descCh d * descS s d) (fmtBytes (descFmt d)) + 20) * 8 * (s.fs / descS s d)
    else 0)

def portRate (c : Committed) (p : Nat) : Nat := if (c.regNat (portReg p 0)).testBit 1 then 10000000000 else 25000000000

/-- Transmit legs exceed 90 % of a port (R348). -/
def bandwidthBad (s : State) (c : Committed) : Bool :=
  (List.range 4).any fun p => decide (portRate c p * 9 < portLoad s c p * 10)

/-! ### Buffers (R368) -/

/-- Cut the first `n` KiB off a list of runs. -/
def dropKiB : Nat → List Run → List Run
  | _, [] => []
  | n, (a, l) :: t => if l ≤ n then dropKiB (n - l) t else (a + n, l - n) :: t

/-- Runs of the streams region open to receive buffers, in KiB from the start of the cistern. -/
def strRuns (c : Committed) : List Run := dropKiB 1280 (regionRuns c 2 512)

def rxOcc (s : State) : List Run := s.str.rx.flatMap fun (e : Nat × List RxRt) => e.2.filterMap (·.buf)

def rxFree (s : State) (c : Committed) : List Run := (rxOcc s).foldl cutRun (strRuns c)

/-- The region is smaller than its fixed part and the buffers in force (R368). -/
def strRegionBad (s : State) (c : Committed) : Bool :=
  decide ((regionBanks c 2).length * 512 < 1280 + sumNat ((rxOcc s).map (·.2)))

/-- Place the buffers of new streams in ascending slot; none when one finds no room. -/
def placeRx (s : State) : Option State :=
  s.str.rx.foldl (fun (acc : Option State) (e : Nat × List RxRt) =>
    e.2.foldl (fun acc r =>
      acc.bind fun s =>
        if r.buf.isSome then some s
        else
          let n := rxKiB s r.d0
          (firstFit (rxFree s s.cm) n).map fun b => s.putRx e.1 { r with buf := some (b, n) }) acc) (some s)

def bufRegs (s : State) : State :=
  let f := rxFree s s.mapCm
  (s.setNat R.strBufFree (freeUnits f)).setNat R.strBufRun (largestRun f)

/-! ### Commit (R359, R365, R366) -/

def newRx (k : Nat) (d : List Word) : RxRt :=
  { descs := [(0, d)]
    start := k
    w := List.replicate (descCh d) 0
    hold := List.replicate (descCh d) 0
    bursts := List.replicate (descCh d) {} }

def applyRx (k : Nat) (p : List Byte) (s : State) : State :=
  let slot := slotOf p
  let d := descOf p
  let live := (tabGet s.cm.rx slot).isSome
  let s := { s with cm := { s.cm with rx := tabSet s.cm.rx slot { words := d } } }
  if live then
    s.setRxs slot ((s.rxs slot).map fun r => if r.stop.isNone then { r with descs := ((k, d) :: r.descs).take 4 } else r)
  else s.setRxs slot (newRx k d :: s.rxs slot)

def State.txs (s : State) (slot : Nat) : List TxRt := tabGetD s.str.tx slot []

def State.setTxs (s : State) (slot : Nat) (l : List TxRt) : State :=
  { s with str := { s.str with tx := if l.isEmpty then tabDel s.str.tx slot else tabSet s.str.tx slot l } }

/-- Change the stream of a slot that is not deleted. -/
def State.onTx (s : State) (slot : Nat) (f : TxRt → TxRt) : State :=
  s.setTxs slot ((s.txs slot).map fun r => if r.stop.isNone then f r else r)

def newTx (B k : Nat) (d : List Word) : TxRt :=
  { descs := [(k * B, d)]
    masks := [(k * B, descMask d)]
    start := k
    w := List.replicate (descCh d) 0 }

def applyTx (k : Nat) (p : List Byte) (s : State) : State :=
  let slot := slotOf p
  let d := descOf p
  match tabGet s.cm.tx slot with
  | some old =>
    let s := { s with cm := { s.cm with tx := tabSet s.cm.tx slot { words := d, mask := old.mask } } }
    s.onTx slot fun r => { r with descs := ((k * s.blockLen, d) :: r.descs).take 4 }
  | none =>
    let s := { s with cm := { s.cm with tx := tabSet s.cm.tx slot { words := d, mask := descMask d } } }
    s.setTxs slot (newTx s.blockLen k d :: s.txs slot)

def applyStrDelete (k : Nat) (p : List Byte) (s : State) : State :=
  let slot := slotOf p
  if bit (slotWord p) 8 then
    let s := { s with cm := { s.cm with tx := tabDel s.cm.tx slot } }
    s.onTx slot fun r => { r with stop := some k }
  else
    let s := { s with cm := { s.cm with rx := tabDel s.cm.rx slot } }
    s.setRxs slot ((s.rxs slot).map fun r => if r.stop.isNone then { r with stop := some k } else r)

def applyStrMask (k : Nat) (p : List Byte) (s : State) : State :=
  let slot := slotOf p
  let m := (wAt (wordsOf p) 1).toNat + 2 ^ 32 * (wAt (wordsOf p) 2).toNat
  match tabGet s.cm.tx slot with
  | none => s
  | some d =>
    let s := { s with cm := { s.cm with tx := tabSet s.cm.tx slot { d with mask := m } } }
    s.onTx slot fun r => { r with masks := ((k * s.blockLen, m) :: r.masks).take 8 }

/-- Joins of a commit (R336, R359): `before` is what was joined. -/
def rxJoins (before : List (List (Nat × Option Nat))) (s : State) : State :=
  (List.range 4).foldl (fun s p =>
    let new := (joined s p).filter fun g => !(before.getD p []).contains g
    igmpReport s p (new.map fun (g, src) => match src with
      | some a => (5, g, [a])
      | none => (4, g, []))) s

/-- Leaves for groups no longer joined. -/
def rxLeaves (old : List (Nat × Nat × Option Nat)) (s : State) : State :=
  (List.range 4).foldl (fun s p =>
    let gone := ((old.filter fun e => e.1 == p).map (·.2)).filter fun g => !(joined s p).contains g
    igmpReport s p (gone.map fun (g, src) => match src with
      | some a => (6, g, [a])
      | none => (3, g, []))) s

/-- Groups of a descriptor: port, group, source. -/
def descGroups (d : List Word) : List (Nat × Nat × Option Nat) :=
  let src (i : Nat) : Option Nat := if bit (wAt d 0) 16 then some (wAt d i).toNat else none
  (if redEn d && isMulticast (wAt d 3).toNat then [(redPort d, (wAt d 3).toNat, src 4)] else []) ++
  (if blueEn d && isMulticast (wAt d 6).toNat then [(bluePort d, (wAt d 6).toNat, src 7)] else [])

/-! ### At boundary `t` -/

/-- Streams that start zero their slot's counters; a leg change leaves the groups it no longer uses. -/
def strBoundary (t : Nat) (s : State) : State :=
  let s := s.str.rx.foldl (fun s (e : Nat × List RxRt) => e.2.foldl (fun s r =>
    let s := if r.start = t then s.clear ((List.range 15).map fun i => rxReg e.1 (4 + 4 * i)) else s
    match r.descs with
    | (k, _) :: (_, old) :: _ => if k = t then rxLeaves (descGroups old) s else s
    | _ => s) s) s
  s.str.tx.foldl (fun s (e : Nat × List TxRt) =>
    if e.2.any (·.start == t) then s.clear ((List.range 15).map fun i => txReg e.1 (4 + 4 * i)) else s) s

/-- The fade of a deleted stream has ended by a boundary. -/
def rxFaded (s : State) (r : RxRt) : Bool :=
  match r.stop with
  | some k => decide (k * s.blockLen < s.str.relT + s.blockLen) && r.w.all (· == 0) && decide (k < s.tick)
  | none => false

/-- STR_RX_FADE_END. -/
def doStrRxFadeEnd (slot : Nat) (s : State) : State :=
  let l := s.rxs slot
  let gone := l.filter (rxFaded s)
  if gone.isEmpty then s
  else
    let s := s.setRxs slot (l.filter fun r => !rxFaded s r)
    bufRegs (rxLeaves (gone.flatMap fun r => r.descs.flatMap fun e => descGroups e.2) s)

def execStrRxFadeEnd (slot : Nat) (s : State) : Host.Outcome State Fault Refusal := .next (settle (doStrRxFadeEnd slot s))

/-! ### Concealment and bursts over one sample (R356, R425, R426) -/

/-- Preambles Pa and Pb of the 16-, 20- and 24-bit modes. -/
def preambles : List (Nat × Nat × Nat) := [(16, 0xF872, 0x4E1F), (20, 0x6F872, 0x54E1F), (24, 0x96F872, 0xA54E1F)]

/-- The mode whose Pa a sample is. -/
def paMode (x : Int) : Option (Nat × Nat) :=
  (preambles.find? fun e => bitsOf 32 x == e.2.1 * 2 ^ (32 - e.1)).map fun e => (e.1, e.2.2)

def isPb (size : Nat) (x : Int) : Bool := preambles.any fun e => e.1 == size && bitsOf 32 x == e.2.2 * 2 ^ (32 - size)

/-- What one sample of a searched channel brings: new state, whether the sample is passed, a burst counted, a burst ended. -/
structure BurstOut where
  b : BurstSt
  pass : Bool
  began : Bool := false
  ended : Bool := false

/-- A sample with nothing awaited; `nxt` is the next one if it is present. -/
def burstIdle (time : Nat) (b : BurstSt) (x : Int) (nxt : Option Int) : BurstOut :=
  match paMode x with
  | none => { b := b, pass := true }
  | some (size, _) =>
    let b' := { b with want := 1, size := size, pa := time }
    match nxt with
    | none => { b := { b' with doubt := true }, pass := false }
    | some y => if isPb size y then { b := { b' with doubt := false, muted := true }, pass := false, began := true }
      else { b := b, pass := true }

/-- One released sample through the search. -/
def burstStep (time : Nat) (b : BurstSt) (x : Int) (nxt : Option Int) : BurstOut :=
  let word := bitsOf 32 x / 2 ^ (32 - b.size)
  match b.want with
  | 0 => burstIdle time b x nxt
  | 1 =>
    if b.doubt then
      (if isPb b.size x then { b := { b with want := 2, doubt := false, muted := true }, pass := false, began := true }
       else burstIdle time { b with want := 0, doubt := false } x nxt)
    else { b := { b with want := 2 }, pass := false }
  | 2 => { b := { b with want := 3, dtype := word % 32 }, pass := false }
  | 3 =>
    let n := ceilDiv word b.size
    if n = 0 then { b := { b with want := 0, len := 0, last := time }, pass := false, ended := true }
    else { b := { b with want := 4, len := word, left := n }, pass := false }
  | _ =>
    if b.left ≤ 1 then { b := { b with want := 0, left := 0, last := time }, pass := false, ended := true }
    else { b := { b with left := b.left - 1 }, pass := false }

/-- Weight of 32 applied to a sample (R356, R365). -/
def weigh32 (x : Int) (w : Nat) : Int := if w = 32 then x else rne (x * w) 5

/-- Sample after muting and its ramp (R426). -/
def burstOut (o : BurstOut) (y : Int) : BurstSt × Int :=
  if o.b.muted then (o.b, 0)
  else
    let w := min 32 (o.b.w + 1)
    ({ o.b with w := w }, if o.pass then weigh32 y w else 0)

/-- The packet that supplies a sample time, the later number where two do (R356). -/
def rxCover (r : RxRt) (x : Int) : Option RxPkt :=
  (r.pkts.filter fun p => !p.late && decide (p.t ≤ x) && decide (x < p.t + p.s)).foldl (fun acc p =>
    match acc with
    | none => some p
    | some q => if seqAfter p.seq q.seq then some p else some q) none

def rxRow (p : Option RxPkt) (x : Int) : Option (List Int) := p.map fun p => p.samples.getD (x - p.t).toNat []

/-- A stream's share in its slot's channels at release time `R`, with the bursts that began and ended by channel. -/
def rxStep (B relT : Nat) (r : RxRt) : RxRt × List Int × List (Nat × BurstOut) :=
  let d := r.d0
  let x : Int := (relT : Int) - rxLo d
  let live := match r.stop with
    | some k => decide (relT + B < k * B)
    | none => true
  let row := if live then rxRow (rxCover r x) x else none
  let next := if live then rxRow (rxCover r (x + 1)) (x + 1) else none
  let hold := match row with
    | some v => v
    | none => r.hold
  let w := r.w.map fun w => if row.isSome then min 32 (w + 1) else w - 1
  let ys := (hold.zip w).map fun (h, w) => weigh32 h w
  if descFmt d = 2 then
    let outs := (r.bursts.zip ys).zipIdx.map fun ((b, y), c) =>
      let o := burstStep relT b (match row with
        | some v => v.getD c 0
        | none => 0) (next.map fun (v : List Int) => v.getD c 0)
      (c, o, burstOut o y)
    ({ r with w := w, hold := hold, bursts := outs.map fun e => e.2.2.1 }, outs.map fun e => e.2.2.2,
      (outs.filter fun e => e.2.1.began || e.2.1.ended).map fun e => (e.1, e.2.1))
  else ({ r with w := w, hold := hold }, ys, [])

/-! ### Views (R374 to R376) -/

def rxActiveRead (s : State) : Word := wd (s.str.rx.filter fun e => e.2.any fun r => r.takes s.tick).length

/-- A transmit stream is live in tick `t`. -/
def TxRt.live (r : TxRt) (t : Nat) : Bool :=
  decide (r.start ≤ t) && (match r.stop with
    | some k => decide (t < k)
    | none => true)

def txActiveRead (s : State) : Word := wd (s.str.tx.filter fun e => e.2.any (·.live s.tick)).length

def rxStateRead (s : State) (slot : Nat) : Word :=
  match rxNewest s slot s.tick with
  | none => 0
  | some r =>
    let live := r.takes s.tick
    let ramp := r.w.any (decide <| · < 32)
    let f := b2n (live && ramp) * 8 + b2n r.seenLast.2 * 4 + b2n r.seenLast.1 * 2 + b2n live
    wd (if live then descCh r.d0 * 65536 + f else b2n ramp * 8)

/-- Counters that STR_CNT_CLR clears. -/
def strCounters : List Nat :=
  [R.strCntLate, R.strCntLost, R.strCntFilled, R.strCntDup] ++
  (List.range 256).flatMap fun i => ((List.range 9).map fun j => rxReg i (4 + 4 * j)) ++ ([4, 8, 0xC].map (txReg i))

end Sys2Proof.Machine
end

