-- ==== Sys2Proof/Machine/Sap.lean ====
section
/-! DEFINITION. Serial audio ports (R415 to R426) and serial ADM ingest (R427 to R437). -/

namespace Sys2Proof.Machine

/-! ### Ports and their registers (R432 to R436) -/

def sapReg (p off : Nat) : Nat := R.sapCfg + 0x80 * p + off

def State.port (s : State) (p : Nat) : SapRt := tabGetD s.sap.ports p {}

def State.setPort (s : State) (p : Nat) (r : SapRt) : State :=
  { s with sap := { s.sap with ports := tabSet s.sap.ports p r } }

def SapRt.en (r : SapRt) : Bool := bit r.cfg 0
def SapRt.master (r : SapRt) : Bool := bit r.cfg 1
def SapRt.inEn (r : SapRt) : Bool := bit r.cfg 6
def SapRt.outEn (r : SapRt) : Bool := bit r.cfg 7
def SapRt.width (r : SapRt) : Nat := fld r.cfg 5 4

/-- Samples of the 1 ms ramp (R420). -/
def sapRamp (s : State) : Nat := if s.rate96 then 96 else 48

/-- LO_P (R418). -/
def sapLo (s : State) : Nat := if s.rate96 then 4 else 2

/-- Nominal rates of FS_NOM in Hz (R434). -/
def sapRate (code : Nat) : Nat := ([44100, 48000, 88200, 96000] : List Nat).getD code 48000

/-- A slot's word as a sample of the port's width (R415). -/
def slotSample (width : Nat) (w : Word) : Int :=
  match width with
  | 0 => signedOf 32 (w.toNat / 65536 * 65536)
  | 1 => signedOf 32 (w.toNat / 256 * 256)
  | _ => w.toInt

/-- A sample rounded to the port's width (R415). -/
def slotStore (width : Nat) (x : Int) : Int :=
  match width with
  | 0 => satS 16 (rne x 16) * 65536
  | 1 => satS 24 (rne x 8) * 256
  | _ => x

def sapEvt (s : State) (b : Nat) : State := s.evt R.sapEvtStatus b

/-- SAP_STAT (R436). -/
def sapStatOf (s : State) (r : SapRt) : Word :=
  let ramp := if r.st = 2 then decide (r.w < sapRamp s) else decide (0 < r.w)
  let mb (i : Nat) : Bool := (r.bursts.getD i {}).muted
  wd (b2n (r.en && ramp) * 1024 + b2n (mb 1) * 512 + b2n (mb 0) * 256 + r.rate * 16 + b2n r.master * 8 + r.st)

/-! ### Commands (R424, R434, R435) -/

def sapCfgOk (v : Word) : Bool :=
  fld v 31 13 == 0 && decide (fld v 10 8 ≤ 3) && fld v 5 4 != 3 && decide (fld v 3 2 ≤ 1) && !(bit v 1 && fld v 10 8 != 0)

def sapObjOk (s : State) (v : Word) : Bool :=
  fld v 30 28 == 0 && fld v 14 12 == 0 && (!bit v 31 || decide (fld v 27 16 < s.objects)) &&
  (!bit v 15 || decide (fld v 11 0 < s.objects))

def sapOutOk (s : State) (v : Word) : Bool :=
  fld v 30 26 == 0 && fld v 14 10 == 0 && (!bit v 31 || decide (fld v 25 16 < s.outputs)) &&
  (!bit v 15 || decide (fld v 9 0 < s.outputs))

def chkSap (s : State) (_ : List Packet) (p : List Byte) : Nat :=
  listOk 5 p fun w => decide ((wAt w 0).toNat < 32) && sapCfgOk (wAt w 1) && sapObjOk s (wAt w 2) && sapOutOk s (wAt w 3) &&
    wAt w 4 == 0

def applySap (p : List Byte) (s : State) : State :=
  (listOf 5 p).foldl (fun s w =>
    let a := (wAt w 0).toNat
    { s with cm := ((s.cm.setReg (sapReg a 0) (wAt w 1)).setReg (sapReg a 4) (wAt w 2)).setReg (sapReg a 8) (wAt w 3) }) s

/-- A distance of 0.25 to 1,000.0 m. -/
def admLenOk (w : Word) : Bool := decide (0x4000 ≤ w.toNat) && decide (w.toNat ≤ 65536000)

def admCfgOk (s : State) (w : List Word) : Bool :=
  let o := (wAt w 2).toInt
  wAt w 0 &&& wd 0x7FFF1FF1 == wAt w 0 && decide (fld (wAt w 0) 30 16 < 16448) && wAt w 1 &&& wd 0x1FF0FFF == wAt w 1 &&
  decide (1 ≤ fld (wAt w 1) 24 16) && decide (fld (wAt w 1) 24 16 ≤ 256) &&
  decide (fld (wAt w 1) 11 0 + fld (wAt w 1) 24 16 ≤ s.objects) && decide (-48000 ≤ o) && decide (o ≤ 48000) &&
  admLenOk (wAt w 3) && admLenOk (wAt w 4) && admLenOk (wAt w 5) && admLenOk (wAt w 6) && wAt w 7 == 0

def chkAdm (s : State) (_ : List Packet) (p : List Byte) : Nat :=
  if p.length = 32 ∧ admCfgOk s (wordsOf p) = true then stOk else stBadParam

def applyAdm (p : List Byte) (s : State) : State :=
  (List.range 8).foldl (fun s i => { s with cm := s.cm.setReg (R.sapAdmCfg + 4 * i) (wAt (wordsOf p) i) }) s

def admW (c : Committed) (i : Nat) : Word := c.reg (R.sapAdmCfg + 4 * i)

/-- R427: ingest is on, and its core is not of CLASS 3 or does not run. -/
def admBad (c : Committed) : Bool :=
  let ctrl := c.reg (ecReg (fld (admW c 0) 7 4) 4)
  bit (admW c 0) 0 && !(fld ctrl 5 4 == 3 && bit ctrl 0)

/-! ### The ratio tracker (R419) -/

/-- Tracked period as sum and count of intervals; the nominal period before the first interval. -/
def sapPeriod (r : SapRt) : Nat × Nat :=
  if r.ivals.isEmpty then (1250000000, sapRate r.rate) else (sumNat r.ivals, r.ivals.length)

/-- An interval of less than 0.75 P. -/
def edgeExtra (r : SapRt) (d : Nat) : Bool :=
  let p := sapPeriod r
  decide (4 * d * p.2 < 3 * p.1)

/-- An interval of more than 1.25 P. -/
def edgeMissing (r : SapRt) (d : Nat) : Bool :=
  let p := sapPeriod r
  decide (5 * p.1 < 4 * d * p.2)

/-- A frame enters the input buffer. -/
def pushFrame (r : SapRt) (t256 : Nat) (l h : Int) : SapRt := { r with buf := ((t256, l, h) :: r.buf).take 512 }

/-- A discarded frame enters as a repeat of the sample before it. -/
def repeatFrame (r : SapRt) (t256 : Nat) : SapRt :=
  match r.buf with
  | (_, l, h) :: _ => pushFrame r t256 l h
  | [] => pushFrame r t256 0 0

def glitch (s : State) (p : Nat) : State := sapEvt (s.inc (sapReg p 0x24)) 3

/-- Sample time of a cycle, in 1/256 sample. -/
def t256 (s : State) (c : Nat) : Nat := (((c * 1024 + s.tim.base) * s.fs * 256) / 1280000000000).toNat

/-- A new window of rate measurement. -/
def SapRt.restartWindows (r : SapRt) (c : Nat) : SapRt :=
  { r with
    winStart := c
    winEdges := []
    first := none
    agree := 0
    differ := 0 }

/-- An accepted edge. -/
def acceptEdge (s : State) (p : Nat) (r : SapRt) : State :=
  let r := { r with last := some s.clk, winEdges := s.clk :: r.winEdges }
  let r := if r.st = 3 then ({ r with st := 1 } : SapRt).restartWindows s.clk else r
  let due := r.edgeDue
  let q := sapPeriod r
  let s := s.setPort p { r with edgeDue := false }
  let s := if due then s.setReg (sapReg p 0x20) s.stamp else s
  s.setReg (sapReg p 0x14) (wdI (rneDiv (1250000000 * q.2 * 2 ^ 30) (q.1 * s.fs)))

/-- LRCLK_EDGE: `samples` are the two slots clocked since the last accepted edge; any other number means that the BCLK count
was not 64. -/
def doLrclkEdge (port : Nat) (samples : List Word) (s : State) : State :=
  let r := s.port port
  if !(decide (port < 32) && r.en && !r.master) then s
  else
    match r.last with
    | none => acceptEdge s port r
    | some e =>
      let d := s.clk - e
      if edgeExtra r d then glitch s port
      else if edgeMissing r d then
        acceptEdge (glitch s port) port (repeatFrame r (t256 s e))
      else
        let r := { r with ivals := (d :: r.ivals).take 64 }
        match samples with
        | [l, h] =>
          acceptEdge s port (pushFrame { r with frames := r.frames + 1 } (t256 s e) (slotSample r.width l) (slotSample r.width h))
        | _ => acceptEdge (glitch s port) port (repeatFrame r (t256 s e))

def execLrclkEdge (port : Nat) (samples : List Word) (s : State) : Host.Outcome State Fault Refusal :=
  .next (settle (doLrclkEdge port samples s))

/-- SAP_LOST (R420): no accepted edge for 4 P. -/
def doSapLost (port : Nat) (s : State) : State :=
  let r := s.port port
  match r.last with
  | none => s
  | some e =>
    let p := sapPeriod r
    let due := e + 4 * p.1 / p.2 + 1
    if r.en ∧ r.master = false ∧ (r.st = 1 ∨ r.st = 2) ∧ s.dueOk due = true then
      let s := s.atClk due
      sapEvt ((s.setPort port { r with st := 3 }).inc (sapReg port 0x28)) 0
    else s

def execSapLost (port : Nat) (s : State) : Host.Outcome State Fault Refusal := .next (settle (doSapLost port s))

/-! ### Rate windows (R421) -/

def within (a b tol scale : Nat) : Bool := decide (scale * (max a b - min a b) ≤ tol * b)

/-- Rate of a window in mHz, from the edges inside it; 0 with fewer than two. -/
def windowRate (l : List Nat) : Nat :=
  match l with
  | [] => 0
  | a :: _ => let z := l.getLastD a; if a = z then 0 else (l.length - 1) * 1250000000000 / (a - z)

/-- A window in MEASURE. -/
def measureWindow (s : State) (p : Nat) (r : SapRt) (f : Nat) : State :=
  let f0 := r.first.getD f
  let n := if f ≠ 0 ∧ within f f0 200 1000000 = true then r.agree + 1 else 0
  let r := if n = 0 then { r with first := if f = 0 then none else some f, agree := b2n (f != 0) }
    else { r with first := some f0, agree := n }
  let near (code : Nat) : Bool := within f (sapRate code * 1000) 2 100
  if r.agree < 50 then s.setPort p r
  else
    let lock (code : Nat) : State := sapEvt (s.setPort p { r with st := 2, rate := code, agree := 0, differ := 0 }) 2
    if near r.rate then lock r.rate
    else if bit r.cfg 11 then
      (match ([0, 1, 2, 3] : List Nat).find? near with
       | some code => lock code
       | none => s.setPort p { r with first := none, agree := 0 })
    else s.setPort p { r with first := none, agree := 0 }

/-- A window in LOCKED: the second one that differs enters RATE, which is left for MEASURE at once. -/
def lockedWindow (s : State) (p : Nat) (r : SapRt) (f : Nat) : State :=
  if within f (sapRate r.rate * 1000) 2 100 then s.setPort p { r with differ := 0 }
  else if r.differ = 0 then s.setPort p { r with differ := 1 }
  else sapEvt ((s.setPort p (({ r with st := 1 } : SapRt).restartWindows s.clk)).inc (sapReg p 0x2C)) 1

/-- SAP_RATE_WINDOW: 1 ms of the core clock has passed since the last window. -/
def doSapRateWindow (port : Nat) (s : State) : State :=
  let r := s.port port
  let due := r.winStart + 1250000
  if r.en ∧ r.master = false ∧ (r.st = 1 ∨ r.st = 2) ∧ s.dueOk due = true then
    let s := s.atClk due
    let f := windowRate (r.winEdges.filter (decide <| · ≤ due))
    let r := { r with winStart := due, winEdges := r.winEdges.filter (decide <| due < ·) }
    if r.st = 1 then measureWindow s port r f else lockedWindow s port r f
  else s

def execSapRateWindow (port : Nat) (s : State) : Host.Outcome State Fault Refusal := .next (settle (doSapRateWindow port s))

/-! ### At boundary `t` (R421, R423, R424) -/

/-- EN, MASTER, FMT, WIDTH, FS_NOM and AUTO_RATE. -/
def sapRestartMask : Word := 0xF3F

def startPort (s : State) (r : SapRt) (cfg : Word) : SapRt :=
  { cfg := cfg
    rate := if bit cfg 1 then b2n true + 2 * b2n s.rate96 else fld cfg 10 8
    st := if !bit cfg 0 then 0 else if bit cfg 1 then 2 else 1
    winStart := s.clk
    slots := r.slots }

/-- SAP_TS_FRAME (R423). -/
def sapFrameStamp (s : State) (t : Nat) (r : SapRt) : Word :=
  if r.master then wd (t * s.blockLen * 256)
  else
    let p := sapPeriod r
    let f := match r.last with
      | some e => min 255 ((s.clk - e) * 256 * p.2 / p.1)
      | none => 0
    wd (r.frames % 2 ^ 24 * 256 + f)

def sapBoundary (t : Nat) (s : State) : State :=
  (List.range 32).foldl (fun s p =>
    let cfg := s.mapCm.reg (sapReg p 0)
    let r := s.port p
    if !bit cfg 0 && !r.en then s
    else
      let r := if (cfg ^^^ r.cfg) &&& sapRestartMask = 0 then { r with cfg := cfg } else startPort s r cfg
      let s := s.setReg (sapReg p 0x10) (sapStatOf s r)
      if r.en then
        let s := (s.setNat (sapReg p 0x18) (t % 2 ^ 32)).setReg (sapReg p 0x1C) (sapFrameStamp s t r)
        if r.master then (s.setPort p r).setReg (sapReg p 0x20) s.stamp else s.setPort p { r with edgeDue := true }
      else s.setPort p r) s

/-! ### Ingress of one sample (R418, R420, R422, R425) -/

/-- Released sample of one half before its ramp: from the buffer in master mode, from the converter in slave mode. -/
def sapRaw (s : State) (r : SapRt) (relT : Nat) (h : Nat) : Int :=
  let pick (e : Nat × Int × Int) : Int := if h = 0 then e.2.1 else e.2.2
  if r.master then
    match r.buf.find? (fun e => e.1 + sapLo s * 256 == relT * 256) with
    | some e => pick e
    | none => 0
  else if r.buf.isEmpty then 0
  else (Config.asrc false (r.buf.map fun e => (e.1, pick e)) relT).toInt

/-- Ramp weight of the next sample. -/
def sapWeight (s : State) (r : SapRt) : Nat := if r.st = 2 then min (sapRamp s) (r.w + 1) else r.w - 1

/-- The unit's own samples of a port at release time `relT`. -/
def sapOwn (s : State) (r : SapRt) (relT : Nat) : Int × Int :=
  if r.en && r.inEn then
    let n := sapRamp s
    let w := sapWeight s r
    let one (h : Nat) : Int := if w = n then sapRaw s r relT h else rneDiv (sapRaw s r relT h * w) n
    (one 0, one 1)
  else (0, 0)

/-- A half through burst detection. -/
def sapBurst (s : State) (r : SapRt) (relT h : Nat) (y : Int) : BurstOut × BurstSt × Int :=
  let b : BurstSt := r.bursts.getD h {}
  if bit r.cfg 12 then
    let o := burstStep relT b (sapRaw s r relT h) (some (sapRaw s r (relT + 1) h))
    let q := burstOut o y
    (o, q.1, q.2)
  else ({ b := b, pass := true }, b, y)

/-- What the port releases: its own samples, or PREFERRED's with concealment for the missing (R422, R457). -/
def sapTaken (s : State) (p : Nat) (r : SapRt) (relT : Nat) : State × SapRt × Int × Int :=
  let own := sapOwn s r relT
  let r := { r with w := sapWeight s r }
  if !inPair s || mirSt s == 3 then (s, r, own)
  else if isPref s then
    ((if r.en then sendPair s mkSerial [p, relT, bitsOf 32 own.1, bitsOf 32 own.2] [] else s), r, own)
  else
    match tabGet r.fill relT with
    | some v =>
      let w := min 32 (r.fw + 1)
      (s, { r with fw := w, hold := v, fill := tabDel r.fill relT }, weigh32 v.1 w, weigh32 v.2 w)
    | none =>
      let s := if r.en then s.inc R.mirCntFillTo else s
      (s, { r with fw := r.fw - 1 }, weigh32 r.hold.1 (r.fw - 1), weigh32 r.hold.2 (r.fw - 1))

/-- A burst began or ended on an ingress channel (R425, R427). -/
def noteBurst (ch relT : Nat) (o : BurstOut) (s : State) : State :=
  let s := if o.began then sapEvt (s.inc R.sapBurstCnt) 4 else s
  let w := admW s.mapCm 0
  let want := fld w 12 8
  if o.ended && bit w 0 && fld w 30 16 == ch && o.b.dtype == (if want = 0 then Config.sadmType else want) then
    { s with sap := { s.sap with adm := s.sap.adm ++
      [{ pa := o.b.pa + s.blockLen, bits := o.b.len, tick := relT / s.blockLen + 1 }] } }
  else s

/-- One sample of every port: the new state and the values of ingress channels 16,384 on. `din` holds DIN slot words of master
ports, by 2p + h, of the frame that has just ended. -/
def sapRelease (relT : Nat) (din : List (Nat × Word)) (s : State) : State × Tab Int :=
  s.sap.ports.foldl (fun (s, vals) (p, _) =>
    let r := s.port p
    let word (h : Nat) : Option Word := (din.find? fun e => e.1 == 2 * p + h).map (·.2)
    let r := if r.en && r.master && 0 < relT && (word 0).isSome then
        pushFrame r ((relT - 1) * 256) (slotSample r.width ((word 0).getD 0)) (slotSample r.width ((word 1).getD 0)) else r
    let k := sapTaken s p r relT
    let (s, r) := (k.1, k.2.1)
    let l := sapBurst s r relT 0 k.2.2.1
    let h := sapBurst s r relT 1 k.2.2.2
    let count (s : State) (i : Nat) (o : BurstOut) : State :=
      noteBurst (16384 + 2 * p + i) relT o (if o.began then s.inc (sapReg p 0x30) else s)
    let s := s.setPort p { r with bursts := [l.2.1, h.2.1] }
    (count (count s 0 l.1) 1 h.1, tabSet (tabSet vals (2 * p) l.2.2) (2 * p + 1) h.2.2)) (s, [])

/-! ### DOUT (R416, R424) -/

/-- Output a slot is to carry in a committed state. -/
def sapOutWant (c : Committed) (p h : Nat) : Option Nat :=
  let v := c.reg (sapReg p 8)
  if h = 0 then (if bit v 15 then some (fld v 9 0) else none) else (if bit v 31 then some (fld v 25 16) else none)

/-- One sample of a slot: `x` gives an output's sample. -/
def slotStep (want : Option Nat) (r : SapSlot) (x : Nat → Int) : SapSlot × Int :=
  let r := if r.out = want then { r with w := min 32 (r.w + 1) }
    else if r.w ≤ 1 then { out := want, w := 0 } else { r with w := r.w - 1 }
  (r, match r.out with
    | some o => weigh32 (x o) r.w
    | none => 0)

/-- A slot over a block. -/
def slotBlock (want : Option Nat) (r : SapSlot) (x : Nat → Nat → Int) (n : Nat) : SapSlot × List Int :=
  (List.range n).foldl (fun (r, l) j =>
    let q := slotStep want r fun o => x o j
    (q.1, l ++ [q.2])) (r, [])

/-- DOUT of egress block `b`: `x` gives the stored outputs, `mute` a unit that is silent. -/
def sapEgress (b : Nat) (mute : Bool) (x : Nat → List Int) (s : State) : State :=
  s.sap.ports.foldl (fun s (p, _) =>
    let r := s.port p
    if r.en && r.outEn && (r.master || r.st == 2) then
      let n := s.blockLen
      let f (h : Nat) := slotBlock (sapOutWant (s.cmAt b) p h) (r.slots.getD h {}) (fun o j => (x o).getD j 0) n
      let conv (l : List Int) : List Int :=
        if mute then l.map fun _ => 0
        else if r.master then l.map (slotStore r.width)
        else l.zipIdx.map fun (v, j) => slotStore r.width (Config.asrc true [(b * n + j, v)] (b * n + j)).toInt
      (s.setPort p { r with slots := [(f 0).1, (f 1).1] }).emit (.sap p (conv (f 0).2) (conv (f 1).2))
    else s) s

/-! ### S-ADM mapping (R428 to R430) -/

/-- The words of an object record (R34). -/
def objWords (r : ObjRec) : List Word :=
  [wd (r.mode + r.dlaw * 16 + r.dtable * 64 + r.hw * 512 + b2n r.distDelay * 4096 + b2n r.focus * 8192), wd r.targetLo,
   wd r.targetHi, wd r.exclLo, wd r.exclHi, wd r.rRef, wd r.rMin, wd (bitsOf 16 r.gain), wd (r.extW + r.extH * 65536),
   wd r.pre, 0, 0, 0, 0, 0, 0]

/-- A linear gain in millionths is above `10^(c2/10240)`. -/
def microAbove (g : Nat) (c2 : Int) : Bool :=
  if c2 + 61440 ≥ 0 then decide (10 ^ (c2 + 61440).toNat < g ^ 10240) else decide (0 < g)

def microDb (g : Nat) : Nat → Int → Int → Int
  | 0, lo, _ => lo
  | f + 1, lo, hi =>
    if hi - lo ≤ 1 then lo else
    let mid := (lo + hi) / 2
    if microAbove g (2 * mid - 1) then microDb g f mid hi else microDb g f lo mid

/-- R429: gain as Q8.8 dB. -/
def admGain (b : AdmBlock) : Int :=
  if b.gainDb then clampInt (-32767) 6144 (rneDiv (b.gain * 256) 1000000)
  else if b.gain ≤ 0 then -32768
  else clampInt (-32767) 6144 (microDb b.gain.toNat 18 (-32768) 32768)

/-- Millionths times a Q16.16 scale. -/
def admScale (v : Int) (w : Word) : Int := rneDiv (v * w.toNat) 1000000

def deg97 (v : Int) : Int := rneDiv (v * 128) 1000000

/-- Position and extents of a block: three position words, extent word, POLAR. -/
def admPlace (c : Committed) (b : AdmBlock) : List Word × Word × Bool :=
  if b.cart then
    let q (v : Nat) : Nat := min 23040 ((rneDiv ((180 * v : Nat) * 128) 1000000).toNat)
    ([wdI (admScale b.p1 (admW c 4)), wdI (admScale b.p2 (admW c 5)), wdI (admScale (b.p3.getD 0) (admW c 6))],
      wd (q (max b.width b.depth) + q b.height * 65536), false)
  else
    let q (v : Nat) : Nat := min 23040 (deg97 v).toNat
    ([wd (bitsOf 16 (deg97 b.p1)), wd (bitsOf 16 (deg97 b.p2)), wdI (admScale (b.p3.getD 1000000) (admW c 3))],
      wd (q b.width + q b.height * 65536), true)

/-- Keyframe records of a block: time and record words (R429). -/
def admKeys (c : Committed) (fs : Nat) (anchor : Int) (b : AdmBlock) : List (Int × List Word) :=
  let t (ns : Nat) : Int := anchor + rneDiv (ns * fs) 1000000000
  let p := admPlace c b
  let key (x : Int) (cut : Bool) : Int × List Word :=
    (x, [wd (x.toNat % 2 ^ 32), wd (x.toNat / 2 ^ 32)] ++ p.1 ++
      [wd (bitsOf 16 (admGain b)), p.2.1, wd (b2n cut + 4 * b2n p.2.2)])
  let fin := key (t (b.rtime + b.dur)) false
  if !b.jump then [fin]
  else if b.interp = 0 then [key (t b.rtime) true, fin]
  else key (t (b.rtime + b.interp)) false :: (if b.interp < b.dur then [fin] else [])

/-- A value in millionths lies between two bounds. -/
def inBounds (l : List Int) (i : Nat) (v : Int) : Bool := decide (l.getD (2 * i) 0 ≤ v) && decide (v ≤ l.getD (2 * i + 1) 0)

/-- A speaker position lies inside a listed zone. -/
def inZone (c : Committed) (z : AdmZone) (p : Pos) : Bool :=
  if z.cart then
    let ok (i : Nat) (v : Int) (w : Word) : Bool :=
      decide (admScale (z.bounds.getD (2 * i) 0) w ≤ v) && decide (v ≤ admScale (z.bounds.getD (2 * i + 1) 0) w)
    ok 0 p.x (admW c 4) && ok 1 p.y (admW c 5) && ok 2 p.z (admW c 6)
  else
    let deg (y x : Int) : Int := rneDiv (fxAtan2Deg (fxOfQ y 16) (fxOfQ x 16) * 1000000) (2 ^ 128)
    let flat : Int := isqrt ((p.x * p.x + p.y * p.y).toNat)
    inBounds z.bounds 0 (deg (-p.x) p.y) && inBounds z.bounds 1 (deg p.z flat)

/-- Exclusion mask of a zoneExclusion element. -/
def zoneMask (c : Committed) (zs : List AdmZone) : Nat :=
  let live := c.spks.filter fun e => e.2.enable && !e.2.nozone
  sumNat ((List.range 64).map fun z =>
    let mine := live.filter fun e => e.2.zone == z
    if !mine.isEmpty && mine.all (fun e => zs.any fun q => inZone c q e.2.pos) then 2 ^ z else 0)

/-- What the mapping of a frame has gathered: keyframes by object, masks by object, counts. -/
structure AdmAcc where
  keys : Tab (List (Int × List Word)) := []
  masks : Tab Nat := []
  blocks : Nat := 0
  ignored : Nat := 0
  drops : Nat := 0

/-- Add a keyframe: at most four to an object, each later than the one before. -/
def AdmAcc.add (a : AdmAcc) (o : Nat) (k : Int × List Word) : AdmAcc :=
  let l := tabGetD a.keys o []
  let late := match l.getLast? with
    | some q => decide (k.1 ≤ q.1)
    | none => false
  if late || decide (4 ≤ l.length) then { a with drops := a.drops + 1 } else { a with keys := tabSet a.keys o (l ++ [k]) }

def admBlock (c : Committed) (fs : Nat) (anchor : Int) (a : AdmAcc) (b : AdmBlock) : AdmAcc :=
  let a := { a with ignored := a.ignored + b.ignored }
  if !b.isObj || b.track = 0 || fld (admW c 1) 24 16 < b.track then { a with ignored := a.ignored + 1 }
  else
    let o := fld (admW c 1) 11 0 + b.track - 1
    let a := (admKeys c fs anchor b).foldl (fun a k => a.add o k) { a with blocks := a.blocks + 1 }
    match b.zones with
    | none => a
    | some zs => { a with masks := tabSet a.masks o (zoneMask c zs) }

/-- The frame's packets: keyframes, and records whose exclusion mask changes. -/
def admPackets (c : Committed) (a : AdmAcc) : List Packet :=
  (a.keys.map fun e =>
    { op := 0x0302, payload := bytesOfWords ([wd e.1, wd e.2.length] ++ e.2.flatMap (·.2)) : Packet }) ++
  (a.masks.filter fun e => e.2 != (c.obj e.1).exclLo + (c.obj e.1).exclHi * 2 ^ 32).map fun e =>
    { op := 0x0301, payload := bytesOfWords ([wd 1, wd e.1] ++
      objWords { c.obj e.1 with exclLo := e.2 % 2 ^ 32, exclHi := e.2 / 2 ^ 32 }) : Packet }

/-- ADM_STAGE: the parser has halted in the tick that holds the oldest received frame. -/
def doAdmStage (frame : AdmFrame) (s : State) : State :=
  match s.sap.adm with
  | [] => s
  | rx :: rest =>
    let core := fld (admW s.mapCm 0) 7 4
    if rx.tick ≤ s.tick ∧ (tabGetD s.ecs core {}).mode = .halted then
      let s := { s with sap := { s.sap with adm := rest } }
      if !frame.ok || decide (131072 < rx.bits) then sapEvt (s.inc R.sapAdmCntErr) 5
      else
        let anchor : Int := rx.pa + (admW s.mapCm 2).toInt
        let a := frame.blocks.foldl (admBlock s.cm s.fs anchor) { ignored := frame.ignored }
        let s := (((s.inc R.sapAdmCntFrames).inc R.sapAdmCntBlocks a.blocks).inc R.sapAdmCntIgnored a.ignored).inc
          R.sapAdmCntDrop a.drops
        let s := if a.drops = 0 then s else sapEvt s 7
        let l := admPackets s.cm a
        if l.isEmpty then s else fwStage s 1 l
    else s

def execAdmStage (frame : AdmFrame) (s : State) : Host.Outcome State Fault Refusal := .next (settle (doAdmStage frame s))

/-- Frames a firmware transaction carried are lost (R431). -/
def admRefused (n : Nat) (s : State) : State := if n = 0 then s else sapEvt (s.inc R.sapAdmCntRefused n) 6

/-! ### Views (R432) -/

def sapMap (s : State) (f : SapRt → Bool) : Word := wd (sumNat (s.sap.ports.map fun e => if f e.2 then 2 ^ e.1 else 0))

def sapLostRead (s : State) : Word := sapMap s fun r => r.st == 3

def sapBurstRead (s : State) : Word := sapMap s fun r => r.bursts.any (·.muted)

/-- Counters that SAP_CNT_CLR clears. -/
def sapCounters : List Nat :=
  [R.sapBurstCnt, R.sapAdmCntFrames, R.sapAdmCntBlocks, R.sapAdmCntIgnored, R.sapAdmCntDrop, R.sapAdmCntErr,
   R.sapAdmCntRefused] ++ (List.range 32).flatMap fun p => [0x24, 0x28, 0x2C, 0x30].map (sapReg p)

end Sys2Proof.Machine
end

