-- ==== Sys2Proof/Machine/Fill.lean ====
section
/-! DEFINITION. Presence reports and fill payloads of a mirrored pair (R357, R457), and the samples of PREFERRED's serial ports
(R422). -/

namespace Sys2Proof.Machine

/-- PRESENCE_REPORT: the partner's report of a packet (slot, sequence number, present, CRC-32C), or its request for PREFERRED's
payload of one (slot, sequence number). -/
def doPresenceReport (m : LinkMsg) (s : State) : State :=
  let slot := m.args.getD 0 0
  let seq := m.args.getD 1 0
  let ask := m.kind == mkAsk
  let a := takeMsg (if ask then mkAsk else mkPresence) m s
  if a.2 && fromPartner s m then
    match rxNewest a.1 slot s.tick with
    | none => a.1
    | some r =>
      if ask then
        match r.pkts.find? (fun p => p.seq == seq && !p.late) with
        | some p => if isPref s then sendPair a.1 mkFill [slot, seq, bitsOf 64 p.t] p.pay else a.1
        | none => a.1
      else if (tabGet r.reports seq).isSome then a.1
      else
        let kept := (r.reports.filter fun e => (r.waits.contains e.1 || !r.decided.contains e.1))
        let r := { r with reports := tabSet kept seq (m.args.getD 2 0 == 1, m.args.getD 3 0) }
        let s := a.1.putRx slot r
        if r.waits.contains seq then exchange slot seq r s else s
  else a.1

def execPresenceReport (m : LinkMsg) (s : State) : Host.Outcome State Fault Refusal := .next (settle (doPresenceReport m s))

/-- The partner's payload takes the place of an absent or different one until the first sample is released. -/
def takeFill (slot seq : Nat) (t : Int) (pay : List Byte) (s : State) : State :=
  match rxNewest s slot s.tick with
  | none => s
  | some r =>
    let d := r.d0
    if r.waits.contains seq && decide ((s.str.relT : Int) ≤ t + rxLo d) then
      let own := (r.pkts.find? fun p => p.seq == seq && !p.late).isSome
      let q : RxPkt :=
        { seq := seq
          t := t
          s := descS s d
          red := false
          blue := false
          samples := rowsOf d (descS s d) pay
          pay := pay
          partner := true }
      let rest := r.pkts.filter fun p => p.seq != seq
      let s := s.putRx slot { closeWait r seq with pkts := prune s.str.relT d (q :: rest) }
      if own then s else s.inc (rxReg slot 0x1C)
    else s

/-- FILL_PAYLOAD: a packet's payload (slot, sequence number, its sample time), or samples of PREFERRED's serial port (port, sample
time, left, right). -/
def doFillPayload (m : LinkMsg) (s : State) : State :=
  let serial := m.kind == mkSerial
  let a := takeMsg (if serial then mkSerial else mkFill) m s
  let x (i : Nat) : Nat := m.args.getD i 0
  if a.2 && fromPartner s m then
    if serial then
      if x 0 < 32 ∧ isPref s = false ∧ s.str.relT ≤ x 1 then
        let r := a.1.port (x 0)
        a.1.setPort (x 0) { r with fill := tabSet r.fill (x 1) (signedOf 32 (x 2), signedOf 32 (x 3)) }
      else a.1
    else takeFill (x 0) (x 1) (signedOf 64 (x 2)) m.bytes a.1
  else a.1

def execFillPayload (m : LinkMsg) (s : State) : Host.Outcome State Fault Refusal := .next (settle (doFillPayload m s))

/-- FILL_DEADLINE (R457): an exchange that is still open at the release of the packet's first sample is counted, and the unit's own
decision stands. -/
def doFillDeadline (slot seq : Nat) (s : State) : State :=
  match rxNewest s slot s.tick with
  | none => s
  | some r =>
    let d := r.d0
    let rel (cut : Nat) : Nat := cut + (sampleClk s (if s.rate96 then 8 else 4) - sampleClk s 0).toNat
    let due := match r.pkts.find? (·.seq == seq) with
      | some p => (sampleClk s (p.t + rxLo d)).toNat
      | none => rel ((cutDue s r seq).getD s.clk)
    if r.waits.contains seq && s.dueOk due then ((s.atClk due).putRx slot (closeWait r seq)).inc R.mirCntFillTo else s

def execFillDeadline (slot seq : Nat) (s : State) : Host.Outcome State Fault Refusal := .next (settle (doFillDeadline slot seq s))

end Sys2Proof.Machine
end

