-- ==== Sys2Proof/Machine/Release.lean ====
section
/-! DEFINITION. Release of input samples into wells, direct inputs and the standpipe (R33, R68, R70, R349, R353). -/

namespace Sys2Proof.Machine

/-! ### Receive slots -/

/-- One sample of every receive slot: the ingress values by channel (R356, R359). -/
def rxRelease (relT : Nat) (s : State) : State × Tab Int :=
  let B := s.blockLen
  s.str.rx.foldl (fun (s, vals) (slot, rts) =>
    let outs := rts.map fun r => if r.start * B ≤ relT + B then rxStep B relT r else (r, [], [])
    let s := s.setRxs slot (outs.map (·.1))
    let s := outs.foldl (fun s o => o.2.2.foldl (fun s e => noteBurst (64 * slot + e.1) relT e.2 s) s) s
    let n := maxNat (outs.map fun o => o.2.1.length)
    let vals := (List.range n).foldl (fun vals c =>
      let v := sat32 (sumInt (outs.map fun o => o.2.1.getD c 0))
      if v = 0 then vals else tabSet vals (64 * slot + c) v) vals
    (s, vals)) (s, [])

/-! ### Objects (R350, R416) -/

/-- The ingress channel that feeds an object at block `b`. -/
def feedOf (s : State) (o b : Nat) : Option Nat :=
  let ofRx (live : Bool) : Option Nat := s.str.rx.findSome? fun (e : Nat × List RxRt) =>
    match e.2.find? (fun r => decide (r.start ≤ b)) with
    | none => none
    | some r => if r.takes b == live then ((rxFeeds r.d0).find? (·.1 == o)).map fun f => 64 * e.1 + f.2 else none
  let ofSap : Option Nat := (List.range 32).findSome? fun p =>
    ((sapFeeds (s.cmAt b) p).find? (·.1 == o)).map fun f => 16384 + 2 * p + f.2
  match ofRx true with
  | some c => some c
  | none => match ofSap with
    | some c => some c
    | none => ofRx false

/-- The headworks filter of an object over one sample (R70): `i` is the sample's render time. -/
def headworks (fs : Nat) (want : Nat) (birth : Bool) (i : Nat) (x : Int) (r : ObjRt) : ObjRt × Int :=
  let r := if birth then { r with
      hwSel := want
      hw := []
      hwOld := none } else r
  let r := if r.hwSel = want then r else { r with
      hwSel := want
      hw := []
      hwOld := some (r.hwSel, r.hw, i) }
  let a := cascade (hwCoefs fs r.hwSel) r.hw x
  match r.hwOld with
  | none => ({ r with hw := a.2 }, a.1)
  | some (sel, st, i0) =>
    let b := cascade (hwCoefs fs sel) st x
    let k : Nat := i + 1 - i0
    let y := sat32 (rne (a.1 * k + b.1 * (256 - k : Nat)) 8)
    ({ r with
      hw := a.2
      hwOld := if 256 ≤ k then none else some (sel, b.2, i0) }, y)

/-- One sample of one object with a well: headworks, then its insert or its well. -/
def feedObject (relT : Nat) (vals : Tab Int) (s : State) (o : Nat) (w : Well) : State :=
  let B := s.blockLen
  let i := relT + B
  let b := i / B
  let x := match feedOf s o b with
    | some c => tabGetD vals c 0
    | none => 0
  let want := ((s.cmAt b).obj o).hw
  let h := headworks s.fs want (i == w.birth * B) i x (s.rt o)
  let s := if h.1 = s.rt o then s else s.setRt o h.1
  let g := rampSamples B (objGateAt s o (b - 1)) (objGateAt s o b)
  let y := if (tabGet s.ecIo.objGate o).isNone then h.2 else rne (h.2 * g.getD (i % B) 0x100000) 20
  match objRouteAt s o b with
  | some _ =>
    let l := ((i, y) :: tabGetD s.ecIo.hw o []).take (4 * B)
    { s with ecIo := { s.ecIo with hw := tabSet s.ecIo.hw o l } }
  | none => renderWrite s clIngress 1 (wellOff w i) (wdI y)

/-- Every object with a well at block `b`. -/
def feedObjects (relT : Nat) (vals : Tab Int) (s : State) : State :=
  (s.cmAt ((relT + s.blockLen) / s.blockLen)).wells.foldl (fun s (o, w) => feedObject relT vals s o w) s

/-! ### Direct inputs and standpipe -/

/-- Direct inputs that a committed state has: each with its source. -/
def feedDins (relT : Nat) (vals : Tab Int) (s : State) : State :=
  let i := relT + s.blockLen
  let c := s.cmAt (i / s.blockLen)
  let buf := c.dins.foldl (fun t (d, r) =>
    let v := tabGetD vals r.src 0
    let old := (tabGetD t d []).take (4 * s.blockLen)
    if v = 0 ∧ old.isEmpty then t else tabSet t d ((i, v) :: old)) s.smp.dinBuf
  { s with smp := { s.smp with dinBuf := buf } }

/-- Ingress channels that standpipe channels use or leave (R85, R86). -/
def spSources (s : State) (b : Nat) : List Nat :=
  (((spEnabled (s.cmAt b)).map fun e => fld e.2 14 0) ++ (s.smp.sps.map (·.2.src)) ++ s.smp.spDying.map (·.src)).dedup

def feedStandpipe (relT : Nat) (vals : Tab Int) (s : State) : State :=
  let b := (relT + s.blockLen) / s.blockLen
  let buf := (spSources s b).foldl (fun t c =>
    let old := (tabGetD t c []).take (8 * s.blockLen)
    tabSet t c ((relT, tabGetD vals c 0) :: old)) s.smp.spBuf
  { s with smp := { s.smp with spBuf := buf } }

/-! ### The release -/

/-- Release the sample of time `s.str.relT` on every ingress channel. -/
def releaseOne (din : List (Nat × Word)) (s : State) : State :=
  let t := s.str.relT
  let a := rxRelease t s
  let b := sapRelease t din a.1
  let vals := b.2.foldl (fun v (h, x) => if x = 0 then v else tabSet v (16384 + h) x) a.2
  let s := feedStandpipe t vals (feedDins t vals (feedObjects t vals b.1))
  { s with str := { s.str with relT := t + 1 } }

/-- Release every sample before time `x`, with no data at the serial inputs. -/
def releaseUntil (x : Nat) (s : State) : State :=
  (List.range (x - s.str.relT)).foldl (fun s _ => releaseOne [] s) s

/-- SAMPLE_RELEASE: sample time has reached the next sample of the tick. -/
def doSampleRelease (sap : List (Nat × Word)) (s : State) : State :=
  if s.tickRuns && decide (s.str.relT < (s.tick + 1) * s.blockLen) then
    releaseOne sap (s.atClk (sampleClk s s.str.relT).toNat)
  else s

def execSampleRelease (sap : List (Nat × Word)) (s : State) : Host.Outcome State Fault Refusal :=
  .next (settle (doSampleRelease sap s))

/-! ### End of a burst's mute (R426) -/

/-- The burst search of an ingress channel. -/
def burstOf (s : State) (ch : Nat) : Option BurstSt :=
  if ch < 16384 then
    match rxNewest s (ch / 64) (s.tick + 1) with
    | some r => r.bursts[ch % 64]?
    | none => none
  else (s.port ((ch - 16384) / 2)).bursts[ch % 2]?

def putBurst (s : State) (ch : Nat) (b : BurstSt) : State :=
  if ch < 16384 then
    match rxNewest s (ch / 64) (s.tick + 1) with
    | some r => s.putRx (ch / 64) { r with bursts := r.bursts.set (ch % 64) b }
    | none => s
  else
    let p := (ch - 16384) / 2
    let r := s.port p
    s.setPort p { r with bursts := r.bursts.set (ch % 2) b }

/-- BURST_MUTE_END: 8,192 samples have passed since the last burst. -/
def doBurstMuteEnd (ch : Nat) (s : State) : State :=
  match burstOf s ch with
  | none => s
  | some b =>
    let t := b.last + 8193
    let due := (sampleClk s t).toNat
    if b.muted && b.want == 0 && s.dueOk due && decide (s.str.relT ≤ t) && decide (t ≤ (s.tick + 1) * s.blockLen) then
      let s := releaseUntil t (s.atClk due)
      match burstOf s ch with
      | some b => if b.muted && b.want == 0 then putBurst s ch { b with muted := false, w := 0 } else s
      | none => s
    else if b.muted && b.want == 0 && decide (t < s.str.relT) then putBurst s ch { b with muted := false, w := 0 }
    else s

def execBurstMuteEnd (ch : Nat) (s : State) : Host.Outcome State Fault Refusal := .next (settle (doBurstMuteEnd ch s))

end Sys2Proof.Machine
end

