-- ==== Sys2Proof/Machine/Pilot.lean ====
section
/-! DEFINITION. The identification schedule (R178, R179) and the pilots it adds to outputs (R186, R187). -/

namespace Sys2Proof.Machine

def meaReg (c : Committed) (a : Nat) : Word := c.reg a

/-! ### Schedule -/

/-- Outputs of MEA_ID_LIST, ascending. -/
def identOuts (s : State) (c : Committed) : List Nat :=
  (List.range s.outputs).filter fun o => bit (c.reg (R.meaIdList + o / 32 * 4)) (o % 32)

def micCfg (c : Committed) (m : Nat) : Word := c.reg (R.meaMic + 4 * m)

def identMics (c : Committed) : List Nat := (List.range 32).filter fun m => bit (micCfg c m) 30

/-- The schedule a committed state asks for from block `k`. -/
def identOf (s : State) (c : Committed) (k : Nat) : Option IdentRun :=
  if bit (c.reg R.meaIdCtrl) 0 then
    some
      { start := k
        dwell := max 1 (fld (c.reg R.meaIdDwell) 15 0)
        outs := identOuts s c
        mics := identMics c }
  else none

def IdentRun.subsets (r : IdentRun) : Nat := ceilDiv r.outs.length 64

/-- The schedule that governs block `b`. -/
def identAt (s : State) (b : Nat) : Option IdentRun :=
  match s.mea.runs.find? (fun e => decide (e.1 ≤ b)) with
  | some e => e.2
  | none => none

/-- Dwell in accumulation at block `b`, and its outputs. -/
def IdentRun.dwellAt (r : IdentRun) (b : Nat) : Nat := (b - r.start) / r.dwell

def IdentRun.subset (r : IdentRun) (j : Nat) : List Nat := (r.outs.drop (j % max 1 r.subsets * 64)).take 64

/-! ### Pilot frames (R187) -/

/-- Samples of a frame. -/
def frameLen (s : State) : Nat := if s.rate96 then 360360 else 180180

/-- CRC-6 of ten bits, polynomial x^6 + x + 1. -/
def crc6 (v : Nat) : Nat :=
  (List.range 10).foldl (fun r i =>
    let x := (r / 32 + v / 2 ^ (9 - i)) % 2
    r * 2 % 64 ^^^ (if x = 1 then 3 else 0)) 0

/-- The 22 bits of a frame, first bit first. -/
def frameBits (out : Nat) : List Bool :=
  let v := out % 1024 * 64 + crc6 (out % 1024)
  ((List.range 16).map fun i => v.testBit (15 - i)) ++ List.replicate 6 false

/-- Parity of the bits a generator selects. -/
def parity (g v : Nat) : Bool := (List.range 7).foldl (fun p i => p != (g.testBit i && v.testBit i)) false

/-- The 44 symbols: rate 1/2, constraint length 7, generators 171 and 133 octal. -/
def frameSymbols (out : Nat) : List Bool :=
  ((frameBits out).foldl (fun (st : Nat × List Bool) b =>
    let r := st.1 / 2 + b2n b * 64
    (r, st.2 ++ [parity 0o171 r, parity 0o133 r])) (0, [])).2

/-- Sign of a pilot at sample `i` of its frame. -/
def pilotSign (s : State) (out epoch i : Nat) : Bool :=
  let c := if s.rate96 then i / 2 else i
  let code := (5 * out + epoch) % 4096
  (frameSymbols out).getD (c / 4095) false != Config.pilotChip code (c % 4095)

/-- First and last sample of the frames that lie wholly inside the dwell of block `m`. -/
def frameSpan (s : State) (r : IdentRun) (m : Nat) : Nat × Nat :=
  let L := frameLen s
  let a := (r.start + r.dwellAt m * r.dwell) * s.blockLen
  (ceilDiv a L * L, (a + r.dwell * s.blockLen) / L * L)

/-- Weight of the pilots at the end of block `m`: in and out with the output ramp class. -/
def pilotWeight (s : State) (span : Nat × Nat) (m : Nat) : Int :=
  let M := max 1 (msBlocks (fld (rampClass (s.cmAt m) 1) 13 0))
  let b0 := span.1 / s.blockLen
  let b1 := span.2 / s.blockLen
  let up := min M (m + 1 - b0)
  let down := min M (b1 - m)
  rneDiv (2 ^ 20 * (min up down : Nat)) M

/-- Amplitude at the end of block `m` (R186). -/
def PilotRt.at (p : PilotRt) (m : Nat) : Int :=
  let k := min 150 (m + 1 - p.start)
  p.fromA + rneDiv ((p.toA - p.fromA) * k) 150

/-- The pilot an output carries in block `m`. -/
def pilotBlock (s : State) (m o : Nat) : List Int :=
  let B := s.blockLen
  if !bit ((s.cmAt m).reg R.meaIdCtrl) 1 then zeros B
  else
    match identAt s m with
    | none => zeros B
    | some r =>
      if !(r.subset (r.dwellAt m)).contains o then zeros B
      else
        let span := frameSpan s r m
        let p := tabGetD s.mea.pilots o {}
        let a := rampSamples B (p.at (m - 1)) (p.at m)
        let w := rampSamples B (pilotWeight s span (m - 1)) (pilotWeight s span m)
        ((a.zip w).zipIdx).map fun ((a, w), j) =>
          let t := m * B + j
          if t < span.1 ∨ span.2 ≤ t then 0
          else
            let e := if s.mea.frameEpoch.1 = t / frameLen s then s.mea.frameEpoch.2 else (s.cmAt m).epoch
            let v := rne (a * w) 20
            if pilotSign s o e (t % frameLen s) then v else -v

/-- Note the epoch of the block that holds the first sample of a frame. -/
def noteFrame (m : Nat) (s : State) : State :=
  let f := (m * s.blockLen + s.blockLen - 1) / frameLen s
  if f * frameLen s < m * s.blockLen then s
  else { s with mea := { s.mea with frameEpoch := (f, (s.cmAt m).epoch) } }

/-- Meter the outputs of the subset ahead of their pilots; `x` is each output's feed. -/
def meterPilots (m : Nat) (x : Nat → List Int) (s : State) : State :=
  if !bit ((s.cmAt m).reg R.meaIdCtrl) 1 then s
  else
    match identAt s m with
    | none => s
    | some r =>
      let t := (r.subset (r.dwellAt m)).foldl (fun t o =>
        let p := tabGetD t o {}
        tabSet t o { p with sum := p.sum + sumNat ((x o).map fun v => v.natAbs * v.natAbs) }) s.mea.pilots
      { s with mea := { s.mea with pilots := t } }

end Sys2Proof.Machine
end

