-- ==== Sys2Proof/Machine/OutStage.lean ====
section
/-! DEFINITION. The output stage and the standpipe over one block (R84 to R86), and the egress of a block (R361 to R366). -/

namespace Sys2Proof.Machine

/-! ### Changes of polarity and mode at a commit (R84) -/

def outPol (c : Committed) (o : Nat) : Bool := bit (c.reg (smpOut o)) 17
def outSp (c : Committed) (o : Nat) : Bool := bit (c.reg (smpOut o)) 18
def outMute (c : Committed) (o : Nat) : Bool := bit (c.reg (smpOut o)) 16

/-- Outputs whose stage is not at rest, or whose register differs from its reset value, in two committed states. -/
def outKeys (s : State) (c : Committed) : List Nat :=
  let regs := (c.rwe.filter fun e => decide (R.smpOut ≤ e.1) && decide (e.1 < R.smpOut + 0x1000)).map fun e => (e.1 - R.smpOut) / 4
  (regs ++ s.smp.outs.map (·.1)).dedup

/-- One output at the commit of effective block `k`; `s.cm` is the new state. -/
def outCommit (k : Nat) (s : State) (o : Nat) : State :=
  let r := s.outRt o
  let pol := outPol s.cm o
  let sp := outSp s.cm o
  let fresh : ModeChange :=
    { pol := pol
      sp := sp
      start := k
      due := k + msBlocks (fld (rampClass s.cm 2) 13 0)
      len := routeLen s.cm }
  match r.change with
  | none => if r.pol = pol ∧ r.sp = sp then s else s.setOut o { r with change := some fresh }
  | some c =>
    if c.pol = pol ∧ c.sp = sp then s
    else
      match c.sw with
      | none => s.setOut o { r with change := some { c with pol := pol, sp := sp } }
      | some _ => s.setOut o { r with
        pol := c.pol
        sp := c.sp
        change := some fresh }

def smpCommit (k : Nat) (s : State) : State := (outKeys s s.cm).foldl (outCommit k) s

/-- Every output is committed muted and its mute ramp ends by block `k` (R285, R384). -/
def allMuted (s : State) (c : Committed) (k : Nat) : Bool :=
  (List.range s.outputs).all (outMute c) &&
  s.smp.outs.all fun e => decide (e.2.mute.toDb = -32768) && e.2.mute.done (k - 1)

/-! ### Standpipe channels (R85, R86) -/

/-- Ramps of the standpipe channels at the block `b` of their render time. -/
def spFollow (b : Nat) (s : State) : State :=
  let c := s.cmAt b
  let keys := (((spEnabled c).map (·.1)) ++ s.smp.sps.map (·.1)).dedup
  keys.foldl (fun s i =>
    let v := c.reg (R.smpSp + 4 * i)
    let src := fld v 14 0
    let out := fld v 24 15
    let code := if bit v 31 then signedOf 16 (fld (c.reg (R.smpSpGain + 4 * i)) 15 0) else -32768
    let old : SpRt := tabGetD s.smp.sps i { src := src, out := out }
    let moved := bit v 31 && (old.src != src || old.out != out)
    let dying := if moved then [{ old with ramp := old.ramp.follow (rampClass c 4) (-32768) b }] else []
    let cur : SpRt := if moved then { src := src, out := out } else old
    let cur := { cur with ramp := cur.ramp.follow (rampClass c 4) code b }
    let ended := decide (code = -32768) && cur.ramp.done (b - 1)
    { s with smp := { s.smp with
      sps := if ended then tabDel s.smp.sps i else tabSet s.smp.sps i cur
      spDying := dying ++ s.smp.spDying.filter fun d => !d.ramp.done (b - 1) } }) s

/-- A standpipe output's input in egress block `m`, with the 20 fraction bits of its gains. -/
def spInput (s : State) (m o : Nat) : List Int :=
  let B := s.blockLen
  let chans := ((s.smp.sps.map (·.2)) ++ s.smp.spDying).filter (·.out == o)
  let one (c : SpRt) : List Int :=
    let g := rampSamples B (c.ramp.at m) (c.ramp.at (m + 1))
    let buf := tabGetD s.smp.spBuf c.src []
    (g.zipIdx).map fun (g, j) => g * ((buf.find? (·.1 == m * B + j)).map (·.2)).getD 0
  chans.foldl (fun acc c => (acc.zip (one c)).map fun (a, b) => a + b) (zeros B)

/-! ### The output stage of block `m` (R84) -/

/-- The recovery hold still stands in block `m` (R122). -/
def recHeld (s : State) (m : Nat) : Bool :=
  match s.cmd.recRelease with
  | some k => decide (m < k)
  | none => true

/-- The output is held or muted in block `m`. -/
def outClosed (s : State) (m o : Nat) (r : OutRt) : Bool :=
  let rendered := !r.spAt m
  let held := (s.smp.primeHold.find? (·.1 == m)).any fun e => e.2.contains o
  let cor := match (s.cor o).supp with
    | .down | .hold => true
    | .open_ | .rampIn => false
  let change := match r.change with
    | some c => decide (c.start ≤ m) && (match c.sw with
      | some w => decide (m < w)
      | none => true)
    | none => false
  let chain := match tabGet s.ecIo.outChg o with
    | some e => decide (e.1 ≤ m)
    | none => false
  outMute (s.cmAt m) o || (s.cmd.recHold.contains o && recHeld s m) || change || chain ||
  (rendered && (held || (tabGet s.cmd.coefHold o).isSome || cor))

/-- Input of a rendered output: correction, or the last of its inserts (R229). -/
def renderedInput (s : State) (m o : Nat) : List Int :=
  let B := s.blockLen
  match (outChain s o).getLast? with
  | some i => if m < chainDelay s o then zeros B else (ecOutOf s i.core o (m - chainDelay s o)).getD (zeros B)
  | none => match s.smp.corOut.find? (·.1 == m) with
    | some e => tabGetD e.2 o (zeros B)
    | none => zeros B

/-- Weight of a whole block after a load shed or a thermal trip begins at block `a` (R483, R490). -/
def shedWeight (B : Nat) (a : Option Nat) (m : Nat) (xs : List Int) : List Int :=
  match a with
  | none => xs
  | some k => if m < k then xs else if m = k then xs.zipIdx.map fun (x, j) => rneDiv (x * (B - 1 - j : Nat)) B else zeros B

/-- One output in block `m`. -/
def outOne (m : Nat) (s : State) (o : Nat) : OutRt × List Int :=
  let B := s.blockLen
  let c := s.cmAt m
  let r := s.outRt o
  let sp := r.spAt m
  let trim := r.trim.follow (rampClass c 1) (signedOf 16 (fld (c.reg (smpOut o)) 15 0)) m
  let mute := r.mute.follow (rampClass c 2) (if outClosed s m o r then -32768 else 0) m
  let gt := rampSamples B (trim.at (m - 1)) (trim.at m)
  let gm := rampSamples B (mute.at (m - 1)) (mute.at m)
  let own := if sp then spInput s m o else renderedInput s m o
  let pilot := pilotBlock s m o
  let xs := (own.zip pilot).map fun (x, p) => x + (if sp then p * 2 ^ 20 else p)
  let drop := if sp then 60 else 40
  let sign : Int := if r.polAt m then -1 else 1
  let ys := ((xs.zip (gt.zip gm))).map fun (x, t, g) => sat32 (rne (sign * x * t * g) drop)
  let ys := if sp then ys else shedWeight B s.pwr.shedAt m ys
  let ys := shedWeight B s.pwr.tripAt m ys
  let fin := match r.change with
    | some ch => (match ch.sw with
      | some w => decide (w ≤ m)
      | none => false)
    | none => false
  ({ r with
    trim := trim
    mute := mute
    pol := r.polAt m
    sp := sp
    change := if fin then none else r.change }, ys)

/-- Cores that still run deliver their buffers as they stand. -/
def takeRunning (s : State) : State :=
  ((s.ecIo.outIns.map (·.core)).dedup).foldl (fun s c =>
    let e := s.ec c
    if (e.mode == .running || e.mode == .handler) && e.tick == s.tick &&
        !(s.ecIo.outs.any fun x => x.core == c && x.tick == e.tick) then takeOut c false s else s) s

/-- The output stage over egress block `m`. -/
def outBlock (m : Nat) (s : State) : State :=
  let s := noteFrame m (spFollow (m + 1) (takeRunning s))
  let s := meterPilots m (fun o => if (s.outRt o).spAt m then (spInput s m o).map fun x => rne x 20 else renderedInput s m o) s
  let r := (outKeys s (s.cmAt m)).foldl (fun (s, (t : Tab (List Int))) o =>
    let y := outOne m s o
    (s.setOut o y.1, if y.2.all (· == 0) then t else tabSet t o y.2)) (s, [])
  let s := r.1
  { s with smp := { s.smp with
    outBuf := ((m, r.2) :: s.smp.outBuf).take 8
    primeHold := s.smp.primeHold.filter fun e => decide (m < e.1) } }

/-- The stored samples of an output in the newest egress block. -/
def outNow (s : State) (o : Nat) : List Int :=
  match s.smp.outBuf with
  | e :: _ => tabGetD e.2 o (zeros s.blockLen)
  | [] => zeros s.blockLen

/-! ### Transmit streams (R361 to R366, R456) -/

/-- The device sends packets at all: not silent in its pair, not out of step in its gang, not stopped by a trip. -/
def sending (s : State) (m : Nat) : Bool :=
  let st := mirSt s
  (st == 0 || st == 2 || st == 3) && s.field R.nylGangState 26 24 != 3 && (match s.pwr.tripAt with
    | some k => decide (m ≤ k + 8)
    | none => true)

/-- Red and blue leg of a descriptor are sent (R364, R456). -/
def legsOn (s : State) (d : List Word) : Bool × Bool :=
  let st := mirSt s
  let home := s.bit R.mirState 5
  let both := st == 0 || (st == 3 && s.bit R.mirCtrl 1)
  let sel := match fld (wAt d 2) 17 16 with
    | 0 => (both || home, both || !home)
    | 1 => (true, false)
    | 2 => (false, true)
    | _ => (true, true)
  (redEn d && sel.1, blueEn d && sel.2)

/-- Descriptor and mask that apply from a sample time. -/
def txAt {α : Type} (l : List (Nat × α)) (t : Nat) (d : α) : α := ((l.find? fun e => decide (e.1 ≤ t)).map (·.2)).getD d

/-- Sample of a channel stored to the stream's format (R361). -/
def txStore (f : Nat) (x : Int) : Int := if f = 1 then satS 16 (rne x 16) else satS 24 (rne x 8)

/-- The samples of block `m` that the stream carries: weights and rows move on (R365). -/
def txRows (s : State) (m : Nat) (r : TxRt) : TxRt :=
  let B := s.blockLen
  let d0 := txAt r.descs (m * B + B) []
  let S := descS s d0
  let xs := (List.range (descCh d0)).map fun c => outNow s (txBase d0 + c)
  (List.range B).foldl (fun r j =>
    let t := m * B + j
    let r0 := t / S * S
    let open_ := decide (r.start * B ≤ r0) && (match r.stop with
      | some k => decide (r0 + S ≤ k * B)
      | none => true)
    if open_ then
      let mask := txAt r.masks r0 0
      let w := r.w.zipIdx.map fun (w, c) => if mask.testBit c then w - 1 else min 32 (w + 1)
      let row := (xs.zip w).map fun (x, w) => txStore (descFmt d0) (weigh32 (x.getD j 0) w)
      { r with w := w, rows := r.rows ++ [(t, row)], newest := r.newest ++ [row] }
    else r) { r with newest := [] }

/-- Bytes of one stored sample, most significant first. -/
def txBytes (f : Nat) (x : Int) : List Byte := if f = 1 then beBytes 2 (bitsOf 16 x) else beBytes 3 (bitsOf 24 x)

/-- RTP packet of the rows from `r0` on (R363). -/
def rtpPacket (s : State) (d : List Word) (r0 : Nat) (rows : List (List Int)) : List Byte :=
  let seq := (fld (wAt d 8) 15 0 + r0 / descS s d) % 65536
  let ts := bitsOf 32 ((r0 : Int) + (wAt d 9).toInt)
  beBytes 1 0x80 ++ beBytes 1 (fld (wAt d 1) 6 0) ++ beBytes 2 seq ++ beBytes 4 ts ++ beBytes 4 (wAt d 7).toNat ++
  rows.flatMap fun row => row.flatMap (txBytes (descFmt d))

def txDropped (s : State) (slot : Nat) : State := strEvt (s.inc (txReg slot 0xC)) 7

/-- One leg of a packet. -/
def sendLeg (slot : Nat) (d : List Word) (red : Bool) (rtp : List Byte) (s : State) : State :=
  let p := if red then redPort d else bluePort d
  let dst := (wAt d (if red then 3 else 5)).toNat
  let ports := wAt d (if red then 4 else 6)
  if !(portUp s p && portEn s p) then txDropped s slot
  else
    match macFor s p dst with
    | none => txDropped s slot
    | some mac =>
      let vid := portVid s p
      let pcp := fld (portVlan s p) 14 12
      let ip := udpPacket (fld (wAt d 1) 29 24 * 4) (fld (wAt d 1) 23 16) (portIp s p) dst (fld ports 31 16) (fld ports 15 0) rtp
      txQueue (s.inc (txReg slot (if red then 4 else 8))) p (if vid = 0 then 0 else pcp) (ethFrame mac (portMac s p) vid pcp 0x0800 ip)

/-- Queue the packet that starts at `r0`. -/
def sendPacket (m slot : Nat) (r : TxRt) (r0 : Nat) (rows : List (List Int)) (s : State) : State :=
  let d := txAt r.descs r0 []
  let mask := txAt r.masks r0 0
  let on := if sending s m then legsOn s d else (false, false)
  if !on.1 && !on.2 then s
  else
    let rtp := rtpPacket s d r0 rows
    let s := if on.1 then sendLeg slot d true rtp s else s
    let s := if on.2 then sendLeg slot d false rtp s else s
    let s := s.setNat64 (txReg slot 0x10) mask
    (s.setNat (txReg slot 0x18) ((fld (wAt d 8) 15 0 + r0 / descS s d) % 65536)).setNat (txReg slot 0x1C)
      (bitsOf 32 ((r0 : Int) + (wAt d 9).toInt))

/-- One stream over egress block `m`: rows, then every packet whose last sample they hold. -/
def txBlock (m slot : Nat) (s : State) (r : TxRt) : State × TxRt :=
  let r := txRows s m r
  let B := s.blockLen
  let S := descS s (txAt r.descs (m * B + B) [])
  (List.range (r.rows.length / S)).foldl (fun (s, r) _ =>
    let r0 := ((r.rows.head?).map (·.1)).getD 0
    (sendPacket m slot r r0 ((r.rows.take S).map (·.2)) s, { r with rows := r.rows.drop S })) (s, r)

/-- A deleted stream has sent its last packet. -/
def TxRt.over_ (r : TxRt) (B m : Nat) : Bool :=
  match r.stop with
  | some k => decide (k * B ≤ (m + 1) * B)
  | none => false

def txEgress (m : Nat) (s : State) : State :=
  s.str.tx.foldl (fun s (slot, l) =>
    let a := l.foldl (fun (s, l) r =>
      let y := txBlock m slot s r
      (y.1, l ++ [y.2])) (s, [])
    a.1.setTxs slot (a.2.filter fun r => !r.over_ s.blockLen m)) s

/-- E of R362. -/
def egressSamples (s : State) : Nat := if s.rate96 then 14 else 7

/-- Egress block `m` completes (R361, R362): output stage, packets and DOUT. -/
def egressBlock (m : Nat) (s : State) : State :=
  let s := outBlock m s
  let s := txEgress m s
  let mute := !(sending s m)
  sapEgress m mute (outNow s) s

/-! ### Digests (R458) -/

/-- CRC of a stream's stored samples of the block, channel-interleaved. -/
def streamCrc (s : State) (m : Nat) (r : TxRt) : Nat :=
  let d := txAt r.descs (m * s.blockLen + s.blockLen) []
  crc32c (r.newest.flatMap fun row => row.flatMap (txBytes (descFmt d)))

/-- Digest of egress block `m`: epoch, tick, live slots, CRCs of the streams, CRC of the outputs, self-check. -/
def digestOf (s : State) (m : Nat) : List Nat :=
  let live := s.str.tx.filter fun e => e.2.any (·.live s.tick)
  let crcs := live.map fun e => match e.2 with
    | r :: _ => streamCrc s m r
    | [] => 0
  let outs := crc32c ((List.range s.outputs).flatMap fun o => (outNow s o).flatMap fun x => bytesOfWord (wdI x))
  [(s.cmAt m).epoch, m, sumNat (live.map fun e => 2 ^ e.1), b2n s.cis.selfOk, outs] ++ crcs

/-! ### Views (R376) -/

def txStateRead (s : State) (slot : Nat) : Word :=
  match (s.txs slot).find? (·.live s.tick) with
  | none => 0
  | some r =>
    let d := txAt r.descs (s.tick * s.blockLen) []
    let on := if sending s s.tick then legsOn s d else (false, false)
    wd (descCh d * 65536 + b2n on.2 * 4 + b2n on.1 * 2 + 1)

/-- OP_STR_STATUS (R375): words +0x00 to +0x24 of a slot. -/
def strStatusOp (p : List Byte) (s : State) : State × Res :=
  if p.length = 4 ∧ fld (slotWord p) 31 9 = 0 then
    let slot := slotOf p
    let tx := bit (slotWord p) 8
    let first := if tx then txStateRead s slot else rxStateRead s slot
    (s, resWords (first :: (List.range 9).map fun i => s.reg ((if tx then txReg slot 4 else rxReg slot 4) + 4 * i)))
  else (s, resErr stBadParam)

/-- OP_SAP_STATUS (R433): +0x10 to +0x30 of a port. -/
def sapStatusOp (p : List Byte) (s : State) : State × Res :=
  let w := wAt (wordsOf p) 0
  if p.length = 4 ∧ fld w 31 5 = 0 then
    (s, resWords ((List.range 9).map fun i => s.reg (sapReg w.toNat (0x10 + 4 * i))))
  else (s, resErr stBadParam)

end Sys2Proof.Machine
end

