-- ==== Sys2Proof/Machine/Restart.lean ====
section
/-! DEFINITION. Restart of the render tick at the first boundary of a new time (R384). Block and tick numbers of the old time mean
nothing in the new one, so every ramp, fade and switch that was under way when the tick stopped stands at its end. -/

namespace Sys2Proof.Machine

/-- A ramp that has ended. -/
def Ramp.still (r : Ramp) : Ramp := { r with fromG := r.toG, start := 0, len := 0 }

def ObjRt.still (r : ObjRt) : ObjRt :=
  { r with
    gain := r.gain.still
    rule := 0
    held := false
    primed := []
    pw := r.pw.still
    hwOld := none }

def Leg.still (l : Leg) : Leg := { obj := l.obj, out := l.out, kind := .plain, start := 0, len := 0 }

def stillGeo (g : GeoSt) : GeoSt :=
  { g with
    rts := g.rts.map fun e => (e.1, e.2.still)
    legs := (g.legs.filter fun l => l.kind != .xfOut).map Leg.still
    rules := []
    slots := [] }

def OutRt.still (r : OutRt) : OutRt :=
  { r with
    trim := r.trim.still
    mute := r.mute.still
    pol := (r.change.map (·.pol)).getD r.pol
    sp := (r.change.map (·.sp)).getD r.sp
    change := none }

def stillSmp (m : SmpSt) : SmpSt :=
  { dins := m.dins.map fun e => (e.1, e.2.still)
    xps := (m.xps.filter fun x => x.ramp.toDb != -32768).map fun x => { x with ramp := x.ramp.still }
    autos := m.autos.map fun e => (e.1, { e.2 with fromS := e.2.toS, start := 0 })
    outs := m.outs.map fun e => (e.1, e.2.still)
    sps := m.sps.map fun e => (e.1, { e.2 with ramp := e.2.ramp.still }) }

def stillCor (B : Nat) (r : CorRt) : CorRt :=
  let r := match r.pend with
    | some c => (takeOver B 0 r c).1
    | none => r
  { r with
    fade := none
    queued := none
    active := if r.queued.isSome then !r.active else r.active
    supp := .open_
    loads := r.loads.map fun l => { l with blk := l.blk.map fun _ => 0 }
    swaps := r.swaps.map fun (_, b, n, lin) => (0, b, n, lin)
    hist := []
    pdHist := [] }

def stillEc (e : EcCore) : EcCore :=
  { e with
    startTick := e.startTick.map fun _ => 0
    stopDue := e.stopDue.map fun _ => 0
    stopAt := e.stopAt.map fun _ => 0
    ramp := e.ramp.still
    params := e.params.map fun p => (0, p.2) }

def stillEcIo (x : EcIo) : EcIo :=
  { x with
    objRoute := x.objRoute.map fun e => (e.1, (e.2.take 1).map fun r => (0, r.2))
    objGate := []
    outChg := x.outChg.map fun e => (e.1, (0, 0))
    hw := []
    outs := [] }

def stillRx (r : RxRt) : RxRt :=
  { r with
    descs := (r.descs.take 1).map fun e => (0, e.2)
    start := 0
    pkts := []
    decided := []
    waits := [] }

def stillTx (r : TxRt) : TxRt :=
  { r with
    descs := (r.descs.take 1).map fun e => (0, e.2)
    masks := (r.masks.take 1).map fun e => (0, e.2)
    start := 0
    rows := []
    newest := [] }

def stillStr (n B : Nat) (x : StrSt) : StrSt :=
  { x with
    rx := x.rx.map fun e => (e.1, (e.2.filter (·.stop.isNone)).map stillRx)
    tx := x.tx.map fun e => (e.1, (e.2.filter (·.stop.isNone)).map stillTx)
    relT := n * B
    winTick := 0 }

/-- Every well is born at block `b`. -/
def rebirth (b : Nat) (c : Committed) : Committed := { c with wells := c.wells.map fun e => (e.1, { e.2 with birth := b }) }

/-- The tick starts at boundary `n`: block `n` + 1 is the first whose samples are released. -/
def restartTick (n : Nat) (s : State) : State :=
  let B := s.blockLen
  let cm := rebirth (n + 1) s.cm
  let s := s.atClk (s.boundaryClk n)
  let cors := s.cors.map fun e => (e.1, stillCor B e.2)
  let ecs := s.ecs.map fun e => (e.1, stillEc e.2)
  let txns := s.cmd.txns.map fun t =>
    if t.phase == .admitted || t.phase == .refused then { t with boundary := n } else t
  let s := { s with
    tick := n
    tickClk := s.boundaryClk n
    cm := cm
    hist := [(0, cm)]
    geo := stillGeo s.geo
    smp := stillSmp s.smp
    cors := cors
    ecs := ecs
    ecIo := stillEcIo s.ecIo
    str := stillStr n B s.str
    cmd := { s.cmd with txns := txns }
    tim := { s.tim with restart := false } }
  s.setBit R.timState 10 true

end Sys2Proof.Machine
end

