-- ==== Sys2Proof/Machine/Tim.lean ====
section
/-! DEFINITION. The time unit (chapter 12): sources and states, PTP, path steps, references, triggers and captures. -/

namespace Sys2Proof.Machine

/-! ### Configuration in force (R382, R387, R407, R408) -/

def ptpCfg (c : Committed) (i : Nat) : Word := c.reg (R.timPtpCfg + 4 * i)
def refCfg (c : Committed) (i : Nat) : Word := c.reg (R.timRefCfg + 4 * i)

/-- SOURCE in force: a gang member or the PARTNER of a pair takes its time over the link (R382, R444, R455). -/
def timSource (s : State) : Nat :=
  if s.field R.nylGangState 9 8 = 2 ∨ (inPair s = true ∧ isPref s = false) then 3 else fld (ptpCfg s.mapCm 0) 1 0

def ptpPorts (s : State) : Nat := fld (ptpCfg s.mapCm 2) 3 0

def ptpPortEn (s : State) (p : Nat) : Bool := decide (p < 4) && (ptpPorts s).testBit p

/-- Defaults of a profile: domain, logSyncInterval, logAnnounceInterval, logMinDelayReqInterval (R387). -/
def profDefault (prof : Nat) : Nat × Int × Int × Int :=
  match prof with
  | 0 => (0, 0, 1, 0)
  | 1 => (127, -3, -2, -3)
  | _ => (0, -3, 1, 0)

/-- Ranges of a profile: logSyncInterval, logAnnounceInterval; logMinDelayReqInterval is relative to sync in profile 1. -/
def profRange (prof : Nat) (sync : Int) : (Int × Int) × (Int × Int) × (Int × Int) :=
  match prof with
  | 0 => ((-1, 1), (0, 4), (0, 5))
  | 1 => ((-7, -1), (-3, 1), (sync, sync + 5))
  | _ => ((-4, 1), (0, 4), (-3, 5))

/-- A log interval field: 0x7F takes the default. -/
def logField (w : Word) (lo : Nat) (d : Int) : Int := if fld w (lo + 7) lo = 0x7F then d else signedOf 8 (fld w (lo + 7) lo)

def profOf (c : Committed) : Nat := fld (ptpCfg c 0) 5 4

def ptpDomain (c : Committed) : Nat :=
  let d := fld (ptpCfg c 1) 7 0
  if d = 0xFF then (profDefault (profOf c)).1 else d

def logSync (c : Committed) : Int := logField (ptpCfg c 3) 0 (profDefault (profOf c)).2.1
def logAnn (c : Committed) : Int := logField (ptpCfg c 3) 8 (profDefault (profOf c)).2.2.1

/-- Cycles of 2^n seconds. -/
def logClk (n : Int) : Nat := if n ≥ 0 then 1250000000 * 2 ^ n.toNat else 1250000000 / 2 ^ (-n).toNat

def annClk (c : Committed) : Nat :=
  let n := fld (ptpCfg c 3) 31 24
  (if n = 0 then 3 else n) * logClk (logAnn c)

def syncClk (c : Committed) : Nat :=
  let n := fld (ptpCfg c 4) 7 0
  (if n = 0 then 3 else n) * logClk (logSync c)

/-! ### Staging checks -/

def ptpOk (w : List Word) : Bool :=
  let prof := fld (wAt w 0) 5 4
  let d := profDefault prof
  let sync := logField (wAt w 3) 0 d.2.1
  let r := profRange prof sync
  let inR (v : Int) (q : Int × Int) : Bool := decide (q.1 ≤ v) && decide (v ≤ q.2)
  let ann := fld (wAt w 3) 31 24
  let sto := fld (wAt w 4) 7 0
  let cls := fld (wAt w 5) 7 0
  let dom := fld (wAt w 1) 7 0
  wAt w 0 &&& wd 0x133 == wAt w 0 && fld (wAt w 0) 1 0 != 3 && prof != 3 && fld (wAt w 1) 31 24 == 0 &&
  (dom == 0xFF || decide (dom ≤ 127)) && fld (wAt w 2) 31 4 == 0 && inR sync r.1 && inR (logField (wAt w 3) 8 d.2.2.1) r.2.1 &&
  inR (logField (wAt w 3) 16 (if prof = 1 then sync else d.2.2.2)) r.2.2 && (ann == 0 || decide (2 ≤ ann ∧ ann ≤ 10)) &&
  fld (wAt w 4) 31 8 == 0 && (sto == 0 || decide (2 ≤ sto ∧ sto ≤ 10)) && (cls == 0 || decide (6 ≤ cls ∧ cls ≤ 127)) &&
  fld (wAt w 6) 31 3 == 0 && (List.range 9).all (fun i => wAt w (7 + i) == 0) &&
  !(fld (wAt w 0) 1 0 == 1 && wAt w 2 == 0)

def chkPtp (_ : State) (_ : List Packet) (p : List Byte) : Nat :=
  if p.length = 64 ∧ ptpOk (wordsOf p) = true then stOk else stBadParam

def applyPtp (p : List Byte) (s : State) : State :=
  (List.range 16).foldl (fun s i => { s with cm := s.cm.setReg (R.timPtpCfg + 4 * i) (wAt (wordsOf p) i) }) s

def refOk (s : State) (w : List Word) : Bool :=
  let a := wAt w 0
  fld a 3 2 == 0 && fld a 15 11 == 0 && decide (1 ≤ fld a 23 16 ∧ fld a 23 16 ≤ 100) &&
  decide (1 ≤ fld a 31 24 ∧ fld a 31 24 ≤ 100) && decide (1 ≤ (wAt w 1).toNat ∧ (wAt w 1).toNat ≤ 500000) &&
  fld (wAt w 3) 31 16 == 0 && (!bit a 7 || s.rate96)

def chkRef (s : State) (_ : List Packet) (p : List Byte) : Nat :=
  if p.length = 16 ∧ refOk s (wordsOf p) = true then stOk else stBadParam

def applyRef (p : List Byte) (s : State) : State :=
  let w := wordsOf p
  let s := if bit (wAt w 0) 9 then { s with tim := { s.tim with ppsSec := none } } else s
  (List.range 4).foldl (fun s i => { s with cm := s.cm.setReg (R.timRefCfg + 4 * i) (wAt w i) }) s

/-- R384: a commit that enters ACQUIRE. -/
def acquires (c0 c1 : Committed) : Bool :=
  let src := fld (ptpCfg c1 0) 1 0
  src != 0 && (src != fld (ptpCfg c0 0) 1 0 || fld (ptpCfg c0 2) 3 0 != fld (ptpCfg c1 2) 3 0 || ptpDomain c0 != ptpDomain c1 ||
    fld (refCfg c0 0) 1 0 != fld (refCfg c1 0) 1 0)

/-- R384: it must find every output muted. -/
def acquireBad (s : State) (c0 c1 : Committed) (k : Nat) : Bool := acquires c0 c1 && !allMuted s c1 k

/-! ### TIM_INCR (R378, R379, R398) -/

def incrMin : Nat := 0xCCCCB1F4DA
def incrMax : Nat := 0xCCCCE7A4C0
def incrNom : Nat := 0xCCCCCCCCCD

def timIncr (s : State) : Nat := s.regNat R.timIncrLo + s.regNat R.timIncrHi * 2 ^ 32
def timHold (s : State) : Nat := s.regNat R.timHoldLo + s.regNat R.timHoldHi * 2 ^ 32

/-- The firmware owns TIM_INCR. -/
def fwServo (s : State) : Bool := !s.bit R.timCtrl 0

/-- The firmware sets TIM_INCR; with SERVO = 1 it never writes it. -/
def setIncr (s : State) (v : Nat) : State := if fwServo s then s.setNat64 R.timIncrLo v else s

/-- One step of the servo: within the slew limit of TIM_HOLD, in ACQUIRE within the range of the register. -/
def servoStep (s : State) : State :=
  let d := s.draw
  let lim : Int := if s.field R.timState 2 0 = 1 then incrMax - incrNom else 880 * (max 1 (s.field R.timSlewMax 6 0) : Nat)
  let mid : Int := if s.field R.timState 2 0 = 1 then incrNom else timHold s
  setIncr d.2 (clampInt incrMin incrMax (mid + clampInt (-lim) lim (Config.servo d.1))).toNat

/-- TIM_HOLD follows LOCKED. -/
def noteIncr (s : State) : State :=
  let l := ((s.clk, timIncr s) :: s.tim.incrs).filter fun e => decide (s.clk ≤ e.1 + 75000000000)
  ({ s with tim := { s.tim with incrs := l } }).setNat64 R.timHoldLo (rneDiv (sumNat (l.map fun (e : Nat × Nat) => e.2) : Nat) l.length).toNat

/-- TIM_INCR_WRITE: a write to TIM_INCR_LO applies both halves. -/
def doTimIncrWrite (val : Word) (s : State) : State :=
  let v := val.toNat + s.field R.timIncrHi 15 0 * 2 ^ 32
  if fwServo s then s.evt R.timEvtStatus 12
  else if incrMin ≤ v ∧ v ≤ incrMax then s.setReg R.timIncrLo val
  else s.evt R.timEvtStatus 12

def execTimIncrWrite (val : Word) (s : State) : Host.Outcome State Fault Refusal := .next (settle (doTimIncrWrite val s))

/-- A write to TIM_INCR_HI waits for the write to TIM_INCR_LO. -/
def incrHiWrite (val : Word) (s : State) : State :=
  if fwServo s then s.evt R.timEvtStatus 12 else s.setReg R.timIncrHi (val &&& 0xFFFF)

/-! ### States (R383, R384) -/

def tSt (s : State) : Nat := s.field R.timState 2 0
def timeValid (s : State) : Bool := s.bit R.timState 14
def stepPending (s : State) : Bool := s.bit R.timState 13

/-- Class announced (R385). -/
def clockClass (s : State) : Nat :=
  match timSource s with
  | 0 => 248
  | 2 =>
    let c := fld (ptpCfg s.mapCm 5) 7 0
    if tSt s = 2 ∨ tSt s = 3 then (if c = 0 then 6 else c) else if tSt s = 4 ∧ s.tim.everLocked = true then 7 else 248
  | _ => 255

/-- Fields of TIM_STATE that follow from others. -/
def timView (s : State) : State :=
  let port := if timSource s = 1 then (match s.tim.masters with
      | [] => 15
      | _ => s.field R.timState 7 4) else 15
  let s := (s.setField R.timState 23 16 (clockClass s)).setField R.timState 9 8 (timSource s)
  let s := s.setField R.timState 7 4 port
  s.setBit R.timState 15 (bit (refCfg s.mapCm 0) 8 && !timeValid s)

def setSt (s : State) (v : Nat) : State := s.setField R.timState 2 0 v

/-- Counts of samples start again. -/
def State.tim0 (s : State) : State := { s with tim := { s.tim with
  n1us := 0
  nIn := 0
  nOut := 0
  good := 0
  goodSince := none } }

/-- A new state is entered: its own effects, and counts from zero. -/
def enterTrack (s : State) : State :=
  let s := (setSt s.tim0 2).setBit R.timState 11 false
  if timeValid s then s else { s.setBit R.timState 14 true with tim := { s.tim with restart := true } }

def enterLocked (s : State) : State :=
  let s := { setSt s.tim0 3 with tim := { s.tim0.tim with everLocked := true, holdAt := s.clk } }
  s.evt R.timEvtStatus 2

/-- HOLDOVER, from TRACK or LOCKED (R383, R398). -/
def enterHoldover (s : State) : State :=
  if tSt s = 2 ∨ tSt s = 3 then (setIncr (setSt s.tim0 4) (timHold s)).evt R.timEvtStatus 1 else s

/-- ACQUIRE: the tick stops (R384). -/
def enterAcquire (s : State) : State :=
  let s := setSt s.tim0 1
  let s := ((s.setBit R.timState 14 false).setBit R.timState 10 false).setBit R.timState 13 false
  let s := { s with tim := { s.tim with
    restart := false
    acquireAt := none
    prev := none
    lastOff := none
    path := []
    outP := []
    outO := []
    newP := []
    syncD := none
    follow := none
    dreq := none } }
  timView s

/-- FREE: the stored estimate, or nominal, and the time is valid at once (R382, R383). -/
def enterFree (s : State) : State :=
  let s := setIncr (setSt s.tim0 0) (s.jnl.store.holdIncr.getD incrNom)
  let s := { s with tim := { s.tim with acquireAt := none } }
  let s := if timeValid s then s else { s.setBit R.timState 14 true with tim := { s.tim with restart := true } }
  timView s

/-- At the end of boot (R383, R487). -/
def timStart (s : State) : State := if timSource s = 0 then enterFree s else enterAcquire s

/-- The unit goes from ACQUIRE or HOLDOVER by a commit: at boundary `t` (R384). -/
def timBoundary (t : Nat) (s : State) : State :=
  match s.tim.acquireAt with
  | some b => if b ≤ t then (if timSource s = 0 then enterFree s else enterAcquire s) else s
  | none => timView s

/-- The time unit's part of a commit of effective block `k`. -/
def timCommit (k : Nat) (c0 : Committed) (s : State) : State :=
  if acquires c0 s.cm then { s with tim := { s.tim with acquireAt := some (k + 1) } }
  else if fld (ptpCfg c0 0) 1 0 ≠ 0 ∧ fld (ptpCfg s.cm 0) 1 0 = 0 then { s with tim := { s.tim with acquireAt := some k } }
  else s

/-- Step T by `d` in ns Q24.8 (R384). -/
def stepTime (s : State) (d : Int) : State := { s with tim := { s.tim with base := s.tim.base + d * 5 } }

/-! ### Offset samples (R383, R392, R393) -/

/-- Limits of LOCKED in ns Q24.8: entry and exit (R383, R444). -/
def lockLims (s : State) : Int × Int := if timSource s = 3 then (256, 512) else (25600, 25600)

def absLe (a b : Int) : Bool := decide (-b ≤ a) && decide (a ≤ b)

/-- Samples of HOLDOVER's recovery: 16 for PTP and GANG, 10 s for REF. -/
def recovered (s : State) : Bool :=
  if timSource s = 2 then (match s.tim.goodSince with
    | some c => decide (c + 12500000000 ≤ s.clk)
    | none => false)
  else decide (16 ≤ s.tim.good)

/-- The state rules for one accepted offset sample. -/
def stateRules (off : Int) (s : State) : State :=
  match tSt s with
  | 1 =>
    let s := servoStep s
    if absLe off 256000 then
      let s := { s with tim := { s.tim with n1us := s.tim.n1us + 1 } }
      if 8 ≤ s.tim.n1us then enterTrack s else s
    else stepTime s.tim0 (-off)
  | 2 =>
    let s := servoStep s
    let n := if absLe off (lockLims s).1 then s.tim.nIn + 1 else 0
    let s := { s with tim := { s.tim with nIn := n } }
    if 16 ≤ n then enterLocked s else s
  | 3 =>
    let s := noteIncr (servoStep s)
    let n := if absLe off (lockLims s).2 then 0 else s.tim.nOut + 1
    let s := { s with tim := { s.tim with nOut := n } }
    if 16 ≤ n then setSt s.tim0 2 else s
  | 4 =>
    let s := { s with tim := { s.tim with
      good := s.tim.good + 1
      goodSince := some (s.tim.goodSince.getD s.clk) } }
    if recovered s && !stepPending s && s.tim.prev.isNone then
      (if absLe off 256000000 then enterTrack s
       else if s.bit R.timState 11 then s else (s.setBit R.timState 11 true).evt R.timEvtStatus 3)
    else s
  | _ => s

def stepThresh (s : State) : Int :=
  if timSource s = 3 then s.field R.nylStepThresh 15 0 * 256 / 1000 else s.field R.timStepThresh 15 0 * 256

/-- Freeze at the first outlier (R392): the state to return to is kept. -/
def freeze (s : State) : State :=
  if tSt s = 2 ∨ tSt s = 3 then
    let s' := { s with tim := { s.tim with prev := some (tSt s) } }
    enterHoldover s'
  else s

/-- A run of outliers is discarded when the next sample of its kind is none. -/
def discardRun (s : State) : State :=
  let s := s.inc R.timCntOutlier
  match s.tim.prev with
  | some v => if s.tim.outP.isEmpty && s.tim.outO.isEmpty then
      setSt { s with tim := { s.tim with prev := none } } v else s
  | none => s

/-- Add an outlier to its run: one that breaks agreement starts it anew (R393). -/
def joinOut (run : List Int) (x ref thresh : Int) : List Int :=
  let all := x :: run
  let side := all.all (decide <| ref < ·) || all.all (decide <| · < ref)
  let hi := all.foldl max x
  let lo := all.foldl min x
  if side && decide (hi - lo ≤ thresh) then all else [x]

/-- A step is declared (R393, R445). -/
def declareStep (kind : Bool) (s : State) : State :=
  let s := (s.setBit R.timState 13 true).setBit R.timState 12 kind
  let s := { s with tim := { s.tim with prev := none, newP := [] } }
  let s := s.evt R.timEvtStatus 0
  if timSource s = 3 then s.evt R.nylEvtStatus 1 else s

/-- One offset sample in ns Q24.8. -/
def offsetSample (off : Int) (s : State) : State :=
  let s := s.setReg R.timOffset (wdI off)
  let out := match s.tim.lastOff with
    | some p => tSt s != 1 && !absLe (off - p) (stepThresh s)
    | none => false
  if out && !stepPending s then
    let run := joinOut s.tim.outO off (s.tim.lastOff.getD 0) (stepThresh s)
    let s := freeze { s with tim := { s.tim with outO := run } }
    if 4 ≤ run.length ∧ s.tim.outP.isEmpty = true then declareStep true s else s
  else if out then s
  else
    let had := !s.tim.outO.isEmpty
    let s := { s with tim := { s.tim with lastOff := some off, outO := [] } }
    let s := if had && !stepPending s then discardRun s else s
    stateRules off s

/-- Mean of a list, rounded. -/
def meanOf (l : List Int) : Int := if l.isEmpty then 0 else rneDiv (sumInt l) l.length

/-- One path sample in ns Q24.8 (R390, R392, R393). -/
def pathSample (m : Int) (s : State) : State :=
  let mpd : Int := s.regNat R.timMpd
  let accept (s : State) : State :=
    let l := (m :: s.tim.path).take 16
    ({ s with tim := { s.tim with path := l } }).setReg R.timMpd (wdI (meanOf l))
  if tSt s = 1 ∨ s.tim.path.isEmpty = true then accept s
  else if stepPending s then
    if s.bit R.timState 12 then s
    else
      let l := m :: s.tim.newP
      ({ s with tim := { s.tim with newP := l } }).setReg R.timMpdNew (wdI (meanOf l))
  else if absLe (m - mpd) (stepThresh s) then
    let had := !s.tim.outP.isEmpty
    let s := { s with tim := { s.tim with outP := [] } }
    accept (if had then discardRun s else s)
  else
    let run := joinOut s.tim.outP m mpd (stepThresh s)
    let s := freeze { s with tim := { s.tim with outP := run } }
    if 4 ≤ run.length then (declareStep false s).setReg R.timMpdNew (wdI (meanOf run)) else s

/-- Mean path delay that offsets use: the new one while a path step is pending. -/
def mpdNow (s : State) : Int :=
  if stepPending s && !s.bit R.timState 12 then (s.regNat R.timMpdNew : Int) else (s.regNat R.timMpd : Int)

def asymNow (s : State) : Int := (s.reg R.timAsym).toInt

/-! ### OP_TIM_PATH_ACCEPT (R394) -/

def chkPathAccept (_ : State) (_ : List Packet) (p : List Byte) : Nat :=
  let w := wordsOf p
  if p.length = 8 ∧ fld (wAt w 0) 31 1 = 0 ∧ -100000 ≤ (wAt w 1).toInt ∧ (wAt w 1).toInt ≤ 100000 then stOk else stBadParam

def pathAcceptBad (s : State) : Bool := !stepPending s

/-- It acts at its commit boundary. -/
def applyPathAccept (p : List Byte) (s : State) : State :=
  let w := wordsOf p
  let s := if s.bit R.timState 12 then s
    else ({ s with tim := { s.tim with path := [(s.regNat R.timMpdNew : Int)] } }).setReg R.timMpd (s.reg R.timMpdNew)
  let s := if bit (wAt w 0) 0 then s.setReg R.timAsym (wdI ((wAt w 1).toInt * 256)) else s
  let s := s.setBit R.timState 13 false
  let s := { s with tim := { s.tim with
    outP := []
    outO := []
    newP := []
    lastOff := none
    prev := none } }
  let off := match s.tim.syncD with
    | some d => d - (mpdNow s + asymNow s)
    | none => (s.reg R.timOffset).toInt
  let s := s.setReg R.timOffset (wdI off)
  if absLe off 256000000 then enterTrack s else (s.setBit R.timState 11 true).evt R.timEvtStatus 3

/-! ### PTP as slave (R386, R389, R390) -/

/-- Nanoseconds Q24.8 between two quarter-nanosecond times, less a correction in 2^-16 ns. -/
def diff8 (a b corr : Int) : Int := rneDiv ((a - b) * 16384 - corr) 256

/-- EUI-64 of the device (R385): NET0's MAC with 0xFFFE inserted; octet 0 most significant. -/
def clockId (s : State) : Nat :=
  let m := leBytes 6 (portMac s 0)
  beNat (m.take 3 ++ [0xFF, 0xFE] ++ m.drop 3)

/-- The dataset comparison: first by priority1, class, accuracy, variance, priority2 and identity, then by steps and sender. -/
def ptpRank (m : PtpMsg) : List Nat := [m.prio1, m.cls, m.acc, m.variance, m.prio2, m.gmId, m.steps, m.srcId, m.srcPort]

def lexLt : List Nat → List Nat → Bool
  | a :: s, b :: t => if a = b then lexLt s t else decide (a < b)
  | _, _ => false

def ptpBetter (a b : PtpMsg) : Bool := lexLt (ptpRank a) (ptpRank b)

/-- Best master heard: port and Announce. -/
def bestMaster (s : State) : Option (Nat × PtpMsg) :=
  s.tim.masters.foldl (fun (acc : Option (Nat × PtpMsg)) (e : Nat × (PtpMsg × Nat)) =>
    match acc with
    | none => some (e.1, e.2.1)
    | some q => if ptpBetter e.2.1 q.2 then some (e.1, e.2.1) else acc) none

/-- After the set of masters has changed: slave port, grandmaster identity and its event. -/
def chooseMaster (s : State) : State :=
  match bestMaster s with
  | none => s.setField R.timState 7 4 15
  | some (p, m) =>
    let old := s.regNat R.timGmIdLo + s.regNat R.timGmIdHi * 2 ^ 32
    let s := ((s.setField R.timState 7 4 p).setNat R.timGmIdLo (m.gmId % 2 ^ 32)).setNat R.timGmIdHi (m.gmId / 2 ^ 32)
    if old = m.gmId then s else s.evt R.timEvtStatus 4

/-- The device serves time on a port (R382). -/
def servesTime (s : State) (p : Nat) : Bool :=
  (timSource s == 0 || timSource s == 2) && ptpPortEn s p && !s.tim.passive.contains p && timeValid s && portUp s p

/-- Own dataset (R385). -/
def ownDataset (s : State) : PtpMsg :=
  let c := s.mapCm
  let locked := timSource s = 2 && (tSt s == 2 || tSt s == 3)
  let hold := timSource s = 2 && tSt s == 4 && s.tim.everLocked
  { srcId := clockId s
    domain := ptpDomain c
    gmId := clockId s
    prio1 := fld (ptpCfg c 1) 15 8
    prio2 := fld (ptpCfg c 1) 23 16
    cls := clockClass s
    acc := if locked then 0x21 else if hold then 0x23 else 0xFE
    variance := if locked then 0x4E5D else if hold then 0x5A00 else 0xFFFF }

/-- Message types of IEEE 1588. -/
def ptpSync : Nat := 0
def ptpDelayReq : Nat := 1
def ptpFollowUp : Nat := 8
def ptpDelayResp : Nat := 9
def ptpAnnounce : Nat := 11

/-- ANNOUNCE_RECEIVE (R386, R391). -/
def doAnnounceReceive (m : PtpMsg) (s : State) : State :=
  if !(ptpPortEn s m.port && m.domain == ptpDomain s.mapCm && portUp s m.port) then s
  else if timSource s = 1 then
    let old := tabGet s.tim.masters m.port
    let take := match old with
      | none => true
      | some (q, _) => (q.srcId == m.srcId && q.srcPort == m.srcPort) || ptpBetter m q
    if take then chooseMaster { s with tim := { s.tim with
      masters := tabSet s.tim.masters m.port (m, s.clk + annClk s.mapCm) } } else s
  else if timSource s = 3 then s
  else if ptpBetter m { ownDataset s with srcPort := m.port + 1 } then
    let s' := { s with tim := { s.tim with
      masters := tabSet s.tim.masters m.port (m, s.clk + annClk s.mapCm)
      passive := (m.port :: s.tim.passive).dedup } }
    if s.tim.passive.contains m.port then s' else s'.evt R.timEvtStatus 4
  else s

def execAnnounceReceive (m : PtpMsg) (s : State) : Host.Outcome State Fault Refusal :=
  .next (settle (timView (doAnnounceReceive m s)))

/-- A message comes from the master in use. -/
def fromMaster (s : State) (m : PtpMsg) : Bool :=
  timSource s == 1 && ptpPortEn s m.port && m.domain == ptpDomain s.mapCm && (match bestMaster s with
    | some (p, b) => p == m.port && b.srcId == m.srcId && b.srcPort == m.srcPort
    | none => false)

/-- A complete Sync: t2 - t1 in ns Q24.8. -/
def syncDone (d : Int) (s : State) : State :=
  let s := { s with tim := { s.tim with syncD := some d } }
  offsetSample (d - (mpdNow s + asymNow s)) s

/-- SYNC_RECEIVE. -/
def doSyncReceive (m : PtpMsg) (s : State) : State :=
  if fromMaster s m then
    let s := { s with tim := { s.tim with syncDue := some (s.clk + syncClk s.mapCm) } }
    if m.twoStep then { s with tim := { s.tim with
      follow := some (m.port, m.seq, m.srcId * 65536 + m.srcPort, m.rxT4 * 16384 - m.corr) } }
    else syncDone (diff8 m.rxT4 m.t4 m.corr) s
  else s

def execSyncReceive (m : PtpMsg) (s : State) : Host.Outcome State Fault Refusal := .next (settle (timView (doSyncReceive m s)))

/-- FOLLOW_UP_RECEIVE. -/
def doFollowUpReceive (m : PtpMsg) (s : State) : State :=
  match s.tim.follow with
  | none => s
  | some (p, q, src, t2) =>
    if fromMaster s m && p == m.port && q == m.seq && src == m.srcId * 65536 + m.srcPort then
      syncDone (rneDiv (t2 - m.t4 * 16384 - m.corr) 256) { s with tim := { s.tim with follow := none } }
    else s

def execFollowUpReceive (m : PtpMsg) (s : State) : Host.Outcome State Fault Refusal :=
  .next (settle (timView (doFollowUpReceive m s)))

/-- Present time in quarter nanoseconds. -/
def State.t4 (s : State) : Nat := s.t1280 / 320

/-- DELAY_REQ_TRANSMIT: on the slave port. -/
def doDelayReqTransmit (s : State) : State :=
  match bestMaster s with
  | none => s
  | some (p, _) =>
    if timSource s = 1 ∧ portUp s p = true then
      let n := s.tim.seqOut
      let m : PtpMsg :=
        { port := p
          seq := n % 65536
          t4 := s.t4
          srcId := clockId s
          srcPort := p + 1
          domain := ptpDomain s.mapCm }
      ({ s with tim := { s.tim with seqOut := n + 1, dreq := some (p, n % 65536, (s.t4 : Int)) } }).emit (.ptp p ptpDelayReq m)
    else s

def execDelayReqTransmit (s : State) : Host.Outcome State Fault Refusal := .next (settle (doDelayReqTransmit s))

/-- DELAY_RESP_RECEIVE. -/
def doDelayRespReceive (m : PtpMsg) (s : State) : State :=
  match s.tim.dreq, s.tim.syncD with
  | some (p, q, t3), some d =>
    if fromMaster s m && p == m.port && q == m.seq && m.reqId == clockId s && m.reqPort == p + 1 then
      pathSample (rneDiv (d + diff8 m.t4 t3 m.corr) 2) { s with tim := { s.tim with dreq := none } }
    else s
  | _, _ => s

def execDelayRespReceive (m : PtpMsg) (s : State) : Host.Outcome State Fault Refusal :=
  .next (settle (timView (doDelayRespReceive m s)))

/-! ### PTP as grandmaster (R385, R389) -/

/-- DELAY_REQ_RECEIVE. -/
def doDelayReqReceive (m : PtpMsg) (s : State) : State :=
  if servesTime s m.port && m.domain == ptpDomain s.mapCm then
    let r : PtpMsg :=
      { port := m.port
        seq := m.seq
        t4 := m.rxT4
        corr := m.corr
        srcId := clockId s
        srcPort := m.port + 1
        reqId := m.srcId
        reqPort := m.srcPort
        domain := m.domain }
    s.emit (.ptp m.port ptpDelayResp r)
  else s

def execDelayReqReceive (m : PtpMsg) (s : State) : Host.Outcome State Fault Refusal := .next (settle (doDelayReqReceive m s))

/-- SYNC_TRANSMIT: one-step with its transmit time, or two-step with a Follow_Up. -/
def doSyncTransmit (port : Nat) (s : State) : State :=
  if servesTime s port then
    let two := bit (ptpCfg s.mapCm 0) 8
    let n := s.tim.seqOut
    let m : PtpMsg :=
      { port := port
        seq := n % 65536
        t4 := if two then 0 else s.t4
        srcId := clockId s
        srcPort := port + 1
        twoStep := two
        domain := ptpDomain s.mapCm }
    let s := ({ s with tim := { s.tim with seqOut := n + 1 } }).emit (.ptp port ptpSync m)
    if two then s.emit (.ptp port ptpFollowUp { m with t4 := s.t4, twoStep := false }) else s
  else s

def execSyncTransmit (port : Nat) (s : State) : Host.Outcome State Fault Refusal := .next (settle (doSyncTransmit port s))

/-- ANNOUNCE_TRANSMIT. -/
def doAnnounceTransmit (port : Nat) (s : State) : State :=
  if servesTime s port then
    let n := s.tim.seqOut
    ({ s with tim := { s.tim with seqOut := n + 1 } }).emit
      (.ptp port ptpAnnounce { ownDataset s with port := port, seq := n % 65536, t4 := s.t4, srcPort := port + 1 })
  else s

def execAnnounceTransmit (port : Nat) (s : State) : Host.Outcome State Fault Refusal :=
  .next (settle (doAnnounceTransmit port s))

/-! ### Timeouts (R391) -/

/-- ANNOUNCE_TIMEOUT. -/
def doAnnounceTimeout (port : Nat) (s : State) : State :=
  match tabGet s.tim.masters port with
  | none => s
  | some (_, due) =>
    let due := due + 1
    if s.dueOk due then
      let s := s.atClk due
      let s := { s with tim := { s.tim with
        masters := tabDel s.tim.masters port
        passive := s.tim.passive.filter (· != port) } }
      let s := (s.inc R.timCntAnnTo).evt R.timEvtStatus 5
      if timSource s = 1 then (if s.tim.masters.isEmpty then enterHoldover s else chooseMaster s) else s
    else s

def execAnnounceTimeout (port : Nat) (s : State) : Host.Outcome State Fault Refusal :=
  .next (settle (timView (doAnnounceTimeout port s)))

/-- SYNC_TIMEOUT. -/
def doSyncTimeout (s : State) : State :=
  match s.tim.syncDue with
  | none => s
  | some due =>
    if timSource s = 1 ∧ s.dueOk (due + 1) = true then
      let s := s.atClk (due + 1)
      let s := { s with tim := { s.tim with syncDue := none } }
      enterHoldover ((s.inc R.timCntSyncTo).evt R.timEvtStatus 6)
    else s

def execSyncTimeout (s : State) : Host.Outcome State Fault Refusal := .next (settle (timView (doSyncTimeout s)))

/-! ### Reference inputs (R396, R397, R400) -/

def refSrc (s : State) : Nat := fld (refCfg s.mapCm 0) 1 0

/-- The reference disciplines the clock at present. -/
def refUsed (s : State) (pps : Bool) : Bool :=
  timSource s == 2 && (if pps then refSrc s == 1 || refSrc s == 2 else refSrc s == 1 || refSrc s == 3)

/-- Quarter nanoseconds in a second. -/
def q4 : Nat := 4000000000

/-- PPS window in quarter nanoseconds. -/
def ppsWin (s : State) : Int := (fld (refCfg s.mapCm 0) 31 24 * 400 : Nat)

/-- The PTP second of an edge: counted onward, from TOD at the first edge after the commit, else the nearest. -/
def ppsSecond (s : State) (t4 : Nat) : Nat :=
  match s.tim.ppsSec with
  | some n => if tSt s = 1 then n + 1 else (t4 + q4 / 2) / q4
  | none =>
    if bit (refCfg s.mapCm 0) 9 then (refCfg s.mapCm 2).toNat + fld (refCfg s.mapCm 3) 15 0 * 2 ^ 32 else (t4 + q4 / 2) / q4

/-- PPS_IN_EDGE: `t4` is the edge's time on the device's clock in quarter nanoseconds. -/
def doPpsInEdge (t4 : Nat) (falling : Bool) (s : State) : State :=
  if falling ≠ bit (refCfg s.mapCm 0) 10 then s
  else
    let sec := ppsSecond s t4
    let err : Int := (t4 : Int) - (sec * q4 : Nat)
    let s := s.setReg R.timPpsErr (wdI (err * 64))
    let track := decide (2 ≤ tSt s)
    if refUsed s true && track && !absLe err (ppsWin s) then s
    else
      let s := { s with tim := { s.tim with ppsBad := 0, ppsSec := some sec } }
      let s := (s.setBit R.timRefStatus 4 true).setBit R.timRefStatus 5 (absLe err (ppsWin s))
      if refUsed s true then offsetSample (err * 64) s else s

def execPpsInEdge (t4 : Nat) (falling : Bool) (s : State) : Host.Outcome State Fault Refusal :=
  .next (settle (timView (doPpsInEdge t4 falling s)))

/-- PPS_WINDOW_MISS: the window of the next second has closed without an edge inside it. -/
def doPpsWindowMiss (s : State) : State :=
  match s.tim.ppsSec with
  | none => s
  | some n =>
    let due := s.clkOf (((n + 1) * q4 + (ppsWin s).toNat) * 320) + 1
    if refUsed s true ∧ 2 ≤ tSt s ∧ s.dueOk due = true then
      let s := s.atClk due
      let bad := s.tim.ppsBad + 1
      let s := { s with tim := { s.tim with
        ppsBad := bad
        ppsSec := some (n + 1)
        goodSince := none } }
      let s := (s.inc R.timCntPpsBad).setBit R.timRefStatus 5 false
      if bad = 3 then enterHoldover ((s.setBit R.timRefStatus 4 false).evt R.timEvtStatus 8) else s
    else s

def execPpsWindowMiss (s : State) : Host.Outcome State Fault Refusal := .next (settle (timView (doPpsWindowMiss s)))

/-- REF10M_GATE: a gate has measured REF10M_IN, in ppb Q24.8 against the core clock. -/
def doRef10mGate (ppbQ8 : Int) (s : State) : State :=
  let s := s.setReg R.timRef10mErr (wdI ppbQ8)
  let ok := absLe ppbQ8 (fld (refCfg s.mapCm 0) 23 16 * 25600 : Nat)
  let was := s.bit R.timRefStatus 1
  let s := (s.setBit R.timRefStatus 0 true).setBit R.timRefStatus 1 ok
  let s := if was && !ok then
      let s := s.evt R.timEvtStatus 7
      if refUsed s false then enterHoldover { s with tim := { s.tim with goodSince := none } } else s
    else s
  if ok && timSource s == 2 && refSrc s == 3 then offsetSample 0 s else s

def execRef10mGate (ppbQ8 : Int) (s : State) : Host.Outcome State Fault Refusal :=
  .next (settle (timView (doRef10mGate ppbQ8 s)))

/-- REF10M_LOST: no edge for 1 µs. -/
def doRef10mLost (s : State) : State :=
  if s.bit R.timRefStatus 0 then
    let s := ((s.setBit R.timRefStatus 0 false).setBit R.timRefStatus 1 false).evt R.timEvtStatus 7
    if refUsed s false then enterHoldover { s with tim := { s.tim with goodSince := none } } else s
  else s

def execRef10mLost (s : State) : Host.Outcome State Fault Refusal := .next (settle (timView (doRef10mLost s)))

/-- WCLK_IN_EDGE: phase against the nearest sample start, and rate over the last period. -/
def doWclkInEdge (t4 : Nat) (s : State) : State :=
  let n := (t4 * s.fs + q4 / 2) / q4
  let phase := rneDiv ((t4 * s.fs : Nat) * 64 - (n * q4 : Nat) * 64) s.fs
  let s' := (s.setReg R.timWclkPhase (wdI phase)).setBit R.timRefStatus 8 true
  let s' := { s' with tim := { s'.tim with wclkLast := some t4 } }
  match s.tim.wclkLast with
  | none => s'
  | some p =>
    let d : Int := (t4 : Int) - p
    let ok := absLe ((d * s.fs - q4) * 1000) (d * s.fs)
    let was := s.bit R.timRefStatus 9
    let s' := s'.setBit R.timRefStatus 9 ok
    if was && !ok then s'.evt R.timEvtStatus 9 else s'

def execWclkInEdge (t4 : Nat) (s : State) : Host.Outcome State Fault Refusal := .next (settle (doWclkInEdge t4 s))

/-- WCLK_LOST: no edge for four sample periods. -/
def doWclkLost (s : State) : State :=
  match s.tim.wclkLast with
  | none => s
  | some p =>
    let due := s.clkOf ((p + 4 * q4 / s.fs) * 320) + 1
    if s.bit R.timRefStatus 8 && s.dueOk due then
      let s := (s.atClk due).setBit R.timRefStatus 8 false
      ({ s with tim := { s.tim with wclkLast := none } }).evt R.timEvtStatus 9
    else s

def execWclkLost (s : State) : Host.Outcome State Fault Refusal := .next (settle (doWclkLost s))

/-! ### Triggers (R401 to R404) -/

def trigReg (p off : Nat) : Nat := R.timTrigStat + 0x20 * p + off

def trigOk (w : List Word) : Bool :=
  let a := wAt w 0
  let out := !bit a 8
  let width := fld (wAt w 3) 29 0
  let per := (wAt w 4).toNat
  a &&& wd 0x31FF == a && fld a 13 12 != 3 &&
  (!(out && fld a 5 4 == 1) || decide (8 ≤ width ∧ width ≤ 1000000000)) &&
  (!(out && fld a 5 4 != 0) || per == 0 || bit a 6 || decide (width + 8 ≤ per))

/-- A period in samples is at least WIDTH + 8 ns (R402). -/
def trigPerOk (s : State) (w : List Word) : Bool :=
  let per := (wAt w 4).toNat
  !(bit (wAt w 0) 6 && per != 0) || decide ((fld (wAt w 3) 29 0 + 8) * s.fs ≤ per * 1000000000)

def chkTrig (s : State) (_ : List Packet) (p : List Byte) : Nat := listOk 6 p fun w => trigOk w && trigPerOk s w

/-- Firing `k` in quarter nanoseconds (R402, R403). -/
def trigTime (s : State) (t : Trig) (k : Nat) : Nat :=
  let n := t.t + k * t.period
  if t.samples then (rneDiv (n * q4 : Nat) s.fs).toNat else n * 4 + t.qns

/-- Pin skew in quarter nanoseconds (R401). -/
def pinSkew (s : State) (p : Nat) : Int := signedOf 8 (s.field (R.timPinSkew + 4 * p) 7 0)

/-- Cycle in which an output is driven so that the edge stands at its time at the contacts. -/
def trigClk (s : State) (p q : Nat) : Nat := s.clkOf (((q : Int) - pinSkew s p).toNat * 320)

/-- No firing is left. -/
def Trig.spent (t : Trig) : Bool :=
  if t.period = 0 then decide (1 ≤ t.k) else t.count != 0 && decide (t.count ≤ t.k)

/-- TIM_TRIG registers of a pin (R412). -/
def trigRegs (p : Nat) (dir late : Bool) (s : State) : State :=
  let t : Trig := tabGetD s.tim.trigs p {}
  let left := if t.mode = 0 then 0 else if t.period = 0 then 1 - t.k else if t.count = 0 then 0xFFFF else t.count - t.k
  let st := if t.mode = 0 then 0 else if t.pulseEnd.isSome then 2 else if t.spent then 3 else 1
  let next := if t.mode = 0 ∨ t.spent = true then 0 else t.t + t.k * t.period
  (s.setNat (trigReg p 0) (min left 0xFFFF * 65536 + b2n dir * 256 + b2n late * 16 + st)).setNat64 (trigReg p 4) (next % 2 ^ 64)

def putTrig (p : Nat) (t : Trig) (late : Bool) (s : State) : State :=
  trigRegs p false late { s with tim := { s.tim with trigs := tabSet s.tim.trigs p t } }

/-- A descriptor takes effect at its commit boundary; a pulse under way completes. -/
def applyTrig (p : List Byte) (s : State) : State :=
  (listOf 6 p).foldl (fun s w =>
    let a := wAt w 0
    let pin := fld a 3 0
    let old : Trig := tabGetD s.tim.trigs pin {}
    let s := (s.clear [trigReg pin 0xC, trigReg pin 0x10])
    if bit a 8 then
      trigRegs pin true false { s with tim := { s.tim with
        trigs := tabDel s.tim.trigs pin
        inputs := tabSet s.tim.inputs pin (fld a 13 12) } }
    else
      let t : Trig :=
        { mode := fld a 5 4
          samples := bit a 6
          pol := bit a 7
          t := (wAt w 1).toNat + (wAt w 2).toNat * 2 ^ 32
          qns := fld (wAt w 3) 31 30
          width := fld (wAt w 3) 29 0
          period := (wAt w 4).toNat
          count := fld (wAt w 5) 15 0
          lateMax := fld (wAt w 5) 31 16
          armed := s.clk + 1
          pulseEnd := old.pulseEnd
          high := old.high }
      putTrig pin t false { s with tim := { s.tim with inputs := tabDel s.tim.inputs pin } }) s

/-- Drive a pin. -/
def drivePin (p : Nat) (t : Trig) (s : State) : State × Trig :=
  let high := match t.mode with
    | 1 => !t.pol
    | 2 => true
    | _ => false
  let t := { t with high := high, pulseEnd := if t.mode = 1 then some (s.t4 + t.width * 4) else none }
  ((s.emit (.trig p high)).edge (368 + p), t)

/-- A firing on time. -/
def fireNow (p : Nat) (t : Trig) (s : State) : State :=
  let d := drivePin p t s
  putTrig p { d.2 with k := t.k + 1 } false (d.1.inc (trigReg p 0x10))

/-- Firings at or before the cycle of arming, or before the restart of the tick, are late (R404). -/
def isLate (s : State) (p : Nat) (t : Trig) : Bool :=
  t.mode != 0 && !t.spent && decide (trigClk s p (trigTime s t t.k) ≤ max t.armed s.tickClk) && decide (t.armed ≤ s.clk)

/-- A late firing is driven in the cycle of a tick boundary, or discarded beyond LATE_MAX. -/
def fireLate (p : Nat) (t : Trig) (s : State) : State :=
  let late := ceilDiv ((s.t4 - trigTime s t t.k) * s.fs) q4
  let s := ((s.setNat (trigReg p 0xC) late).inc R.timCntTrigLate).evt R.timEvtStatus 10
  let next := if t.period = 0 then t.k + 1 else
    t.k + 1 + (if trigTime s t (t.k + 1) ≤ s.t4 then
      (if t.samples then (s.t4 * s.fs / q4 - t.t) / t.period - t.k else (s.t4 / 4 - t.t) / t.period - t.k) else 0)
  if t.lateMax ≠ 0xFFFF ∧ t.lateMax < late then
    putTrig p { t with k := if t.period = 0 then next else max next t.count, count := if t.count = 0 then 1 else t.count } true
      (s.inc R.timCntTrigDiscard)
  else
    let d := drivePin p t s
    putTrig p { d.2 with k := next } true (d.1.inc (trigReg p 0x10))

/-- Late firings at a boundary. -/
def trigBoundary (s : State) : State :=
  s.tim.trigs.foldl (fun s (p, t) => if isLate s p t then fireLate p t s else s) s

/-- TRIG_FIRE: the programmed time has come. -/
def doTrigFire (pin : Nat) (s : State) : State :=
  match tabGet s.tim.trigs pin with
  | none => s
  | some t =>
    let due := trigClk s pin (trigTime s t t.k)
    if t.mode ≠ 0 ∧ t.spent = false ∧ s.tickRuns = true ∧ isLate s pin t = false ∧ s.dueOk due = true then
      fireNow pin t (s.atClk due)
    else s

def execTrigFire (pin : Nat) (s : State) : Host.Outcome State Fault Refusal := .next (settle (doTrigFire pin s))

/-- TRIG_PULSE_END: the pin returns to its idle level. -/
def doTrigPulseEnd (pin : Nat) (s : State) : State :=
  match tabGet s.tim.trigs pin with
  | none => s
  | some t =>
    match t.pulseEnd with
    | none => s
    | some q =>
      let due := s.clkOf (q * 320)
      if s.dueOk due then
        let s := (s.atClk due).emit (.trig pin (!t.high))
        putTrig pin { t with pulseEnd := none, high := !t.high } (s.bit (trigReg pin 0) 4) s
      else s

def execTrigPulseEnd (pin : Nat) (s : State) : Host.Outcome State Fault Refusal := .next (settle (doTrigPulseEnd pin s))

/-! ### Captures (R405) -/

def capReg (p off : Nat) : Nat := R.timCapStat + 0x10 * p + off

def State.caps (s : State) (p : Nat) : List CapEdge := tabGetD s.tim.caps p []

def setCaps (s : State) (p : Nat) (l : List CapEdge) : State :=
  ({ s with tim := { s.tim with caps := tabSet s.tim.caps p l } }).setNat (capReg p 0) l.length

/-- An edge on the pin that SNP_PIN selects (R125, R128). -/
def snapPin (p : Nat) (falling : Bool) (s : State) : State :=
  let v := s.reg R.snpPin
  let e := fld v 5 4
  if s.bit R.snpCtrl 0 && bit v 8 && fld v 3 0 == p && (e == 2 || e == b2n falling) then
    { s with snp := { s.snp with pin := true } } else s

/-- TRIG_INPUT_EDGE: `t4` is the edge's time at the pin in quarter nanoseconds. -/
def doTrigInputEdge (pin t4 : Nat) (falling : Bool) (s : State) : State :=
  let s := snapPin pin falling s
  match tabGet s.tim.inputs pin with
  | none => s
  | some e =>
    let t := ((t4 : Int) - pinSkew s pin).toNat
    let short := match tabGet s.tim.lastEdge pin with
      | some q => decide (t4 < q + 16)
      | none => false
    let last := (tabGetD s.tim.lastEdge pin 0 : Nat)
    let s := { s with tim := { s.tim with
      lastEdge := if short then tabDel s.tim.lastEdge pin else tabSet s.tim.lastEdge pin t4 } }
    let q := s.caps pin
    if short then
      let t0 := ((last : Int) - pinSkew s pin).toNat
      (match q.getLast? with
       | some x => if x.t4 = t0 then setCaps s pin q.dropLast else s
       | none => s)
    else if e = 2 ∨ e = b2n falling then
      if 16 ≤ q.length then (s.inc R.timCntCapOvf).evt R.timEvtStatus 11
      else (setCaps s pin (q ++ [{ t4 := t, falling := falling }])).edge (352 + pin)
    else s

def execTrigInputEdge (pin t4 : Nat) (falling : Bool) (s : State) : Host.Outcome State Fault Refusal :=
  .next (settle (doTrigInputEdge pin t4 falling s))

/-- OP_TIM_STATUS (R414). -/
def timStatus (p : List Byte) (s : State) : State × Res :=
  if p.isEmpty then
    (s, resWords ([R.timState, R.timOffset, R.timMpd, R.timMpdNew, R.timAsym, R.timRefStatus, R.timGmIdLo, R.timGmIdHi,
      R.timHoldLo, R.timHoldHi].map s.reg))
  else (s, resErr stBadParam)

end Sys2Proof.Machine
end

