-- ==== Sys2Proof/Machine/Gang.lean ====
section
/-! DEFINITION. Gangs and mirrored pairs: links, formation, roles, status and loss (R443 to R456, R461 to R465, R469). -/

namespace Sys2Proof.Machine

def nylEvt (s : State) (b : Nat) : State := s.evt R.nylEvtStatus b
def mirEvt (s : State) (b : Nat) : State := s.evt R.mirEvtStatus b

def putMember (s : State) (m : Nat) (x : MemberSt) : State :=
  { s with nyl := { s.nyl with members := tabSet s.nyl.members m x } }

def State.member (s : State) (m : Nat) : MemberSt := tabGetD s.nyl.members m {}

/-! ### Status messages

BULK messages carry a number that says what is in them: 1 a gang descriptor, 2 status, 3 coefficients, 4 a relayed command and 5
its reply. A status message's second argument asks for nothing (0), for the replay (1), or for copies from boundary J, its third (2).
These numbers are the model's own. -/

/-- PEER_KIND of a link (R472). -/
def peerKind (s : State) (l : Nat) : Nat :=
  if mirSt s != 0 && (pairLinks s).contains l then 2
  else if gangRole s != 0 && (linkA s == l || linkB s == l || (bit (gangW s 1) 19 && fld (gangW s 1) 18 16 == l)) then 1 else 0

/-- NYL_LINK_STAT. -/
def linkStatRead (s : State) (l : Nat) : Word := setFld (s.reg (linkReg l 0)) 17 16 (peerKind s l)

/-- LEGS_ACT of MIR_STATE: the legs this unit's place in the pair lets it send (R456). -/
def mirStateRead (s : State) : Word :=
  let st := mirSt s
  let red := s.bit R.mirState 5
  let both := st == 3 && s.bit R.mirCtrl 1
  let on := st == 2 || st == 3
  wd ((s.regNat R.mirState) % 256 + b2n (on && (red || both)) * 256 + b2n (on && (!red || both)) * 512)

def bulkGang : Nat := 1
def bulkStatus : Nat := 2
def bulkCoef : Nat := 3
def bulkRun : Nat := 4
def bulkReply : Nat := 5

/-- What a module says of itself (R477). -/
def statusWords (s : State) : List Word :=
  [wd s.modId.devId, wd (s.modId.devId / 2 ^ 32), s.reg R.nylGangState, mirStateRead s, s.reg R.timState, s.reg R.timOffset,
    linkStatRead s (linkA s), linkStatRead s (linkB s), wd s.svc.runVer]

def tellPartner (s : State) (ask j : Nat) : State := sendPartner s mkBulk [0, bulkStatus, ask, j] (bytesOfWords (statusWords s))

def tellLeader (s : State) (ask j : Nat) : State := sendUp s mkBulk [bulkStatus, ask, j, gangMe s] (bytesOfWords (statusWords s))

/-- State of the pair; the partner is told. -/
def setMir (s : State) (st : Nat) : State := tellPartner (s.setField R.mirState 3 0 st) 0 0

/-- REPLAY begins (R466). -/
def startReplay (s : State) : State :=
  let s := { s with mir := { s.mir with
    based := false
    target := none
    joinAt := none
    loads := []
    copies := none
    got := 0 } }
  tellPartner (setMir s 5) 1 0

/-! ### Members (R451) -/

/-- NYL_MEMBER_MAP. -/
def memberMapRead (s : State) : Word :=
  if gangRole s = 1 then
    let sum (f : Nat → Bool) := sumNat ((s.nyl.members.filter fun e => f e.2.phase).map fun e => 2 ^ (e.1 % 16))
    wd (sum (fun p => p == 3 || p == 4) * 65536 + sum (· == 2) + b2n (gangSt s == 2))
  else 0

def memberLost (s : State) (m : Nat) : State :=
  if (tabGet s.nyl.members m).isNone ∨ (s.member m).phase = 4 then s
  else nylEvt ((putMember s m { s.member m with phase := 4 }).inc R.nylCntMemberLost) 2

/-- Members that no working link of the leader reaches are lost. -/
def loseUnreachable (s : State) : State :=
  if gangRole s = 1 then (allMembers s).foldl (fun s m => if linkUp s (linkToward s m) then s else memberLost s m) s else s

/-! ### Roles and silence (R460 to R464, R469) -/

/-- Staged work of the old leader is discarded; its own commits end with ST_SUPERSEDED (R463). -/
def supersedeStaged (s : State) : State :=
  s.cmd.txns.foldl (fun s t =>
    match t.phase with
    | .open_ | .failed => if t.ownOnly then s else closeTxn s t stSuperseded s.cm.epoch
    | .accepted =>
      if t.ownOnly then s
      else closeTxn (postFinal s t { status := stSuperseded } s.tick s.cm.epoch) t stSuperseded s.cm.epoch
    | .admitted | .refused => s) s

/-- Copies of the old leader's staged transactions are dropped; what it admitted commits at its boundary (R463). -/
def dropCopies (s : State) : State :=
  let l := s.cmd.txns.filter fun t => !(t.lead.isSome && (t.phase == .open_ || t.phase == .failed || t.phase == .accepted))
  s.setTxns (l.map fun t => { t with needGo := false })

/-- This unit becomes PREFERRED (R455, R463). -/
def becomePref (s : State) : State :=
  if isPref s then s
  else timView (enterHoldover (mirEvt ((dropCopies s).setBit R.mirState 4 true) 2))

/-- This unit stops being PREFERRED. -/
def leavePref (s : State) : State :=
  if isPref s then mirEvt ((supersedeStaged s).setBit R.mirState 4 false) 2 else s

/-- 3,600 s in core cycles. -/
def lockoutClk : Nat := 4500000000000

/-- Go silent (R461, R469). -/
def goSilent (s : State) : State :=
  let s := leavePref s
  let l := (s.clk :: s.mir.silents).filter fun c => decide (s.clk < c + lockoutClk)
  let s := { s with mir := { s.mir with
    silents := l
    own := []
    theirs := []
    missing := 0 } }
  let s := mirEvt (s.inc R.mirCntSilent) 1
  if 3 ≤ l.length then mirEvt (setMir s 8) 6 else setMir s 4

/-- The partner is lost (R462). -/
def partnerLost (s : State) : State :=
  let st := mirSt s
  if st = 2 ∨ st = 3 ∨ st = 5 ∨ st = 6 ∨ st = 7 then
    if st = 3 ∧ s.mir.partner % 16 = 0 then s
    else
      let s := { s with mir := { s.mir with
        losses := s.mir.losses + 1
        missing := 0
        partner := 0
        own := []
        theirs := []
        downFrom := none } }
      let s := mirEvt (s.setBit R.mirState 6 false) 3
      becomePref (setMir s 3)
  else s

/-- DOWN notice to whom it may concern: on a power warning and before a reset (R462). -/
def sendDown (s : State) : State :=
  let s := if mirSt s = 0 then s else sendPartner s mkDown [0] []
  if gangRole s = 2 then sendUp s mkDown [gangMe s] [] else s

/-- DOWN_NOTICE: the partner's, or a member's with its number. -/
def doDownNotice (m : LinkMsg) (s : State) : State :=
  let a := takeMsg mkDown m s
  if !a.2 then a.1
  else if fromPartner s m then partnerLost a.1
  else
    let b := gangTake m a.1
    if b.2 && gangRole s == 1 then memberLost b.1 (m.args.getD 1 0) else b.1

def execDownNotice (m : LinkMsg) (s : State) : Host.Outcome State Fault Refusal := .next (settle (doDownNotice m s))

/-- PAIR_LINKS_DOWN (R462). -/
def doPairLinksDown (s : State) : State :=
  match s.mir.downFrom with
  | some t => if t + s.field R.mirLossTicks 7 0 ≤ s.tick then partnerLost s else s
  | none => s

def execPairLinksDown (s : State) : Host.Outcome State Fault Refusal := .next (settle (doPairLinksDown s))

/-! ### Links up and down (R443) -/

/-- Note whether any pair link still works. -/
def notePairLinks (s : State) : State :=
  if mirSt s = 0 ∨ (pairLinks s).any (linkUp s) = true then { s with mir := { s.mir with downFrom := none } }
  else if s.mir.downFrom.isSome then s
  else { s with mir := { s.mir with downFrom := some s.tick } }

def linkDown (s : State) (l : Nat) : State :=
  if linkUp s l then
    let s := nylEvt ((s.setReg (linkReg l 0) 0).inc (linkReg l 0x18)) 0
    loseUnreachable (notePairLinks s)
  else s.setReg (linkReg l 0) 0

/-- LANE_LOCK_LOSS. -/
def doLaneLockLoss (link : Nat) (s : State) : State := if linkUp s link then linkDown s link else s

def execLaneLockLoss (link : Nat) (s : State) : Host.Outcome State Fault Refusal := .next (settle (doLaneLockLoss link s))

/-- LINK_TRAINED: every lane has trained; sequence numbers start again. -/
def doLinkTrained (link : Nat) (s : State) : State :=
  if linkOn s.mapCm link && !linkUp s link then
    let drop (t : Tab Nat) : Tab Nat := t.filter fun e => e.1 / 8 != link
    let sent := s.nyl.sent.filter fun e => e.1 / 8 != link
    let s := { s with nyl := { s.nyl with
      tx := drop s.nyl.tx
      rx := drop s.nyl.rx
      sent := sent } }
    let s := nylEvt (s.setNat (linkReg link 0) (2 + 16 * (if link < 2 then 15 else 3))) 0
    let s := notePairLinks s
    if fromPartner s { link := link } then tellPartner s 0 0 else s
  else s

def execLinkTrained (link : Nat) (s : State) : Host.Outcome State Fault Refusal := .next (settle (doLinkTrained link s))

/-! ### Doorbells and snapshots (R452) -/

/-- A doorbell to the member of the gang with a path (R315, R452). -/
def sendDoorbell (s : State) (m src : Nat) : State := sendMember s m mkDoorbell [src] []

/-- DOORBELL_MESSAGE: argument 1 is the source number. -/
def doDoorbellMessage (m : LinkMsg) (s : State) : State :=
  let a := takeMsg mkDoorbell m s
  if !a.2 then a.1
  else
    let b := gangTake m a.1
    if b.2 then ringSource b.1 (m.args.getD 1 0 % 512) else b.1

def execDoorbellMessage (m : LinkMsg) (s : State) : Host.Outcome State Fault Refusal := .next (settle (doDoorbellMessage m s))

/-- SNAPSHOT_TRIGGER_MESSAGE: boundary and cause (R126, R452). -/
def doSnapshotTriggerMessage (m : LinkMsg) (s : State) : State :=
  let a := takeMsg mkSnapshot m s
  if !a.2 then a.1
  else
    let b := gangTake m a.1
    if b.2 then
      let s := b.1
      { s with snp := { s.snp with gang := s.snp.gang ++ [(m.args.getD 1 0, m.args.getD 2 0)] } }
    else b.1

def execSnapshotTriggerMessage (m : LinkMsg) (s : State) : Host.Outcome State Fault Refusal :=
  .next (settle (doSnapshotTriggerMessage m s))

/-! ### Time over the link (R444, R445) -/

/-- PHASE_MESSAGE: arguments are t1 to t4 in quarter nanoseconds: sent by the module nearer the top leader, received here, sent
here, received there. -/
def doPhaseMessage (m : LinkMsg) (s : State) : State :=
  let a := takeMsg mkPhase m s
  let t (i : Nat) : Int := (m.args.getD i 0 : Nat)
  let fromAbove := fromPartner s m || s.nyl.up == some m.link
  if a.2 && fromAbove && decide (4 ≤ m.args.length) then
    let path := rneDiv (((t 1 - t 0) + (t 3 - t 2)) * 64) 2
    let s := a.1.setNat (linkReg m.link 4) (max 0 (rneDiv (path * 2000) 256)).toNat
    if timSource s = 3 ∧ tSt s ≠ 0 then
      let s := pathSample path s
      let s := s.setNat (linkReg m.link 4) (max 0 (rneDiv (mpdNow s * 2000) 256)).toNat
      let d := (t 1 - t 0) * 64
      let l := (d :: s.nyl.offs).take 16
      let s := { s with
        nyl := { s.nyl with offs := l }
        tim := { s.tim with syncD := some d } }
      timView (offsetSample (meanOf l - (mpdNow s + asymNow s)) s)
    else s
  else a.1

def execPhaseMessage (m : LinkMsg) (s : State) : Host.Outcome State Fault Refusal := .next (settle (doPhaseMessage m s))

/-! ### Discovery (R447, R453) -/

def partOf (s : State) : Nat := s.modId.variant

/-- What this module answers: device ID, part, firmware, free, pair state, PREF, PARTNER_ID. -/
def answerArgs (s : State) : List Nat :=
  [s.modId.devId, partOf s, s.svc.runVer, b2n (gangSt s == 0 && mirSt s == 0), mirSt s, b2n (bit (mirCfgW s 0) 1),
    (mirCfgW s 1).toNat + 2 ^ 32 * (mirCfgW s 2).toNat]

/-- Discovery along LINK_B: arguments are the member index to take, N, LINK_A, LINK_B and RING. -/
def sendDiscovery (w : List Word) (s : State) : State :=
  let a := wAt w 0
  let b := wAt w 1
  let s := { s with nyl := { s.nyl with answers := [], ringSeen := false } }
  sendOn s (fld b 10 8) mkDiscovery [1, fld a 7 4 + 1, fld b 2 0, fld b 10 8, b2n (bit a 1)] []

/-- Discovery of the partner on every link the descriptor names; its index is 16. -/
def sendPairDiscovery (w : List Word) (s : State) : State :=
  let a := wAt w 0
  let s := { s with mir := { s.mir with answer := none } }
  let ls := fld a 6 4 :: (if bit a 7 then [fld a 10 8] else [])
  ls.foldl (fun s l => sendOn s l mkDiscovery [16] []) s

/-- DISCOVERY: answer, and pass it on; round a ring it comes back to the leader as index 0. -/
def doDiscovery (m : LinkMsg) (s : State) : State :=
  let a := takeMsg mkDiscovery m s
  let x (i : Nat) : Nat := m.args.getD i 0
  if !a.2 then a.1
  else if x 0 = 0 then { a.1 with nyl := { a.1.nyl with ringSeen := true } }
  else
    let s := sendOn a.1 m.link mkAnswer ([0, x 0] ++ answerArgs s) []
    if x 0 = 16 then s
    else if x 0 + 1 < x 1 then sendOn s (x 3) mkDiscovery ((x 0 + 1) :: m.args.drop 1) []
    else if x 4 = 1 then sendOn s (x 3) mkDiscovery (0 :: m.args.drop 1) []
    else s

def execDiscovery (m : LinkMsg) (s : State) : Host.Outcome State Fault Refusal := .next (settle (doDiscovery m s))

def answerOf (l : List Nat) : Answer :=
  { devId := l.getD 2 0
    part := l.getD 3 0
    fw := l.getD 4 0
    free := l.getD 5 0 == 1
    mir := l.getD 6 0
    pref := l.getD 7 0 == 1
    partner := l.getD 8 0 }

/-- DISCOVERY_ANSWER: kept by the one that asked; a module in between passes it back along the link away from its arrival. -/
def doDiscoveryAnswer (m : LinkMsg) (s : State) : State :=
  let a := takeMsg mkAnswer m s
  if !a.2 then a.1
  else
    let s := (a.1.setNat (linkReg m.link 8) (m.args.getD 2 0)).setNat (linkReg m.link 0xC) (m.args.getD 2 0 / 2 ^ 32)
    if m.args.getD 1 0 = 16 then { s with mir := { s.mir with answer := some (answerOf m.args) } }
    else { s with nyl := { s.nyl with answers := tabSet s.nyl.answers (m.args.getD 1 0) (answerOf m.args) } }

def execDiscoveryAnswer (m : LinkMsg) (s : State) : Host.Outcome State Fault Refusal := .next (settle (doDiscoveryAnswer m s))

/-! ### OP_GANG_FORM and OP_GANG_LEAVE (R446 to R448, R451) -/

/-- No bit of a descriptor outside its fields is set. -/
def fieldsOk (masks : List Nat) (w : List Word) : Bool := w.zipIdx.all fun (x, i) => x &&& wd (masks.getD i 0) == x

/-- Every local output a member presents exists on a module of `outs` outputs, and no two are the same. -/
def localsOk (outs per stride : Nat) : Bool := decide (per ≤ 1024) && (memberLocals per stride).all (decide <| · < outs)

/-- Outputs this module can present as a member: its own, or its gang's. -/
def presents (s : State) (per stride : Nat) : Bool :=
  match s.cm.num.levels with
  | [] => localsOk s.outputs per stride
  | g :: _ => decide (per ≤ g.per * g.n)

def chkGangForm (s : State) (_ : List Packet) (p : List Byte) : Nat :=
  let w := wordsOf p
  let per := fld (wAt w 2) 15 0
  let n := fld (wAt w 0) 7 4
  if p.length = 64 ∧ fieldsOk [0xF3, 0xF0707, 0x7FFFF] w = true ∧
      (bit (wAt w 0) 0 = false ∨
        (1 ≤ n ∧ 1 ≤ per ∧ per ≤ 16384 ∧ per * (n + 1) ≤ 65536 ∧ fld (wAt w 2) 18 16 ≤ 5 ∧ fld (wAt w 1) 2 0 < 6 ∧
          fld (wAt w 1) 10 8 < 6 ∧ (bit (wAt w 1) 19 = false ∨ fld (wAt w 1) 18 16 < 6) ∧
          presents s per (fld (wAt w 2) 18 16) = true)) then stOk else stBadParam

/-- Outputs of a part. -/
def partOutputs (part : Nat) : Nat := if part = 2 then 512 else 1024

/-- The leader's check at the pass; `c` is the state after the transaction. -/
def gangFormStatus (s : State) (c : Committed) (p : List Byte) : Nat :=
  let w := wordsOf p
  let n := fld (wAt w 0) 7 4 + 1
  let links := [fld (wAt w 1) 2 0, fld (wAt w 1) 10 8] ++ (if bit (wAt w 1) 19 then [fld (wAt w 1) 18 16] else [])
  let ans := (List.range (n - 1)).map fun i => tabGet s.nyl.answers (i + 1)
  if !bit (wAt w 0) 0 then stOk
  else if !(links.all (linkThere c)) then stBadParam
  else if ans.any Option.isNone then stTimeout
  else if ans.any (fun a => match a with
      | some x => !x.free || x.fw != s.svc.runVer
      | none => false) then stBadState
  else if bit (wAt w 0) 1 && !s.nyl.ringSeen then stBadState
  else if !((List.range s.outputs).all (outMute c)) then stBadState
  else if ans.any (fun a => match a with
      | some x => !localsOk (partOutputs x.part) (fld (wAt w 2) 15 0) (fld (wAt w 2) 18 16)
      | none => false) then stBadParam
  else stOk

/-- Hops from the leader to member `m`. -/
def hopsTo (ring : Bool) (n m : Nat) : Nat := if ring then min m (n - m) else m

/-- Tell member `m` its place: index, hops, and the levels above its outputs; the descriptor follows as bytes. -/
def tellMember (p : List Byte) (m : Nat) (s : State) : State :=
  let w := wordsOf p
  let n := fld (wAt w 0) 7 4 + 1
  let hops := s.field R.nylGangState 23 20 + hopsTo (bit (wAt w 0) 1) n m
  let mine : GangLevel := { per := fld (wAt w 2) 15 0, n := n, m := m }
  let levels := (s.cm.num.levels.take (s.field R.nylGangState 15 12)) ++ [mine]
  sendMember s m mkBulk ([bulkGang, hops, levels.length] ++ levels.flatMap fun g => [g.per, g.n, g.m]) p

/-- The state of a module that leaves its gang. -/
def leaveGang (s : State) : State :=
  let cm := s.cm.setNum {}
  let cm := (List.range 16).foldl (fun c i => c.setReg (R.nylGangCfg + 4 * i) 0) cm
  let s := { s with cm := cm, nyl := { s.nyl with members := [], up := none, offs := [] } }
  let s := { s with jnl := { s.jnl with store := { s.jnl.store with gang := none } } }
  s.setReg R.nylGangState 0

/-- OP_GANG_FORM at its commit, on the module that leads; with EN = 0 the gang is dissolved. -/
def applyGangForm (p : List Byte) (s : State) : State :=
  let w := wordsOf p
  if bit (wAt w 0) 0 then
    let n := fld (wAt w 0) 7 4 + 1
    let cm := (w.zipIdx).foldl (fun c e => c.setReg (R.nylGangCfg + 4 * e.2) e.1) s.cm
    let top : GangLevel := { per := fld (wAt w 2) 15 0, n := n, m := 0 }
    let num : Numbering := { levels := top :: s.cm.num.levels, stride := fld (wAt w 2) 18 16 }
    let ids := (List.range (n - 1)).map (· + 1)
    let mem := ids.map fun m =>
      ((m, { phase := 1, devId := ((tabGet s.nyl.answers m).map (·.devId)).getD 0 }) : Nat × MemberSt)
    let s := { s with cm := cm.setNum num, nyl := { s.nyl with members := mem } }
    let s := s.setNat R.nylGangState (2 * 2 ^ 24 + b2n (bit (wAt w 0) 1) * 65536 + 256 + (n - 1) * 16)
    let s := { s with jnl := { s.jnl with store := { s.jnl.store with gang := some p } } }
    ids.foldl (fun s m => tellMember p m s) s
  else
    let s := (allMembers s).foldl (fun s m => sendMember s m mkBulk [bulkGang, 0, 0] p) s
    leaveGang s

def chkGangLeave (_ : State) (_ : List Packet) (p : List Byte) : Nat :=
  if p.length = 4 ∧ fld (wAt (wordsOf p) 0) 31 4 = 0 then stOk else stBadParam

def leaveIdx (p : List Byte) : Nat := fld (wAt (wordsOf p) 0) 3 0

/-- The member's outputs are in no pair set; the member itself also finds every output muted (R451). -/
def gangLeaveStatus (s : State) (c : Committed) (p : List Byte) : Nat :=
  let m := leaveIdx p
  let top := c.num.levels.head?
  let isHere (o : Nat) : Bool := match top with
    | some g => c.num.unit o / g.per == m
    | none => false
  let used := c.objs.any fun e => e.2.mode != 0 && (pairOuts c e.2).any isHere
  if gangRole s = 0 ∨ m = 0 ∨ (gangRole s = 1 ∧ (tabGet s.nyl.members m).isNone) then stBadState
  else if used then stBadState
  else if gangRole s = 2 ∧ gangMe s = m ∧ (List.range s.outputs).all (outMute c) = false then stBadState
  else stOk

def applyGangLeave (k : Nat) (p : List Byte) (s : State) : State :=
  let m := leaveIdx p
  if gangRole s = 2 ∧ gangMe s = m then
    let s := leaveGang s
    { s with tim := { s.tim with acquireAt := some k } }
  else
    let num := { s.cm.num with gone := (m :: s.cm.num.gone).dedup }
    { s with
      cm := { s.cm with num := num }
      nyl := { s.nyl with members := tabDel s.nyl.members m } }

/-! ### OP_MIR_FORM and OP_MIR_ROLE (R453, R464) -/

/-- Ticks of RETURN_HOLD and of the hold-off of OP_MIR_ROLE. -/
def holdOk (v : Nat) : Bool := v == 0 || decide (1500 ≤ v ∧ v ≤ 5400000)

def chkMirForm (_ : State) (_ : List Packet) (p : List Byte) : Nat :=
  let w := wordsOf p
  if p.length = 32 ∧ fieldsOk [0x7F7, 0xFFFFFFFF, 0xFFFFFFFF, 0xFFFFFFFF] w = true ∧ holdOk (wAt w 3).toNat = true
      ∧ fld (wAt w 0) 6 4 < 6 ∧ (bit (wAt w 0) 7 = false ∨ fld (wAt w 0) 10 8 < 6) then stOk else stBadParam

/-- The check at the pass of the unit with PREF = 1 (R453). -/
def mirFormStatus (s : State) (c : Committed) (p : List Byte) : Nat :=
  let w := wordsOf p
  let a := wAt w 0
  let links := fld a 6 4 :: (if bit a 7 then [fld a 10 8] else [])
  let id := (wAt w 1).toNat + 2 ^ 32 * (wAt w 2).toNat
  if !bit a 0 then stOk
  else if !(links.all (linkThere c)) then stBadParam
  else if !bit a 1 then stOk
  else
    match s.mir.answer with
    | none => stTimeout
    | some x =>
      if x.devId ≠ id then stTimeout
      else if x.part ≠ partOf s ∨ x.fw ≠ s.svc.runVer ∨ x.mir ≠ 1 then stBadState
      else if x.pref = true ∨ x.partner ≠ s.modId.devId then stPartnerDisagree
      else stOk

/-- OP_MIR_FORM at its commit: the unit becomes PREFERRED and SOLO, or FORMING; with EN = 0 the pair ends. -/
def applyMirForm (p : List Byte) (s : State) : State :=
  let w := wordsOf p
  let a := wAt w 0
  let cm := (w.zipIdx).foldl (fun c e => c.setReg (R.mirCfg + 4 * e.2) e.1) s.cm
  let s := { s with cm := cm, mir := { silents := [], losses := s.mir.losses } }
  let s := { s with jnl := { s.jnl with store := { s.jnl.store with pair := if bit a 0 then some p else none } } }
  let pref := bit a 1
  if bit a 0 then
    let s := s.setNat R.mirState (if pref then 3 + 16 + 32 else 1)
    if pref then sendOn s (fld a 6 4) mkBulk [0, bulkStatus, 0, 0] (bytesOfWords (statusWords s)) else s
  else s.setNat R.mirState 0

def chkMirRole (_ : State) (_ : List Packet) (p : List Byte) : Nat :=
  let w := wordsOf p
  if p.length = 8 ∧ fld (wAt w 0) 31 2 = 0 ∧ holdOk (wAt w 1).toNat = true then stOk else stBadParam

/-- A hand-over needs a partner that is SENDING, and any role command a pair. -/
def mirRoleStatus (s : State) (p : List Byte) : Nat :=
  let w := wAt (wordsOf p) 0
  if !inPair s then stBadState
  else if bit w 0 then stOk
  else if mirSt s = 2 ∧ s.mir.partner % 16 = 2 then stOk else stBadState

/-- OP_MIR_ROLE at its commit boundary, on both units. -/
def applyMirRole (p : List Byte) (s : State) : State :=
  let w := wordsOf p
  let s := { s with mir := { s.mir with auto := some (bit (wAt w 0) 1, (wAt w 1).toNat) } }
  let s := s.setReg R.mirReturnCnt 0
  if bit (wAt w 0) 0 then s
  else if isPref s then timView (enterHoldover (setMir (leavePref s) (mirSt s)))
  else if mirSt s = 2 then setMir (becomePref s) (mirSt s)
  else s

/-- AUTO_RETURN and RETURN_HOLD in force (R453, R464). -/
def autoReturn (s : State) : Bool × Nat :=
  let a := s.mir.auto.getD (bit (mirCfgW s 0) 2, (mirCfgW s 3).toNat)
  (a.1, if a.2 = 0 then 90000 else a.2)

/-! ### OP_GANG_STATUS (R477) -/

/-- A member's record; the two link words share one word, because what R477 lists is 36 bytes and the record 32. -/
def memberRecord (path : Nat) (w : List Word) : List Byte :=
  let half (x : Word) : Nat := x.toNat % 256 + x.toNat / 65536 % 4 * 256
  bytesOfWords ([wd path] ++ w.take 6 ++ [wd (half (wAt w 6) + 65536 * half (wAt w 7))])

def gangStatusOp (p : List Byte) (s : State) : State × Res :=
  if p.length = 12 then
    let cfg := bytesOfWords ((List.range 16).map (gangW s))
    let mem := s.nyl.members.flatMap fun (e : Nat × MemberSt) => memberRecord e.1 e.2.words
    (s, resTo p (cfg ++ memberRecord 0 (statusWords s) ++ mem))
  else (s, resErr stBadParam)

/-! ### Work at a boundary -/

/-- Percentage of flit slots used: measured, so a free value (R471). -/
def utilOne (s : State) (l : Nat) : State :=
  let d := s.draw
  if linkUp s l then d.2.setNat (linkReg l 0x1C) (Config.linkUtil d.1 % 101) else s.setNat (linkReg l 0x1C) 0

/-- Training, PHASE exchange, status every 150 ticks, and the start of a resynchronisation (R443, R444, R466, R508). -/
def nylBoundary (t : Nat) (s : State) : State :=
  let s := (List.range 6).foldl (fun s l =>
    if linkOn s.mapCm l then (if s.field (linkReg l 0) 1 0 = 0 then s.setReg (linkReg l 0) 1 else s)
    else if s.reg (linkReg l 0) = 0 then s else linkDown s l) s
  let s := (allMembers s).foldl (fun s m => sendOn s (linkToward s m) mkPhase [s.t4] []) s
  let s := if inPair s && isPref s then sendPair s mkPhase [s.t4] [] else s
  let s := if t % 150 = 0 then (List.range 6).foldl utilOne s else s
  let s := if t % 150 = 0 ∧ gangRole s = 2 then tellLeader s 0 0 else s
  let s := if t % 150 = 0 ∧ inPair s = true then tellPartner s 0 0 else s
  if mirSt s = 4 ∧ s.bit R.mirCtrl 0 = true ∧ s.mir.partnerFw = s.svc.runVer then startReplay s else s

end Sys2Proof.Machine
end

