-- ==== Sys2Proof/Machine/Mea.lean ====
section
/-! DEFINITION. Measurement (chapter 06): microphones, floats, loudness, identification, and the commands of group 0x07. -/

namespace Sys2Proof.Machine

def meaEvt (s : State) (b : Nat) : State := s.evt R.meaEvtStatus b

/-! ### The decimation chain (R164, R168) -/

def meaRatio (c : Committed) : Nat := if bit (c.reg R.meaCtrl) 1 then 128 else 64

def meaStages (c : Committed) : Nat := if bit (c.reg R.meaCtrl) 1 then 7 else 6

/-- Responses of the stages, first stage first. -/
def meaChain (c : Committed) : List Nat :=
  (List.range (meaStages c)).map fun i => fld (c.reg R.meaChain) (4 * i + 3) (4 * i)

/-- Group delay in tenths of a sample, and settle time, of a response (R139). -/
def hbDelay10 (h : Nat) : Nat :=
  if h < 10 then 5 * (hbLen h - 1) else ([16, 27, 39, 46, 58, 79] : List Nat).getD (h - 10) 0

def hbSettle (h : Nat) : Nat := if h < 10 then hbLen h else ([40, 70, 110, 150, 190, 260] : List Nat).getD (h - 10) 0

/-- Chain delay G in tenths of a PDM bit, and S_chain. -/
def chainDelay10 (c : Committed) : Nat := sumNat ((meaChain c).zipIdx.map fun (h, i) => hbDelay10 h * 2 ^ i)

def chainSettle (c : Committed) : Nat := sumNat ((meaChain c).zipIdx.map fun (h, i) => hbSettle h * 2 ^ i)

/-- MEA_CHAIN_DELAY and MEA_CHAIN_SETTLE. -/
def chainDelayRead (s : State) : Word := wdI (rneDiv (chainDelay10 s.cm * 256 : Nat) 10)
def chainSettleRead (s : State) : Word := wd (chainSettle s.cm)

/-! ### Rules of the pass (R164, R165, R169, R188, R193 to R197) -/

def micEn (c : Committed) (m : Nat) : Bool := bit (micCfg c m) 31

def anyIir (c : Committed) : Bool := (meaChain c).any fun h => decide (10 ≤ h)

/-- Values that end a transaction with ST_BAD_PARAM. -/
def meaBad (s : State) (c : Committed) : Bool :=
  let ctrl := c.reg R.meaCtrl
  let used := (List.range 32).any (micEn c) || fld ctrl 7 4 != 0
  let fs := bit ctrl 0
  let ratio := bit ctrl 1
  let valid := if s.rate96 then fs && !ratio else fs == ratio
  let keys := ((List.range 32).filter (micEn c)).map fun m => fld (micCfg c m) 4 0
  let rel := signedOf 16 (fld (c.reg R.meaPilotRel) 15 0)
  let dwell := fld (c.reg R.meaIdDwell) 15 0
  (used && !valid) || !noDup keys || (!ratio && fld (c.reg R.meaChain) 27 24 != 0) ||
  (anyIir c && (List.range 32).any fun m => bit (micCfg c m) 30) || decide (dwell < 1500) || decide (60000 < dwell) ||
  decide (rel < -15360) || decide (-5120 < rel) ||
  (List.range 256).any fun i =>
    let v := c.reg (R.meaFfSrc + 4 * i)
    bit v 31 && (fld v 22 16 == 0 || decide (100 < fld v 22 16) || decide (6495 < fld v 12 0))

/-- Pilots are on and the core named does not run at the measurement insert point (R188). -/
def pilotBad (c : Committed) : Bool :=
  let v := c.reg R.meaIdCtrl
  let ctrl := c.reg (ecReg (fld v 11 8) 4)
  bit v 1 && !(fld ctrl 5 4 == 2 && bit ctrl 0)

/-! ### Microphones (R163 to R171) -/

def micFault (s : State) (m : Nat) : Bool := s.bit R.pwrMicStuck m || s.bit R.pwrMicOpen m

def State.mic (s : State) (m : Nat) : MicRt := tabGetD s.mea.mics m {}

def State.setMic (s : State) (m : Nat) (r : MicRt) : State := { s with mea := { s.mea with mics := tabSet s.mea.mics m r } }

/-- A chain stops or starts again: its bits are gone and it is not valid. -/
def micReset (m : Nat) (start : Option Nat) (s : State) : State :=
  (s.setMic m { start := start }).setBit R.meaMicValid m false

/-- The microphones at the boundary of block `k`. -/
def micStart (k : Nat) (s : State) : State :=
  let c := s.cmAt k
  let p := s.cmAt (k - 1)
  let all := c.reg R.meaCtrl != p.reg R.meaCtrl || c.reg R.meaChain != p.reg R.meaChain
  (List.range 32).foldl (fun s m =>
    let r := s.mic m
    if !micEn c m || micFault s m then (if r.start.isSome then micReset m none s else s)
    else if r.start.isNone || all || micCfg c m &&& 0x8FFF001F != micCfg p m &&& 0x8FFF001F then micReset m (some k) s
    else s) s

/-- First valid sample time of a chain that started with block `k`. -/
def micValidFrom (s : State) (c : Committed) (m k : Nat) : Nat :=
  k * s.blockLen + ceilDiv (fld (micCfg c m) 27 16 + chainSettle c) (meaRatio c)

/-- Decimate a list, newest sample first, of an even index: `n` results, newest first. -/
def decDown (taps : List Int) : Nat → List Int → List Int
  | 0, _ => []
  | n + 1, xs => sat32 (rne (sumInt ((taps.zip xs).map fun (a, b) => a * b)) 31) :: decDown taps n (xs.drop 2)

/-- Results each stage must yield for `n` at the end of the chain, first stage first. -/
def decCounts : List Nat → Nat → List Nat
  | [], _ => []
  | _ :: t, n =>
    match decCounts t n, t with
    | k :: l, h :: _ => (2 * k + hbLen h) :: k :: l
    | _, _ => [n]

/-- The whole chain; the newest input has an index one below a multiple of the ratio, so the newest of each stage is dropped to an
even index. -/
def decMics (hs : List Nat) (n : Nat) (xs : List Int) : List Int :=
  (hs.zip (decCounts hs n)).foldl (fun xs (h, k) => decDown ((List.range (hbLen h)).map (hbTap h)) k (xs.drop 1)) xs

/-- The input of stage 1, newest first, `n` values up to bit index `i` of the chain's line. -/
def micInput (r : MicRt) (first pd i n : Nat) : List Int :=
  let half : Int := 2 ^ 30
  (List.range n).map fun d =>
    let x : Int := (i : Int) - d
    if x < first then 0
    else
      let y : Int := x - pd
      if y < first then (if y % 2 == 0 then half else -half)
      else if r.bits.getD (i - y.toNat) false then half else -half

/-- Samples of microphone `m` in block `k`, whose bits are the newest. -/
def micSamples (s : State) (m k : Nat) : List Int × Bool :=
  let c := s.cmAt k
  let B := s.blockLen
  let ratio := meaRatio c
  let r := s.mic m
  match r.start with
  | none => (zeros B, false)
  | some st =>
    let v := micValidFrom s c m st
    let raw :=
      if anyIir c then (List.range B).map fun j => (Config.micIir m (k * B + j)).toInt
      else
        let n := decCounts (meaChain c) B
        let len := 2 * n.headD 0 + hbLen ((meaChain c).headD 0) + 2
        (decMics (meaChain c) B (micInput r (st * B * ratio) (fld (micCfg c m) 27 16) ((k + 1) * B * ratio - 1) len)).reverse
    ((raw.zipIdx).map fun (x, j) => if k * B + j < v then 0 else x, decide (v ≤ k * B))

/-- The bits of tick `k` arrive, and its block of samples is formed. A bit the operand does not give reads 0. -/
def micTick (k : Nat) (pdm : Tab (List Bool)) (s : State) : State :=
  let c := s.cmAt k
  let n := s.blockLen * meaRatio c
  let s := (List.range 32).foldl (fun s m =>
    let r := s.mic m
    match r.start with
    | none => s
    | some _ =>
      let l := tabGetD pdm (fld (micCfg c m) 3 0 * 2 + fld (micCfg c m) 4 4) []
      let new := ((l ++ List.replicate n false).take n).reverse
      let keep := fld (micCfg c m) 27 16 + 2 * chainSettle c + 4 * n
      s.setMic m { r with bits := (new ++ r.bits).take keep }) s
  let out := (s.mea.mics.filter fun e => e.2.start.isSome).map fun (e : Nat × MicRt) => (e.1, micSamples s e.1 k)
  { s with mea := { s.mea with out := ((k, out) :: s.mea.out).take 3 } }

/-- MIC_VALID: the chain has settled (R170). -/
def doMicValid (mic : Nat) (s : State) : State :=
  match (s.mic mic).start with
  | none => s
  | some k =>
    let due := sampleClk s (micValidFrom s (s.cmAt s.tick) mic k)
    if decide (mic < 32) && !s.bit R.meaMicValid mic && s.dueOk due.toNat then
      meaEvt ((s.atClk due.toNat).setBit R.meaMicValid mic true) 0
    else s

def execMicValid (mic : Nat) (s : State) : Host.Outcome State Fault Refusal := .next (settle (doMicValid mic s))

/-! ### Float sources (R172, R173) -/

/-- A block of an object's well (R172). -/
def wellBlock (s : State) (w : Well) (b : Nat) : List Int :=
  let B := s.blockLen
  (List.range B).map fun j =>
    if b < w.birth then 0 else (memWord s.cis.mem (wellOff w (b * B + j))).toInt

/-- A block out of a list of samples by time. -/
def bufBlock (l : List (Nat × Int)) (B b : Nat) : List Int :=
  (List.range B).map fun j => ((l.find? fun e => e.1 == b * B + j).map (·.2)).getD 0

/-- Samples of source `i` in block `b`, and whether all are valid; `sumps` is the stored block. -/
def sourceBlock (s : State) (sumps : Tab (List Int)) (b i : Nat) : List Int × Bool :=
  let B := s.blockLen
  let c := s.cmAt b
  if i < 4096 then ((match tabGet c.wells i with
    | some w => wellBlock s w b
    | none => zeros B), true)
  else if i < 4352 then (bufBlock (tabGetD s.smp.dinBuf (i - 4096) []) B b, true)
  else if i < 4416 then
    let v := c.reg (R.smpSp + 4 * (i - 4352))
    (if bit v 31 then bufBlock (tabGetD s.smp.spBuf (fld v 14 0) []) B b else zeros B, true)
  else if i < 5440 then (tabGetD sumps (i - 4416) (zeros B), true)
  else if i < 6464 then
    ((match s.smp.outBuf.find? (fun e => e.1 == b) with
      | some e => tabGetD e.2 (i - 5440) (zeros B)
      | none => zeros B), true)
  else
    match s.mea.out.find? (fun e => e.1 == b) with
    | some e => tabGetD e.2 (i - 6464) (zeros B, false)
    | none => (zeros B, false)

/-- Sources that can carry a signal in block `b`. -/
def liveSources (s : State) (sumps : Tab (List Int)) (b : Nat) : List Nat :=
  let c := s.cmAt b
  (c.wells.map (·.1)).filter (· < 4096) ++ (s.smp.dinBuf.map fun e => 4096 + e.1) ++ ((spEnabled c).map fun e => 4352 + e.1) ++
  (sumps.map fun e => 4416 + e.1) ++
  (match s.smp.outBuf.find? (fun e => e.1 == b) with
    | some e => e.2.map fun x => 5440 + x.1
    | none => []) ++
  (s.mea.mics.map fun e => 6464 + e.1)

def peakOf (l : List Int) : Nat := maxNat (l.map Int.natAbs)

/-- Coarse floats of block `b` join those held since the last freeze (R174). -/
def coarseTick (b : Nat) (sumps : Tab (List Int)) (s : State) : State :=
  let t := (liveSources s sumps b).foldl (fun t i =>
    let p := peakOf (sourceBlock s sumps b i).1
    if p ≤ tabGetD t i 0 then t else tabSet t i p) s.mea.peaks
  { s with mea := { s.mea with peaks := t, peakTo := b } }

/-- A pending freeze loads the window (R174). -/
def coarseFreeze (s : State) : State :=
  if s.bit R.meaCfStatus 0 then
    let old := s.regs.filter fun e => !(decide (R.meaCf ≤ e.1) && decide (e.1 < R.meaCf + 4 * 6496))
    let s := s.mea.peaks.foldl (fun (s : State) (e : Nat × Nat) => s.setNat (R.meaCf + 4 * e.1) e.2) { s with regs := old }
    let s := s.setReg R.meaCfStatus 0
    let first := if s.reg R.meaCfLast = 0 ∧ s.reg R.meaCfFirst = 0 then 0 else s.regNat R.meaCfLast + 1
    let s := (s.setNat R.meaCfFirst first).setNat R.meaCfLast s.mea.peakTo
    { s with mea := { s.mea with peaks := [] } }
  else s

/-- MEA_CF_FREEZE: a write to MEA_CF_CTRL. -/
def doMeaCfFreeze (val : Word) (s : State) : State := if bit val 0 then s.setReg R.meaCfStatus 1 else s

def execMeaCfFreeze (val : Word) (s : State) : Host.Outcome State Fault Refusal := .next (settle (doMeaCfFreeze val s))

/-! ### Decibels -/

/-- A power `num / den` is above `10^(c2 / 5120)`. -/
def powAbove (num den : Nat) (c2 : Int) : Bool :=
  if c2 ≥ 0 then decide (10 ^ c2.toNat * den ^ 5120 < num ^ 5120) else decide (den ^ 5120 < num ^ 5120 * 10 ^ (-c2).toNat)

def powSearch (num den : Nat) : Nat → Int → Int → Int
  | 0, lo, _ => lo
  | f + 1, lo, hi =>
    if hi - lo ≤ 1 then lo else
    let mid := (lo + hi) / 2
    if powAbove num den (2 * mid - 1) then powSearch num den f mid hi else powSearch num den f lo mid

/-- 10 log10 of a power in Q8.8, none for zero. -/
def dbOfPower (num den : Nat) : Option Int := if num = 0 then none else some (powSearch num den 18 (-32768) 32768)

/-- A float value with its NS bit: 0x8000 for no signal. -/
def floatWord (v : Option Int) (ns : Bool) : Word :=
  wd (b2n ns * 2 ^ 31 + (match v with
    | some x => bitsOf 16 x
    | none => 0x8000))

/-- Largest magnitude after oversampling; `hist` holds the samples before the block, newest first (R175). -/
def truePeak (s : State) (hist xs : List Int) : Nat :=
  let all := hist.reverse ++ xs
  let n := hist.length
  let phases := if s.rate96 then 2 else 4
  maxNat ((List.range xs.length).flatMap fun j =>
    let w := (all.drop (n + j + 1 - 12)).take (min 12 (n + j + 1))
    (List.range phases).map fun p =>
      (rne (sumInt ((w.reverse.zipIdx).map fun (x, i) => x * Config.tpTap s.rate96 p i)) 30).natAbs)

def lastSamples (hist xs : List Int) : List Int := (xs.reverse ++ hist).take 11

/-! ### Fine floats (R175, R176) -/

def ffSrc (c : Committed) (i : Nat) : Word := c.reg (R.meaFfSrc + 4 * i)

/-- Squares and peaks of block `b` for every fine float that is on. -/
def fineTick (b : Nat) (sumps : Tab (List Int)) (s : State) : State :=
  let c := s.cmAt b
  let on := (List.range 256).filter fun i => bit (ffSrc c i) 31
  let t := on.map fun i =>
    let v := ffSrc c i
    let r : FineRt := match tabGet s.mea.fine i with
      | some r => if r.src = v then r else { src := v, since := b }
      | none => { src := v, since := b }
    let x := sourceBlock s sumps b (fld v 12 0)
    (i, { r with
      sum := r.sum + sumNat (x.1.map fun y => y.natAbs * y.natAbs)
      peak := max r.peak (truePeak s r.hist x.1)
      ok := r.ok && x.2
      hist := lastSamples r.hist x.1 })
  { s with mea := { s.mea with fine := t } }

/-- Every 150 ticks a segment of 100 ms is complete. -/
def fineClose (s : State) : State :=
  { s with mea := { s.mea with fine := s.mea.fine.map fun (e : Nat × FineRt) =>
    let r := e.2
    (e.1, { r with segs := ((r.sum, r.peak, r.ok) :: r.segs).take 100, sum := 0, peak := 0, ok := true }) } }

/-- RMS and true peak of a fine float over its window. A segment begun after the slot's commit is not whole. -/
def fineValue (s : State) (n : Nat) (r : FineRt) : Word × Word :=
  let w := fld r.src 22 16
  let l := r.segs.take w
  let whole := decide (r.since + w * 150 ≤ n - 1)
  let ns := decide (l.length < w) || l.any (fun e => !e.2.2) || !whole
  let sum := sumNat (l.map fun e => e.1)
  let peak := maxNat (l.map fun e => e.2.1)
  let den := max 1 (l.length * 150 * s.blockLen) * 2 ^ 62
  (floatWord (dbOfPower sum den) ns, floatWord (dbOfPower (peak * peak) (2 ^ 62)) ns)

/-! ### Loudness (R177) -/

/-- Outputs a layout's meter listens to: members that are vertices. -/
def loudOuts (c : Committed) (g : Nat) : List Nat :=
  match tabGet c.layouts g with
  | some l => (l.members.filter fun o => l.vertices.contains o && decide (o < 0x10000))
  | none => []

/-- Channel weight in hundredths. -/
def loudWeight (c : Committed) (o : Nat) : Nat :=
  let p := (c.spk o).pos.v3
  let el := (fxAtan2Deg p.z (fxSqrt (fxMul p.x p.x + fxMul p.y p.y)))
  let az := azimuthDeg p
  let a := if az < 0 then -az else az
  if el < fxOfInt 30 ∧ fxOfInt 60 ≤ a ∧ a ≤ fxOfInt 120 then 141 else 100

/-- True peaks of block `b`, and whether anything was heard. -/
def loudTick (b : Nat) (s : State) : State :=
  let c := s.cmAt b
  let on := (List.range 32).filter fun g => bit (c.reg R.meaLoudEn) g
  let t := on.map fun g =>
    let r : LoudRt := (tabGet s.mea.loud g).getD { since := b }
    let outs := loudOuts c g
    let xs := outs.map fun o => (o, (sourceBlock s [] b (5440 + o)).1)
    let pk := maxNat (xs.map fun e => truePeak s (tabGetD r.hist e.1 []) e.2)
    (g, { r with
      peak := max r.peak pk
      hist := xs.map fun e => (e.1, lastSamples (tabGetD r.hist e.1 []) e.2)
      heard := r.heard || xs.any fun e => e.2.any (· != 0) })
  { s with mea := { s.mea with loud := t } }

/-- A 100 ms step: the K-weighted energies of the channels, free values, with their channel weights. -/
def loudStep (b : Nat) (s : State) (g : Nat) (r : LoudRt) : State :=
  let c := s.cmAt b
  let a := (loudOuts c g).foldl (fun (a : State × Nat) o =>
    let d := a.1.draw
    (d.2, a.2 + loudWeight c o * (if r.heard then Config.kEnergy d.1 else 0))) (s, 0)
  let steps := (a.2 :: r.steps).take 30
  let gates := if 4 ≤ steps.length then sumNat (steps.take 4) :: r.gates else r.gates
  let s := a.1
  { s with mea := { s.mea with loud := tabSet s.mea.loud g { r with steps := steps, gates := gates } } }

def loudClose (b : Nat) (s : State) : State := s.mea.loud.foldl (fun s (e : Nat × LoudRt) => loudStep b s e.1 e.2) s

/-- MEA_LOUD_RESET takes effect at the boundary. -/
def loudRestart (s : State) : State :=
  if s.mea.loudReset = 0 then s
  else
    let t := s.mea.loud.map fun (e : Nat × LoudRt) =>
      (e.1, if s.mea.loudReset.testBit e.1 then { e.2 with gates := [], peak := 0 } else e.2)
    { s with mea := { s.mea with loud := t, loudReset := 0 } }

/-- Loudness in LUFS Q8.8 of an energy over `k` steps: -0.691 + 10 log10 of the mean square (BS.1770-4). -/
def lufs (s : State) (e k : Nat) : Option Int :=
  let num := e * (fxPow10 (-691) 10000).toNat
  dbOfPower num (max 1 k * (s.fs / 10) * 100 * 2 ^ 62 * 2 ^ 128)

/-- An energy of 4 steps is above a loudness given in hundredths of a LUFS. -/
def gateAbove (s : State) (e : Nat) (lim100 : Int) : Bool :=
  decide ((fxPow10 (lim100 * 10 + 691) 10000).toNat * (4 * (s.fs / 10) * 100 * 2 ^ 62) < e * 2 ^ 128)

/-- Integrated loudness: gated at -70 LUFS, then at 10 LU under the mean of what passed. -/
def integrated (s : State) (gates : List Nat) : Option Int :=
  let a := gates.filter fun e => gateAbove s e (-7000)
  let b := a.filter fun e => decide (sumNat a < 10 * e * a.length)
  if b.isEmpty then none else lufs s (sumNat b) (4 * b.length)

/-- MEA_LOUD of a layout. -/
def loudRegs (s : State) (g : Nat) (r : LoudRt) : State :=
  let a := R.meaLoud + 16 * g
  let mom := lufs s (sumNat (r.steps.take 4)) 4
  let short := lufs s (sumNat r.steps) 30
  let int := integrated s r.gates
  let s := s.setReg a (floatWord mom (decide (r.steps.length < 4)))
  let s := s.setReg (a + 4) (floatWord short (decide (r.steps.length < 30)))
  let s := s.setReg (a + 8) (floatWord int int.isNone)
  s.setReg (a + 12) (floatWord (dbOfPower (r.peak * r.peak) (2 ^ 62)) false)

def doMeaLoudReset (val : Word) (s : State) : State :=
  { s with mea := { s.mea with loudReset := s.mea.loudReset ||| val.toNat } }

def execMeaLoudReset (val : Word) (s : State) : Host.Outcome State Fault Refusal := .next (settle (doMeaLoudReset val s))

/-! ### FINE_FLOAT_UPDATE -/

/-- Pilot amplitude from 400 ms of the feed: RMS times 10^(REL / 20) (R186). -/
def pilotTarget (s : State) (c : Committed) (segs : List Nat) : Int :=
  let rel := signedOf 16 (fld (c.reg R.meaPilotRel) 15 0)
  let n := max 1 (segs.length * 150 * s.blockLen)
  let x := sumNat segs * (fxPow10 rel 2560).toNat * 4 / (n * 2 ^ 128)
  ((isqrt x + 1) / 2 : Nat)

def pilotUpdate (n : Nat) (s : State) : State :=
  let t := s.mea.pilots.map fun (e : Nat × PilotRt) =>
    let p := e.2
    let segs := (p.sum :: p.segs).take 4
    (e.1, { p with
      fromA := p.at (n - 2)
      toA := pilotTarget s (s.cmAt (n - 2)) segs
      start := n - 1
      sum := 0
      segs := segs })
  { s with mea := { s.mea with pilots := t } }

/-- FINE_FLOAT_UPDATE: at a boundary divisible by 150. -/
def doFineFloatUpdate (s : State) : State :=
  let n := s.tick
  if s.tickRuns && n % 150 == 0 && s.mea.ffTick != n then
    let s := s.mea.fine.foldl (fun (s : State) (e : Nat × FineRt) =>
      let v := fineValue s n e.2
      (s.setReg (R.meaFfVal + 8 * e.1) v.1).setReg (R.meaFfVal + 8 * e.1 + 4) v.2) s
    let s := s.mea.loud.foldl (fun (s : State) (e : Nat × LoudRt) => loudRegs s e.1 e.2) s
    let s := (s.setNat R.meaFfSeq (s.regNat R.meaFfSeq + 1)).setNat R.meaFfTick (n - 2)
    let s := pilotUpdate n s
    { s with mea := { s.mea with ffTick := n } }
  else s

def execFineFloatUpdate (s : State) : Host.Outcome State Fault Refusal := .next (settle (doFineFloatUpdate s))

/-! ### Identification (R178 to R185) -/

/-- The schedule at the boundary of block `k`: restarts and ends of dwells. -/
def identTick (k : Nat) (remap : Bool) (s : State) : State :=
  let c := s.cmAt k
  let p := s.cmAt (k - 1)
  let en (x : Committed) : Bool := bit (x.reg R.meaIdCtrl) 0
  let list (x : Committed) : List Word := (List.range 32).map fun i => x.reg (R.meaIdList + 4 * i)
  let moved := en c != en p || (en c && (list c != list p || c.reg R.meaIdDwell != p.reg R.meaIdDwell ||
    identMics c != identMics p || remap))
  let s := match identAt s (k - 1) with
    | none => s
    | some r =>
      if !moved && decide (r.start < k) && (k - r.start) % r.dwell == 0 && !r.outs.isEmpty then
        let j := (k - r.start) / r.dwell - 1
        let e : IdentPend :=
          { index := j % max 1 r.subsets
            count := r.subsets
            due := k + 750
            outs := r.subset j
            mics := r.mics }
        { s with mea := { s.mea with pend := s.mea.pend ++ [e] } }
      else s
  let s := if moved then { s with mea := { s.mea with runs := ((k, identOf s c k) :: s.mea.runs).take 4 } } else s
  if remap then { s with mea := { s.mea with pub := none, records := [], pend := [] } } else s

/-- The decoder's outcome for a frame of every pilot, in the tick in which the frame ends (R188). -/
def pilotTick (m : Nat) (s : State) : State :=
  let L := frameLen s
  let B := s.blockLen
  match identAt s m with
  | none => s
  | some r =>
    let span := frameSpan s r m
    let fin := (m + 1) * B / L * L
    if bit ((s.cmAt m).reg R.meaIdCtrl) 1 && decide (m * B < fin) && decide (span.1 < fin) && decide (fin ≤ span.2) then
      (r.subset (r.dwellAt m)).foldl (fun s o =>
        let d := s.draw
        if Config.pilotOk d.1 then
          let s := d.2.inc R.meaCntPilotOk
          { s with mea := { s.mea with pilotSeen := (o :: s.mea.pilotSeen).dedup } }
        else d.2.inc R.meaCntPilotBad) s
    else s

def recKey (out mic : Nat) : Nat := out * 32 + mic

def refOf (s : State) (key : Nat) : Option (Int × List Int × Nat) := tabGet s.jnl.store.refs key

def confMin (s : State) : Nat := fld (s.cm.reg R.meaConfMin) 7 0

/-- A fresh estimate (R180, R181), its arrival reduced by G / R (R171). -/
def freshRec (s : State) (pilot : Bool) (num : Nat) : MeaRec :=
  let g := (rneDiv (chainDelay10 s.cm * 256 : Nat) (10 * meaRatio s.cm)).toNat
  let conf := Config.identConf num % 256
  { num := num
    conf := conf
    arrival := Config.identArrival num % 2 ^ 26 - g
    levels := (List.range 8).map fun b => clampInt (-32768) 32767 (Config.identLevel num b)
    pilot := pilot
    low := decide (conf < confMin s)
    sos := s.regNat R.geoSosEff
    epoch := s.cm.epoch
    tick := s.tick }

/-- Records of one output at a publication; `fed` says its feed was loud enough. -/
def publishOut (p : IdentPend) (fed : Bool) (s : State) (o : Nat) : State :=
  p.mics.foldl (fun s m =>
    let key := recKey o m
    let d := s.draw
    let fresh := freshRec s (s.mea.pilotSeen.contains o) d.1
    let r := if fed then fresh else { ((tabGet s.mea.records key).getD fresh) with low := true }
    let s := d.2
    let s := if r.low then s.inc R.meaCntLowconf else s
    { s with mea := { s.mea with records := tabSet s.mea.records key { r with drift := false, dead := false } } }) s

/-- The record shows drift against its reference (R183). -/
def drifts (s : State) (r : MeaRec) (ref : Int × List Int × Nat) : Bool :=
  let d := ((r.arrival : Int) - ref.1).natAbs
  decide (fld (s.cm.reg R.meaDriftT) 15 0 < d) ||
  ((r.levels.zip ref.2.1).any fun (a, b) => decide (fld (s.cm.reg R.meaDriftL) 15 0 < (a - b).natAbs))

/-- Lower median. -/
def lowMedian (l : List Int) : Option Int :=
  let srt := l.foldl (fun acc a => (acc.filter fun b => decide (b ≤ a)) ++ [a] ++ acc.filter fun b => decide (a < b)) []
  if srt.isEmpty then none else srt[(srt.length - 1) / 2]?

/-- Alarms of one output at a publication (R183 to R185). -/
def alarmOut (p : IdentPend) (s : State) (o : Nat) : State :=
  let recs := p.mics.filterMap fun m =>
    match tabGet s.mea.records (recKey o m), refOf s (recKey o m) with
    | some r, some f => some (recKey o m, r, f)
    | _, _ => none
  let sure := recs.filter fun e => decide (confMin s ≤ e.2.1.conf)
  let moved := sure.filter fun e => drifts s e.2.1 e.2.2
  let drift := !sure.isEmpty && decide (sure.length ≤ 2 * moved.length)
  let diff (e : Nat × MeaRec × (Int × List Int × Nat)) : Int :=
    sumInt ((List.range 4).map fun i => e.2.1.levels.getD (i + 2) 0 - e.2.2.2.1.getD (i + 2) 0)
  let dead := match lowMedian (recs.map diff) with
    | some v => decide (v < -12288)
    | none => false
  let mark (ks : List Nat) (f : MeaRec → MeaRec) (s : State) : State :=
    let rs := s.mea.records.map fun (x : Nat × MeaRec) =>
      if ks.contains x.1 then (x.1, f x.2) else x
    { s with mea := { s.mea with records := rs } }
  let s := if drift then
      meaEvt ((mark (moved.map (·.1)) (fun r => { r with drift := true }) s).setBit (R.meaDrift + o / 32 * 4) (o % 32) true) 2
    else s
  if dead then
    meaEvt ((mark (p.mics.map (recKey o)) (fun r => { r with dead := true }) s).setBit (R.meaDead + o / 32 * 4) (o % 32) true) 3
  else s

/-- c_pair of a record in exact arithmetic, none where the record does not qualify (R189). -/
def sosPair (s : State) (o m : Nat) : Option Int :=
  match tabGet s.mea.records (recKey o m), refOf s (recKey o m) with
  | some r, some f =>
    let ax (i : Nat) : Int := (s.cm.reg (R.meaMicPos + 12 * m + 4 * i)).toInt
    let mic : Pos := { x := ax 0, y := ax 1, z := ax 2 }
    let p := (s.cm.spk o).pos
    let d := (p.v3.sub mic.v3).len
    if decide (confMin s ≤ r.conf) && !(mic == {}) && decide (fxOfInt 3 ≤ d) then
      let ref := fxOfQ f.2.2 22
      let q := fxDiv (fxMul (fxOfQ ((r.arrival : Int) - f.1) 8) ref) (d * s.fs)
      some (fxDiv ref (fxOne + q))
    else none
  | _, _ => none

/-- The firmware submits GEO_SOS_DELTA (R190). -/
def submitSos (est : Nat) (s : State) : State :=
  if !bit (s.cm.reg R.geoSosCtrl) 0 || gangRole s == 2 || (mirSt s != 0 && !isPref s) then s
  else
    let nom := max 1 (s.cm.regNat R.geoSosNom)
    let v := rneDiv (((est : Int) - nom) * 2 ^ 31) nom
    let s := if v < -0x03D70A3D ∨ 0x03D70A3D < v then meaEvt s 4 else s
    fwStage s 2 [{ op := 0x0106, payload := bytesOfWords [1, wd R.geoSosDelta, wdI v] }]

def sosLoop (p : IdentPend) (s : State) : State :=
  if !bit (s.cm.reg R.meaIdCtrl) 2 then s
  else
    let l := p.outs.flatMap fun o => p.mics.filterMap fun m => sosPair s o m
    if l.length < 16 then s.inc R.meaCntSosSkip
    else
      match lowMedian l with
      | none => s
      | some v =>
        let est := (fxRound v 22).toNat
        submitSos est ((s.setNat R.meaSosEst est).setNat R.meaSosPairs l.length)

/-- Exports still under way are superseded (R191). -/
def dropExports (s : State) : State :=
  let nums := s.mea.exports.map (·.num)
  let s := { s with mea := { s.mea with exports := [] } }
  let fs := s.cmd.fetched.map fun (f : Fetched) =>
    if nums.contains f.num then { f with cpl := some { status := stSuperseded } } else f
  { s with cmd := { s.cmd with fetched := fs } }

/-- SUBSET_PUBLISH: the oldest subset whose publication boundary has come. -/
def doSubsetPublish (s : State) : State :=
  match s.mea.pend with
  | [] => s
  | p :: rest =>
    if p.due ≤ s.tick then
      let s := dropExports { s with mea := { s.mea with pend := rest } }
      let fed := p.outs.foldl (fun (a : State × List Nat) o =>
        let d := a.1.draw
        (d.2, if Config.identFed d.1 then o :: a.2 else a.2)) (s, [])
      let s := p.outs.foldl (fun s o => publishOut p (fed.2.contains o) s o) fed.1
      let s := (p.outs.filter (fed.2.contains ·)).foldl (alarmOut p) s
      let info := (p, s.tick, s.cm.epoch, s.regNat R.geoSosEff)
      let seen := s.mea.pilotSeen.filter fun o => !p.outs.contains o
      let s := { s with mea := { s.mea with pub := some info, pilotSeen := seen } }
      let s := s.setNat R.meaIdSubset (p.count * 65536 + p.index)
      sosLoop p (meaEvt s 1)
    else s

def execSubsetPublish (s : State) : Host.Outcome State Fault Refusal := .next (settle (doSubsetPublish s))

/-! ### The boundary -/

/-- The unit's work at boundary `n`: `sumps` holds the stored sumps of block `n` - 2, `pdm` the bits of tick `n` - 1. -/
def meaBoundary (n : Nat) (pdm : Tab (List Bool)) (sumps : Tab (List Int)) (s : State) : State :=
  let s := micStart n (micTick (n - 1) pdm s)
  let s := if n < 2 then s else loudTick (n - 2) (fineTick (n - 2) sumps (coarseTick (n - 2) sumps s))
  let s := (s.setNat R.meaBlkEpoch (s.cmAt (n - 2)).epoch).setNat64 R.meaBlkTickLo (n - 2)
  let s := coarseFreeze s
  let s := if n % 150 = 0 ∧ 2 ≤ n then loudClose (n - 2) (fineClose s) else s
  let remap := regionBanks (s.cmAt n) 3 != regionBanks (s.cmAt (n - 1)) 3
  pilotTick (n - 1) (identTick n remap (loudRestart s))

/-! ### Commands of group 0x07 -/

/-- A metrics record as it is written (R181). -/
def recBytes (s : State) (key : Nat) (r : MeaRec) : List Byte :=
  let f := refOf s key
  let ref := match f with
    | some x => x
    | none => ((2 ^ 32 - 1 : Int), List.replicate 8 0, 0)
  let half (l : List Int) : List Byte := (List.range 8).flatMap fun i => leBytes 2 (bitsOf 16 (l.getD i 0))
  let flags := b2n r.drift + 2 * b2n r.dead + 4 * b2n r.pilot + 8 * b2n r.low
  bytesOfWords [wd (key / 32 + key % 32 * 65536 + r.conf * 2 ^ 24), wd r.arrival, wdI ref.1, wd flags] ++
  half r.levels ++ half ref.2.1 ++ bytesOfWords [wd ref.2.2, wd r.epoch, wd r.tick, wd (r.tick / 2 ^ 32)]

/-- Pairs of the published subset. -/
def pubKeys (s : State) : List Nat :=
  match s.mea.pub with
  | none => []
  | some (p, _) => p.outs.flatMap fun o => p.mics.map (recKey o)

def pubHeader (s : State) : List Byte :=
  match s.mea.pub with
  | none => bytesOfWords [0, 0, 0, 0]
  | some (p, t, e, _) => bytesOfWords [wd p.index, wd t, wd (t / 2 ^ 32), wd e]

/-- Pairs an OP_MEA_METRICS or OP_MEA_EXPORT payload asks for: none where it is not well formed or names a pair that is not in
the published subset. -/
def askedKeys (s : State) (p : List Byte) : Option (List Nat) :=
  let w := wordsOf p
  if fld (wAt w 0) 0 0 = 0 then (if p.length = 20 ∧ wAt w 0 = 0 then some (pubKeys s) else none)
  else
    let n := fld (wAt w 4) 15 0
    let l := (w.drop 5).map fun x => recKey (fld x 9 0) (fld x 20 16)
    if p.length = 20 + 4 * n ∧ 1 ≤ n ∧ wAt w 0 = 1 ∧ fld (wAt w 4) 31 16 = 0 ∧ l.all ((pubKeys s).contains ·) = true then some l
    else none

/-- OP_MEA_METRICS. -/
def meaMetrics (p : List Byte) (s : State) : State × Res :=
  match askedKeys s p with
  | none => (s, resErr stBadParam)
  | some l =>
    let recs := l.flatMap fun k => match tabGet s.mea.records k with
      | some r => recBytes s k r
      | none => []
    (s, resTo ((p.drop 4).take 12) (pubHeader s ++ recs))

/-- OP_MEA_REF_CAPTURE (R182). -/
def meaRefCapture (p : List Byte) (s : State) : State × Res :=
  if p.length ≠ 128 then (s, resErr stBadParam)
  else
    let w := wordsOf p
    let take := s.mea.records.filter fun (e : Nat × MeaRec) =>
      bit (wAt w (e.1 / 1024)) (e.1 / 32 % 32) && decide (confMin s ≤ e.2.conf)
    let refs := take.foldl (fun t (e : Nat × MeaRec) => tabSet t e.1 ((e.2.arrival : Int), e.2.levels, e.2.sos)) s.jnl.store.refs
    ({ s with jnl := { s.jnl with store := { s.jnl.store with refs := refs } } }, resWords [wd take.length])

/-- OP_MEA_EXPORT (R191): the copy ends with EXPORT_COMPLETE, or with the next publication. -/
def meaExport (p : List Byte) (s : State) : State × Res :=
  match askedKeys s p with
  | none => (s, resErr stBadParam)
  | some l =>
    let rb := (p.drop 4).take 12
    let need := 20 + l.length * 4160
    let r := resTo rb []
    if r.status ≠ stOk then (s, r)
    else if leNat (rb.drop 8) < need then (s, { status := stBadParam, result := leBytes 4 need, rlen := 4 })
    else
      let e : Export :=
        { num := s.cmd.fetchNum - 1
          addr := leNat (rb.take 8)
          len := need
          pairs := l }
      ({ s with mea := { s.mea with exports := s.mea.exports ++ [e] } }, { later := true })

/-- A response in an export: its record and its 2,048 taps. -/
def exportOne (s : State) (k : Nat) : List Byte :=
  match tabGet s.mea.records k with
  | some r => recBytes s k r ++ (List.range 2048).flatMap fun i => leBytes 2 (Config.identTap r.num i).toNat
  | none => []

/-- EXPORT_COMPLETE: the oldest copy is done. -/
def doExportComplete (s : State) : State :=
  match s.mea.exports with
  | [] => s
  | e :: rest =>
    let sos := match s.mea.pub with
      | some (_, _, _, v) => v
      | none => 0
    let data := pubHeader s ++ leBytes 4 sos ++ e.pairs.flatMap (exportOne s)
    let s := ({ s with mea := { s.mea with exports := rest } } : State).emit (.host e.addr data)
    { s with cmd := { s.cmd with fetched := s.cmd.fetched.map fun f =>
      if f.num == e.num then { f with cpl := some { rlen := e.len } } else f } }

def execExportComplete (s : State) : Host.Outcome State Fault Refusal := .next (settle (doExportComplete s))

end Sys2Proof.Machine
end

