-- ==== Sys2Proof/Machine/Apply.lean ====
section
/-! DEFINITION. What the packets of a transaction write (R97, R102, R263): one packet, a list of packets with register writes, and
the wells a transaction allocates (R67, R286). -/

namespace Sys2Proof.Machine

/-! ### Which module a packet is for (R29, R449) -/

/-- Nibble `i` of a path. -/
def pathNib (path i : Nat) : Nat := path / 16 ^ i % 16

/-- The packet names this module: its own index at every level the path gives, and the leader at the levels below. -/
def isHere (s : State) (pk : Packet) : Bool :=
  let ls := s.cm.num.levels
  decide (pk.depth ≤ ls.length) &&
  (ls.zipIdx).all fun (g, i) => g.m == (if i < pk.depth then pathNib pk.path i else 0)

/-- Register blocks whose writes are scene commands. -/
def sceneReg (a : Nat) : Bool := a / 0x10000 == 5 || a / 0x10000 == 1

/-- Scene commands act on the whole unit (R449). -/
def sceneOp (op : Nat) : Bool := op / 256 == 3 || op / 256 == 4 || op == 0x0104

/-! ### Register writes (R14, R59, R102) -/

/-- A register a host may write with the next epoch: an RWE row of the map. -/
def isRwe (a : Nat) : Bool := match rowAt a with
  | some r => r.acc == .rwe
  | none => false

/-- One RWE write: the bits the row lets a write change. -/
def putRwe (c : Committed) (a : Nat) (v : Word) : Committed :=
  match rowAt a with
  | some r => c.setReg a (v &&& wd r.mask)
  | none => c

/-- A write of a transaction. GEO_SOS_DELTA is the firmware's while TRACK_EN is 1 (R59). -/
def regWrite (fwSos : Bool) (c : Committed) (e : Nat × Word) : Committed :=
  if e.1 = R.geoSosDelta ∧ fwSos = false ∧ bit (c.reg R.geoSosCtrl) 0 = true then c else putRwe c e.1 e.2

/-- Writes of a list, those of the scene blocks always and the others on the module they are for. -/
def regWrites (fwSos here : Bool) (l : List (Nat × Word)) (s : State) : State :=
  { s with cm := (l.filter fun e => here || sceneReg e.1).foldl (regWrite fwSos) s.cm }

/-- Records of an OP_REG_WRITE. -/
def regPairs (p : List Byte) : List (Nat × Word) := (listOf 2 p).map fun w => ((wAt w 0).toNat, wAt w 1)

def chkRegWrite (_ : State) (_ : List Packet) (p : List Byte) : Nat :=
  if listOk 2 p (fun w => isRwe (wAt w 0).toNat) = stOk ∧ (listOf 2 p).length ≤ 509 then stOk else stBadParam

/-! ### One packet -/

/-- OP_RECOVER_RELEASE from effective block `k` (R122). -/
def recoverRelease (k : Nat) (s : State) : State :=
  if s.cmd.recHold.isEmpty then s
  else { s with cmd := { s.cmd with recRelease := some (min k (s.cmd.recRelease.getD k)) } }

/-- What a packet writes at the commit with effective block `k`. Parts of layouts and arrays are gathered apart (R266). -/
def applyPacket (k : Nat) (fwSos : Bool) (s : State) (pk : Packet) : State :=
  let p := pk.payload
  let here := isHere s pk
  if pk.op = 0x0106 then regWrites fwSos here (regPairs p) s
  else if !(here || sceneOp pk.op || pk.op / 256 == 0x0C) then s
  else
    match pk.op with
    | 0x0104 => applyRamp p s
    | 0x0105 => recoverRelease k s
    | 0x0301 => applyObjSet k p s
    | 0x0302 => applyObjKeys p s
    | 0x0303 => applyKeysClear p s
    | 0x0306 => applyDist p s
    | 0x0401 => applySpk p s
    | 0x0501 => applyDin p s
    | 0x0502 => applyXp p s
    | 0x0503 => applyOut p s
    | 0x0504 => applySp p s
    | 0x0601 => applyCorCfg p s
    | 0x0602 => applyCorLoad k p s
    | 0x0603 => applyCorSwap k p s
    | 0x0801 => applyEcLoad p s
    | 0x0802 => applyEcAttach p s
    | 0x0803 => applyEcParam k p s
    | 0x0804 => applyEcMask true p s
    | 0x0805 => applyEcMask false p s
    | 0x0901 => applyRx k p s
    | 0x0902 => applyTx k p s
    | 0x0903 => applyStrDelete k p s
    | 0x0904 => applyStrMask k p s
    | 0x0905 => applyNetPort p s
    | 0x0A01 => applyPtp p s
    | 0x0A02 => applyPathAccept p s
    | 0x0A03 => applyTrig p s
    | 0x0A04 => applyRef p s
    | 0x0B01 => applySap p s
    | 0x0B02 => applyAdm p s
    | 0x0C01 => if here then applyGangForm p s else s
    | 0x0C02 => applyGangLeave k p s
    | 0x0C03 => if here then applyMirForm p s else s
    | 0x0C04 => applyMirRole p s
    | _ => s

/-! ### A transaction -/

/-- Everything but wells: packets in staging order, layouts and arrays, then the register writes (R121). -/
def applyTables (k : Nat) (fwSos : Bool) (pks : List Packet) (regs : List (Nat × Word)) (s : State) : State :=
  let s := applyParts pks (pks.foldl (applyPacket k fwSos) s)
  regWrites fwSos true regs s

/-- The region map changed between two committed states. -/
def mapMoved (c0 c1 : Committed) : Bool := (List.range 256).any fun n => bankCfg c0 n != bankCfg c1 n

/-- Wells after a transaction: its frees and allocations, and the moves of a new region map; none without room. -/
def wellsAfter (k : Nat) (old c : Committed) (pks : List Packet) : Option Committed :=
  (planWells k old c pks).bind fun c' => if mapMoved old c' then rehomeWells k c' else some c'

/-- A transaction applied at effective block `k`; none when its wells find no room. -/
def applyTxn (k : Nat) (fwSos : Bool) (pks : List Packet) (regs : List (Nat × Word)) (s : State) : Option State :=
  let s' := applyTables k fwSos pks regs s
  (wellsAfter k s.cm s'.cm pks).map fun c => { s' with cm := c }

/-- The transaction carries the firmware's own speed-of-sound update (R59, R100). -/
def Txn.fwSos (t : Txn) : Bool := t.fw && t.kinds.contains 2

/-! ### Loads the banks hold (R121, R123) -/

/-- The journal's name of a load. -/
def waitOf (l : CorLoad) : CoefWait :=
  { bank := l.bank
    low := l.low
    first := l.first
    count := l.taps.length
    digest := corHash l }

/-- A load replaces an earlier one of the same bank, band and range. -/
def addWait (l : List CoefWait) (w : CoefWait) : List CoefWait :=
  (l.filter fun x => !(x.bank == w.bank && x.low == w.low && x.first == w.first && x.count == w.count)) ++ [w]

/-- Loads that packets carry for this module. -/
def stagedWaits (s : State) (pks : List Packet) : List (Nat × CoefWait) :=
  (pks.filter fun p => p.op == 0x0602 && isHere s p).map fun p =>
    let l := corLoadOf p.payload
    (l.1, waitOf l.2)

/-- The journal's table of loads and of active banks after a transaction that moved the committed state from `c0` to the present one,
with its loads and its packets. -/
def noteLoads (c0 : Committed) (loads : List (Nat × CoefWait)) (pks : List Packet) (s : State) : State :=
  let stays (o : Nat) : Bool :=
    !corClears (corCfgAt c0 o, corLenAt c0 o) (corCfgAt s.cm o, corLenAt s.cm o) && corMode (corCfgAt s.cm o) != 0
  let kept := s.jnl.coefs.filter fun (e : Nat × List CoefWait) => stays e.1
  let new := loads.foldl (fun (t : Tab (List CoefWait)) l => tabSet t l.1 (addWait (tabGetD t l.1 []) l.2)) kept
  let swaps := (pks.filter fun p => p.op == 0x0603 && isHere s p).flatMap fun p => swapsOf p.payload
  let act := swaps.foldl (fun (l : List Nat) e => if e.2 then (e.1 :: l).dedup else l.filter (· != e.1)) (s.jnl.active.filter stays)
  { s with jnl := { s.jnl with coefs := new, active := act } }

/-- An output committed with correction bypassed waits for no coefficients (R123). -/
def dropBypassed (s : State) : State :=
  if s.cmd.coefHold.isEmpty then s
  else
    let l := s.cmd.coefHold.filter fun (e : Nat × List CoefWait) => corMode (corCfgAt s.cm e.1) != 0
    let s := { s with cmd := { s.cmd with coefHold := l } }
    if l.isEmpty then s.setBit R.cmdJnlStatus 2 false else s

end Sys2Proof.Machine
end

