-- ==== Sys2Proof/Machine/Journal.lean ====
section
/-! DEFINITION. The scene journal (R120 to R123): records of the commit ring, checkpoints, what OP_JNL_READ shows, and restoring. -/

namespace Sys2Proof.Machine

/-! ### Records (R121) -/

/-- Bytes of the commit ring. -/
def ringBytes : Nat := 7331840

/-- Start of the commit ring. -/
def ringBase0 : Nat := 0x802000

/-- Registers in one OP_REG_WRITE. -/
def regsMax : Nat := 509

/-- A packet as a record keeps it: a load of coefficients with their digest in place of them. -/
def jnlPacket (pk : Packet) : Packet :=
  if pk.op = 0x0602 then
    { pk with payload := pk.payload.take 8 ++ sha256 (pk.payload.drop 8) }
  else pk

/-- A load as a record keeps it. -/
def jnlWait (p : List Byte) : Nat × CoefWait :=
  let w := wordsOf (p.take 8)
  (fld (wAt w 0) 9 0,
    { bank := bit (wAt w 0) 12
      low := bit (wAt w 0) 13
      first := fld (wAt w 1) 15 0
      count := fld (wAt w 1) 31 16
      digest := p.drop 8 })

/-- A packet with its header (R253). -/
def packetBytes (txn : Nat) (pk : Packet) : List Byte :=
  leBytes 4 (1 + pk.depth * 4096 + pk.op * 65536) ++ leBytes 4 (pk.payload.length * 65536) ++ leBytes 4 txn ++ leBytes 4 pk.path ++
    pk.payload

/-- Register writes as packets of at most 509 pairs; one packet without pairs when there are none. -/
def regPackets (l : List (Nat × Word)) : List Packet :=
  (List.range (max 1 (ceilDiv l.length regsMax))).map fun i =>
    let part := (l.drop (regsMax * i)).take regsMax
    { op := 0x0106
      payload := leBytes 4 part.length ++ part.flatMap fun e => leBytes 4 e.1 ++ bytesOfWord e.2 }

def recPayload (txn : Nat) (pks : List Packet) (regs : List (Nat × Word)) : List Byte :=
  (pks ++ regPackets regs).flatMap (packetBytes txn)

/-- Ring bytes of a record with a payload of `n` bytes. -/
def recLen (n : Nat) : Nat := max 128 (64 + ceilDiv n 64 * 64)

/-- Ring bytes a transaction's record takes. -/
def recSize (pks : List Packet) (regs : List (Nat × Word)) : Nat := recLen (recPayload 0 (pks.map jnlPacket) regs).length

/-- A record as it stands in the ring; SEAL is zero until it is written. -/
def jrecBytes (r : JRec) : List Byte :=
  let pay := recPayload r.txn r.packets r.regs
  let head := leBytes 4 0x4A4E4C31 ++ leBytes 4 pay.length ++ leBytes 4 r.epoch ++ leBytes 4 r.txn ++ leBytes 8 r.tick ++
    leBytes 8 r.seq ++ leBytes 4 (crc32c pay) ++ List.replicate 24 0
  let body := head ++ leBytes 4 (if r.isSealed then crc32c head else 0) ++ pay
  body ++ List.replicate (r.len - body.length) 0

/-- CMD_JNL_USED: ring bytes written since the newest valid checkpoint. -/
def jnlUsed (s : State) : Nat := sumNat ((s.jnl.recs.filter fun r => decide (s.jnl.chk.seq < r.seq)).map (·.len))

/-- A record of `n` bytes would overwrite what replay still needs. -/
def jnlFull (s : State) (n : Nat) : Bool := decide (ringBytes < jnlUsed s + n)

/-- Records, newest first, without those that newer ones have overwritten whole. -/
def trimRecs (room : Nat) : List JRec → List JRec
  | [] => []
  | r :: t => if room = 0 then [] else r :: trimRecs (room - r.len) t

/-- Put a record, unsealed, whose packets are as the journal keeps them. -/
def putRec (s : State) (txn epoch tick : Nat) (pks : List Packet) (regs : List (Nat × Word)) : State :=
  let r : JRec :=
    { off := s.jnl.ringOff
      len := recLen (recPayload txn pks regs).length
      seq := s.jnl.seq + 1
      epoch := epoch
      txn := txn
      tick := tick
      packets := pks
      regs := regs }
  let fresh := s.jnl.put.filter fun (e : Nat × Byte) =>
    !(decide (ringBase0 ≤ e.1) && decide (e.1 < ringBase0 + ringBytes) &&
      decide ((e.1 - ringBase0 + ringBytes - r.off) % ringBytes < r.len))
  { s with jnl := { s.jnl with
    seq := s.jnl.seq + 1
    ringOff := (s.jnl.ringOff + r.len) % ringBytes
    recs := trimRecs ringBytes (r :: s.jnl.recs)
    put := fresh } }

/-- Write the record of a transaction. -/
def writeRec (s : State) (txn epoch tick : Nat) (pks : List Packet) (regs : List (Nat × Word)) : State :=
  putRec s txn epoch tick (pks.map jnlPacket) regs

/-- Seal the records with the numbers given; the first commit after a CLEAN header writes a header copy without it (R482). -/
def sealRecs (s : State) (seqs : List Nat) : State :=
  let hdr := s.jnl.hdrNum + b2n s.jnl.clean.isSome
  { s with jnl := { s.jnl with
    recs := s.jnl.recs.map fun r => if seqs.contains r.seq then { r with isSealed := true } else r
    clean := none
    hdrNum := hdr } }

/-- Sequence number of the last sealed record, or of the checkpoint. -/
def lastSealed (s : State) : Nat := maxNat (s.jnl.chk.seq :: (s.jnl.recs.filter (·.isSealed)).map (·.seq))

/-! ### Checkpoints (R120) -/

/-- The image of the committed state, once every record is sealed. -/
def chkOf (s : State) : Checkpoint :=
  { cm := s.cm
    progs := (s.ecs.filter fun e => !e.2.prog.isEmpty).map fun e => (e.1, e.2.prog)
    keys := s.geo.rts.map fun e => (e.1, { anchor := e.2.anchor, prev := e.2.prev, queue := e.2.queue })
    coefs := s.jnl.coefs
    active := s.jnl.active
    tick := s.regNat R.cmdEpochTickLo + 2 ^ 32 * s.regNat R.cmdEpochTickHi
    seq := lastSealed s
    ringOff := s.jnl.ringOff }

/-- Ring bytes in use above which the firmware writes a checkpoint. -/
def chkLevel : Nat := 0x400000

/-- A background checkpoint starts. -/
def startCheckpoint (s : State) : State :=
  if chkLevel < jnlUsed s && s.jnl.bg.isNone && !s.bit R.pwrStatus 3 then { s with jnl := { s.jnl with bg := some (chkOf s) } }
  else s

/-- CHECKPOINT_COMPLETE: the header names the slot just written. -/
def doCheckpointComplete (s : State) : State :=
  match s.jnl.bg with
  | none => s
  | some c => { s with jnl := { s.jnl with
    chk := c
    bg := none
    slot := 1 - s.jnl.slot
    hdrNum := s.jnl.hdrNum + 1 } }

def execCheckpointComplete (s : State) : Host.Outcome State Fault Refusal := .next (settle (doCheckpointComplete s))

/-! ### Reading (OP_JNL_READ) -/

/-- Size of the MRAM. -/
def mramSize : Nat := 0x1000000

/-- A byte of the commit ring: the newest record that covers it, zero where none was written. -/
def ringByte (recs : List (JRec × List Byte)) (x : Nat) : Byte :=
  match recs.find? fun e => decide ((x + ringBytes - e.1.off) % ringBytes < e.1.len) with
  | some e => e.2.getD ((x + ringBytes - e.1.off) % ringBytes) 0
  | none => 0

/-- MRAM bytes as they stand. The spec lays out the ring only; the rest is free. -/
def mramRead (s : State) (off n : Nat) : State × List Byte :=
  let d := s.draw
  let recs := s.jnl.recs.map fun r => (r, jrecBytes r)
  (d.2, (List.range n).map fun i =>
    let a := off + i
    match tabGet s.jnl.put a with
    | some b => b
    | none => if ringBase0 ≤ a ∧ a < ringBase0 + ringBytes then ringByte recs (a - ringBase0) else Config.mramByte d.1 a)

/-- OP_JNL_READ. -/
def jnlRead (p : List Byte) (s : State) : State × Res :=
  let w := wordsOf p
  let off := (wAt w 0).toNat
  let n := (wAt w 1).toNat
  if p.length ≠ 20 ∨ mramSize < off + n then (s, resErr stBadParam)
  else
    let r := mramRead s off n
    (r.1, resTo (p.drop 8) r.2)

/-! ### Restoring (R122, R123) -/

/-- Packets that replaying a record takes: those that change tables. Loads and swaps come back through the table of loads; an
acceptance of a step, a release and the forming of gangs and pairs are over. -/
def isReplayed (op : Nat) : Bool := op != 0x0602 && op != 0x0603 && op != 0x0105 && op != 0x0A02 && op / 256 != 0x0C

/-- Apply one record to the tables. -/
def replayRec (s : State) (r : JRec) : State :=
  let c0 := s.cm
  let pks := r.packets.filter fun p => isReplayed p.op
  let fw := r.txn == fwId
  let s := (applyTxn 0 fw pks r.regs s).getD (applyTables 0 fw pks r.regs s)
  let loads := (r.packets.filter fun p => p.op == 0x0602 && isHere s p).map fun p => jnlWait p.payload
  let s := noteLoads c0 loads r.packets s
  let cm := { s.cm with epoch := r.epoch }
  let cm := cm.setReg R.geoSosCtrl (clrBitW (cm.reg R.geoSosCtrl) 1)
  ({ s with cm := cm }).setNat64 R.cmdEpochTickLo r.tick

/-- Sealed records that follow number `n` without a gap, and the record after them. -/
def replayable : Nat → Nat → List JRec → List JRec × Option JRec
  | 0, _, _ => ([], none)
  | f + 1, n, l => match l.find? fun r => r.seq == n + 1 with
    | none => ([], none)
    | some r =>
      if r.isSealed then
        let t := replayable f (n + 1) l
        (r :: t.1, t.2)
      else ([], some r)

/-- An object's runtime from its trajectory: its gain stands at the committed code. -/
def restObj (c : Committed) (o : Nat) (k : KeySt) : ObjRt :=
  let r : ObjRt := { anchor := k.anchor, prev := k.prev, queue := k.queue }
  let g := gainOfDb (c.obj o).gain
  { r with gain := { fromG := g, toG := g, toDb := (c.obj o).gain, fromDb := (c.obj o).gain } }

/-- An output's stage: polarity and mode as committed, its trim standing, muted. -/
def restOut (s : State) (o : Nat) : State :=
  let code := signedOf 16 (fld (s.cm.reg (smpOut o)) 15 0)
  let g := gainOfDb code
  s.setOut o
    { trim := { fromG := g, toG := g, toDb := code, fromDb := code }
      pol := outPol s.cm o
      sp := outSp s.cm o }

/-- An output's correction chain: configuration in force, banks empty. -/
def restCor (s : State) (o : Nat) : State :=
  let t := takeOver s.blockLen 0 (s.cor o) (corWant s.cm o)
  s.setCor o { t.1 with supp := .open_, active := s.jnl.active.contains o }

/-- What runs from the committed tables: paths, output stages, chains, cores, streams. The tick starts later and every ramp, fade
and well starts with it. -/
def buildRuntime (s : State) : State :=
  let c := s.cm
  let keyOf (o : Nat) : KeySt := match tabGet s.geo.rts o with
    | some r => { anchor := r.anchor, prev := r.prev, queue := r.queue }
    | none => {}
  let rts := (c.objs.map (·.1)).map fun o => (o, restObj c o (keyOf o))
  let s := { s with
    geo := { rts := rts }
    smp := {}
    cors := []
    str := {}
    hist := [(0, c)] }
  let s := (outKeys s c).foldl restOut s
  let s := commitPlan s c 0
  let s := (corChanges s c).foldl restCor s
  let s := { s with str := { s.str with
    rx := c.rx.map fun e => (e.1, [newRx 0 e.2.words])
    tx := c.tx.map fun e =>
      let r := newTx s.blockLen 0 e.2.words
      (e.1, [{ r with masks := [(0, e.2.mask)] }]) } }
  let s := bufRegs ((placeRx s).getD s)
  let s := ecCommit 0 {} s
  wellRegs (corMemRegs (stepSos true (routeChanges 0 {} true s)))

/-- Restore from the journal: checkpoint, sealed records, runtime. A module that boots is in no gang and numbers its own outputs
(`boot`). The answer says whether there was anything to restore, and whether an unsealed record was dropped. -/
def restoreTables (boot : Bool) (s : State) : State × Bool × Bool :=
  let c := s.jnl.chk
  let recs := match s.jnl.clean with
    | some n => s.jnl.recs.filter fun r => decide (r.seq ≤ n)
    | none => s.jnl.recs
  let l := replayable recs.length c.seq recs
  let any := c.seq != 0 || !l.1.isEmpty
  let rts := c.keys.map fun (e : Nat × KeySt) =>
    let r : ObjRt := { anchor := e.2.anchor, prev := e.2.prev, queue := e.2.queue }
    (e.1, r)
  let last := c.seq + l.1.length
  let end_ := match l.1.getLast? with
    | some r => (r.off + r.len) % ringBytes
    | none => c.ringOff
  let s := { s with
    cm := c.cm
    geo := { s.geo with rts := rts }
    ecs := c.progs.map fun (e : Nat × Tab (BitVec 64)) => (e.1, ({ prog := e.2 } : EcCore))
    jnl := { s.jnl with
      coefs := c.coefs
      active := c.active
      recs := s.jnl.recs.filter fun r => decide (r.seq ≤ last)
      seq := last
      ringOff := end_
      bg := none } }
  let s := l.1.foldl replayRec (s.setNat64 R.cmdEpochTickLo c.tick)
  let s := if boot then { s with cm := s.cm.setNum {} } else s
  ((buildRuntime s).setNat R.cmdEpoch s.cm.epoch, any, l.2.isSome && s.jnl.clean.isNone)

/-- Outputs that wait for coefficients the journal names (R123). -/
def missingCoefs (s : State) : Tab (List CoefWait) :=
  s.jnl.coefs.filter fun (e : Nat × List CoefWait) => corMode (corCfgAt s.cm e.1) != 0

/-- Hold outputs for missing coefficients. -/
def holdCoefs (s : State) : State :=
  let l := missingCoefs s
  let s := { s with cmd := { s.cmd with coefHold := l } }
  s.setBit R.cmdJnlStatus 2 (!l.isEmpty)

/-- Boot restores (R122): every output under the recovery hold. -/
def restoreScene (s : State) : State :=
  let r := restoreTables true s
  if r.2.1 then
    let s := holdCoefs r.1
    let s := { s with cmd := { s.cmd with recHold := List.range s.outputs, recRelease := none } }
    let s := ((s.setBit R.cmdJnlStatus 0 true).setBit R.cmdJnlStatus 1 true).setBit R.cmdJnlStatus 3 r.2.2
    s.setNat R.cmdJnlEpoch s.cm.epoch
  else
    let s := { r.1 with cm := { r.1.cm with epoch := 0 } }
    s.setBit R.cmdJnlStatus 3 r.2.2

end Sys2Proof.Machine
end

