-- ==== Sys2Proof/Machine/Judge.lean ====
section
/-! DEFINITION. The checks of a transaction at the pass (R107, R108), the packet that decides a failure (R555), and the loads the
work check counts (R24, R87, R141). -/

namespace Sys2Proof.Machine

/-- STAGE_INDEX where no packet decides. -/
def noStage : Nat := 0xFFFFFFFF

/-- A transaction under judgement: the state its predecessors of the pass leave, the state before the pass, effective block,
packets, register writes. -/
structure Case where
  s : State
  base : State
  k : Nat
  fwSos : Bool
  pks : List Packet
  regs : List (Nat × Word)
deriving DecidableEq, Repr

/-- Packets of a case; the register writes count as one after the staged ones (R555). -/
def Case.size (x : Case) : Nat := x.pks.length + b2n (!x.regs.isEmpty)

/-- The tables after the first `i` packets. -/
def Case.pre (x : Case) (i : Nat) : State :=
  applyTables x.k x.fwSos (x.pks.take i) (if x.pks.length < i then x.regs else []) x.s

def Case.post (x : Case) : State := x.pre x.size

/-- The packet after which a whole-table rule is broken for good. -/
def Case.decider (x : Case) (bad : Nat → Bool) : Nat :=
  ((List.range x.size).reverse.find? fun i => !bad i).getD noStage

/-- The last packet that adds to a quantity. -/
def Case.lastAdder (x : Case) (q : Nat → Nat) : Nat :=
  ((List.range x.size).reverse.find? fun i => decide (q i < q (i + 1))).getD noStage

/-- FAIL_OPCODE; the register writes travel as an OP_REG_WRITE. -/
def Case.opOf (x : Case) (i : Nat) : Nat :=
  if i = noStage then 0
  else match x.pks[i]? with
    | some p => p.op
    | none => 0x0106

/-! ### Register values (R64, R93, R117, R156, R237, R280, R306) -/

def wordsAt (c : Committed) (a n : Nat) : List Word := (List.range n).map fun i => c.reg (a + 4 * i)

def inArr (a first n : Nat) : Bool := decide (first ≤ a) && decide (a < first + n)

/-- A register write whose value, or the record it is part of, is out of range; `c` is the state after the transaction. -/
def regBad (s : State) (c : Committed) (e : Nat × Word) : Bool :=
  let a := e.1
  let v := e.2
  if a = R.geoSosNom then decide (v.toNat < 0x3E800000) || decide (0x64000000 < v.toNat)
  else if a = R.pmpWellDflt then v == 0 || decide (256 < v.toNat)
  else if inArr a R.smpOut 0x1000 then !smpOutOk v
  else if inArr a R.smpSp 0x100 then !smpSpOk s.outputs v
  else if inArr a R.smpSpGain 0x100 then fld v 31 16 != 0 || !gainCodeOk (fld v 15 0)
  else if inArr a R.corCfg 0x4000 then
    let o := 4 * (a % 0x1000 / 4)
    !corRegsOk s.rate96 (c.reg (R.corCfg + o)) (c.reg (R.corLen + o)) (c.reg (R.corPd + o)) (c.reg (R.corXf + o))
  else if a = R.cmdRouteXfade then v == 0 || decide (1000 < v.toNat)
  else if inArr a R.cmdRamp 20 then fld v 30 14 != 0 || fld v 13 0 == 0 || decide (10000 < fld v 13 0)
  else if inArr a R.netCfg 0x200 then
    let p := (a - R.netCfg) / 0x80
    !netPortOk (wd p :: (wordsAt c (portReg p 0) 10 ++ List.replicate 6 0))
  else if inArr a R.timPtpCfg 0x40 then !ptpOk (wordsAt c R.timPtpCfg 16)
  else if inArr a R.timRefCfg 0x10 then !refOk s (wordsAt c R.timRefCfg 4)
  else if inArr a R.sapAdmCfg 0x20 then !admCfgOk s (wordsAt c R.sapAdmCfg 8)
  else if inArr a R.sapCfg 0x1000 then
    match (a - R.sapCfg) % 0x80 with
    | 0 => !sapCfgOk v
    | 4 => !sapObjOk s v
    | 8 => !sapOutOk s v
    | _ => false
  else false

/-! ### Check 1: whole tables -/

/-- Records a transaction gathers from parts that are malformed: no LAST, wrong shape, a single array entry (R43, R44, R266). -/
def partFails (x : Case) : List Nat :=
  let lay := (gatherParts 0x0402 x.pks).filter fun (e : Nat × Parts) =>
    !e.2.last || (!(e.2.members.isEmpty && e.2.tris.isEmpty) && layoutShapeBad e.2)
  let arr := (gatherParts 0x0403 x.pks).filter fun (e : Nat × Parts) => !e.2.last || e.2.entries.length == 1
  (lay ++ arr).map (·.2.stage)

/-- Layouts that a transaction writes, or a vertex of which it moves. -/
def touchedLayouts (c0 c1 : Committed) : List Layout :=
  (c1.layouts.filter fun (e : Nat × Layout) =>
    tabGet c0.layouts e.1 != some e.2 || e.2.vertices.any fun o => (c0.spk o).pos != (c1.spk o).pos).map (·.2)

/-- Faults of the region map (R285). -/
def mapParamBad (c : Committed) : Bool :=
  (List.range 4).any (fun r => (regionBanks c r).isEmpty) ||
  (List.range 256).any fun n => decide (4 < bankRegion c n) || (decide (bankRegion c n < 4) && !bit (bankCfg c n) 8)

/-- Whole-table rules that end with ST_BAD_PARAM. -/
def tableBad (x : Case) (s : State) : Bool :=
  let c0 := x.s.cm
  let c := s.cm
  (touchedLayouts c0 c).any (layoutGeomBad c) ||
  ((c0.arrays != c.arrays || c0.spks != c.spks) && arraysBad c) || standpipeBad c ||
  (mapMoved c0 c && mapParamBad c) || meaBad s c || strParamBad s c || insertsBad s c0 c

/-! ### Check 2: resources -/

/-- Keyframes of an object still pending at the effective block (R37). -/
def pendingKeys (s : State) (k o : Nat) : Nat := ((s.rt o).queue.filter fun q => decide (evalPoint s.blockLen k < (q.time : Int))).length

/-- Active pairs a module may hold (R47). -/
def pairCap (s : State) : Nat := (if s.modId.variant = 2 then 262144 else 1048576) / (if s.rate96 then 2 else 1)

/-- The paths of block `k` as the transactions of the pass would leave them. -/
def legsAt (x : Case) (s : State) : State :=
  let cut := bit (s.cm.reg R.geoSosCtrl) 1
  let s := smpCommit x.k s
  modeFades x.k (routeChanges x.k x.base.cm cut (s.setLegs (endCuts x.k x.base.geo.legs)))

/-- Pairs of a set of paths. -/
def pairCount (s : State) : Nat := (s.geo.legs.filter (·.kind != .xfOut)).length

def xpCount (c : Committed) : Nat := (c.xps.filter (·.en)).length

def triCount (c : Committed) : Nat := sumNat (c.layouts.map fun e => e.2.tris.length)

/-- Units of wells that the first `i` packets ask for (R67). -/
def wellWant (x : Case) (i : Nat) : Nat :=
  let c := (x.pre i).cm
  let sizes := wellSizes (x.pks.take i)
  sumNat (sizes.map (·.2)) + (leavers x.s.cm c sizes).length * fld (c.reg R.pmpWellDflt) 8 0

/-! ### Check 3: state -/

/-- The map may change: outputs muted, banks free, correction and streams clear of the banks that leave (R285). -/
def mapStateBad (s : State) (c0 c : Committed) (k : Nat) : Bool :=
  let leaves (r : Nat) : List Nat := (List.range 256).filter fun n => bankRegion c0 n == r && bankRegion c n != r
  let touches (l : List Nat) (a : Run) : Bool := l.any fun n => decide (a.1 < (n + 1) * 512) && decide (n * 512 < a.1 + a.2)
  let corBad := s.cors.any fun (e : Nat × CorRt) =>
    (match e.2.alloc with
     | some a => touches (leaves 1) a
     | none => false) && !(corMode (corCfgAt c e.1) == 0 && corPd (corPdAt c e.1) == 0)
  !allMuted s c k || (leaves 4).any (fun n => bankOwner s n != 0) || corBad || (rxOcc s).any (touches (leaves 2))

/-- Outputs whose banks the transaction clears into a mode with correction (R146). -/
def clearing (x : Case) (c : Committed) : List Nat :=
  (corChanges x.s c).filter fun o =>
    let n := (x.s.cor o).next
    corClears (n.1, n.2.1) (corCfgAt c o, corLenAt c o) && corMode (corCfgAt c o) != 0

/-- Loads that a case stages. -/
def Case.loads (x : Case) : List (Nat × CorLoad) :=
  (x.pks.filter fun p => p.op == 0x0602 && isHere x.s p).map fun p => corLoadOf p.payload

/-- One of them is never given its bank A (R146). -/
def bankABad (x : Case) (c : Committed) : Bool :=
  (clearing x c).any fun o => !(x.loads.any fun l => l.1 == o && !l.2.bank)

/-- The bank has taken a load since its last clearing, in the state `s` of a prefix (R147). -/
def hasLoad (x : Case) (c : Committed) (s : State) (o : Nat) (bank : Bool) : Bool :=
  let r := s.cor o
  let own := r.loads.drop (x.s.cor o).loads.length
  let waitClear := match r.pend with
    | some p => corClears (r.cfg, r.len) (p.1, p.2.1)
    | none => false
  if (clearing x c).contains o then own.any (·.bank == bank)
  else if waitClear then r.loads.any (·.bank == bank)
  else (r.bank bank).loaded || r.loads.any (·.bank == bank)

/-! ### Rules a packet breaks alone -/

/-- Taps of a band in the configuration committed with the transaction (R267). -/
def bandTaps (B : Nat) (c : Committed) (l : Nat × CorLoad) : Nat :=
  let len := corLenAt c l.1
  if l.2.low then (if corMode (corCfgAt c l.1) = 2 then corNL len * B else 0) else corNF len * B

/-- Pairs a list of crosspoint packets names. -/
def xpNames (l : List Packet) : List Nat :=
  (l.filter (·.op == 0x0502)).flatMap fun p => (listOf 2 p.payload).map fun w => fld (wAt w 0) 17 0

/-- Status of packet `i` by itself; `s` is the state its predecessors leave, `c` the committed state after the transaction. -/
def ownStatus (x : Case) (c : Committed) (i : Nat) (s : State) (pk : Packet) : Nat :=
  let p := pk.payload
  if !(isHere s pk || pk.op / 256 == 0x0C || pk.op == 0x0106) then stOk
  else
    match pk.op with
    | 0x0106 => if ((regPairs p).filter fun e => isHere s pk || sceneReg e.1).any (regBad s c) then stBadParam else stOk
    | 0x0502 => if noDup (xpNames ((x.pks.take i).filter (isHere s) ++ [pk])) then stOk else stBadParam
    | 0x0602 =>
      let l := corLoadOf p
      if bandTaps s.blockLen c l < l.2.first + l.2.taps.length then stBadParam
      else if (clearing x c).contains l.1 || (matchHold s l.1 l.2).isSome then stOk
      else if bankInUse (predict (s.cor l.1) x.k) l.2.bank then stBadState else stOk
    | 0x0603 => if (swapsOf p).all (fun e => hasLoad x c s e.1 e.2) then stOk else stBadState
    | 0x0801 => if ecLoadBad x.s p then stBadState else stOk
    | 0x0802 => if detachBad s.cm p then stBadState else stOk
    | 0x0901 | 0x0902 | 0x0903 | 0x0904 => strStatus s.cm pk.op p
    | 0x0A02 => if pathAcceptBad s then stBadState else stOk
    | 0x0C01 => if isHere s pk then gangFormStatus s c p else stOk
    | 0x0C02 => gangLeaveStatus s c p
    | 0x0C03 => if isHere s pk then mirFormStatus s c p else stOk
    | 0x0C04 => mirRoleStatus s p
    | _ => stOk

/-- Failures of packets by themselves, as staging index and status. -/
def ownFails (x : Case) (c : Committed) : List (Nat × Nat) :=
  let r := (x.pks.zipIdx).foldl (fun (s, (l : List (Nat × Nat))) (pk, i) =>
    let st := ownStatus x c i s pk
    (applyPacket x.k x.fwSos s pk, if st = stOk then l else l ++ [(i, st)])) (x.s, [])
  r.2

/-- The check of R107 that a status belongs to. -/
def checkOf (st : Nat) : Nat := if st = stBadParam then 1 else if st = stNoResource then 2 else 3

/-- First failure of checks 1 to 3: status and staging index. `full` says that the journal has no room for the record. -/
def checkTables (x : Case) (full : Bool) : Option (Nat × Nat) :=
  let s := x.post
  let c0 := x.s.cm
  let c := s.cm
  let own := ownFails x c
  let ownOf (n : Nat) : List (Nat × Nat) := own.filter fun e => checkOf e.2 == n
  let least (l : List (Nat × Nat)) : Option (Nat × Nat) := (sortBy (·.1) l).head?.map fun e => (e.2, e.1)
  let at_ (i : Nat) : State := x.pre i
  let regF := if x.regs.any (regBad s c) then [(x.pks.length, stBadParam)] else []
  let tab := if tableBad x s then [(x.decider fun i => tableBad x (at_ i), stBadParam)] else []
  let one := ownOf 1 ++ (partFails x).map (fun i => (i, stBadParam)) ++ regF ++ tab
  match least one with
  | some f => some f
  | none =>
    let nr (b : Bool) (i : Unit → Nat) : List (Nat × Nat) := if b then [(i (), stNoResource)] else []
    let keys := (s.geo.rts.filter fun (e : Nat × ObjRt) => decide (8 < pendingKeys s x.k e.1)).flatMap fun (e : Nat × ObjRt) =>
      nr true fun _ => x.lastAdder fun i => pendingKeys (at_ i) x.k e.1
    let pairs := nr (decide (pairCap s < pairCount (legsAt x s))) fun _ => x.lastAdder fun i => pairCount (legsAt x (at_ i))
    let wells := nr ((wellsAfter x.k c0 c x.pks).isNone) fun _ => x.lastAdder (wellWant x)
    let xps := nr (decide (65536 < xpCount c)) fun _ => x.lastAdder fun i => xpCount (at_ i).cm
    let tris := nr (decide (4096 < triCount c)) fun _ => x.lastAdder fun i => triCount (at_ i).cm
    let crowd (i : Nat) : Bool := (touchedLayouts c0 (at_ i).cm).any (layoutCrowded (at_ i).cm)
    let cells := nr ((touchedLayouts c0 c).any (layoutCrowded c)) fun _ => x.decider crowd
    let cor := nr (planCor s c x.k).isNone fun _ => x.decider fun i => (planCor (at_ i) (at_ i).cm x.k).isNone
    let bufs := nr ((placeRx s).isNone || (mapMoved c0 c && strRegionBad s c)) fun _ => x.decider fun i =>
      (placeRx (at_ i)).isNone || strRegionBad (at_ i) (at_ i).cm
    let band := nr (bandwidthBad s c) fun _ => x.decider fun i => bandwidthBad (at_ i) (at_ i).cm
    let jnl := nr full fun _ => noStage
    match least (ownOf 2 ++ keys ++ pairs ++ wells ++ xps ++ tris ++ cells ++ cor ++ bufs ++ band ++ jnl) with
    | some f => some f
    | none =>
      let free (i : Nat) : Bool := badFree (at_ i).cm (x.pks.take i)
      let bs (b : Bool) (bad : Nat → Bool) : List (Nat × Nat) := if b then [(x.decider bad, stBadState)] else []
      let three := ownOf 3 ++ bs (badFree c x.pks) free ++ bs (pilotBad c) (fun i => pilotBad (at_ i).cm) ++
        bs (admBad c) (fun i => admBad (at_ i).cm) ++
        bs (acquireBad s x.base.cm c x.k) (fun i => acquireBad (at_ i) x.base.cm (at_ i).cm x.k) ++
        bs (mapMoved c0 c && mapStateBad s c0 c x.k) (fun i => mapMoved c0 (at_ i).cm && mapStateBad (at_ i) c0 (at_ i).cm x.k) ++
        bs (bankABad x c) (fun i => (clearing x (at_ i).cm).any fun o => !(x.loads.any fun l => l.1 == o && !l.2.bank))
      match least three with
      | none => none
      | some (st, i) => some (st, if st = stTimeout ∨ st = stPartnerDisagree then noStage else i)

/-! ### Loads (R24, R87, R108, R141, R268) -/

/-- Blocks of the objects' cuts known at the pass: object and block (R40). A late keyframe is no cut that is reserved. -/
def knownCuts (s : State) (k : Nat) : List (Nat × Nat) :=
  let B := s.blockLen
  (evalObjects s).flatMap fun o =>
    let r := s.rt o
    (if r.placed then [(o, k)] else []) ++
    (r.queue.filter fun q => q.cut && decide (evalPoint B (k - 1) < (q.time : Int))).map fun q => (o, q.time / B)

/-- Mode switches still to come: output, block, blocks of the fade (R84). A switch not yet made is taken at the first block after
its ramp that geometry will not have published. -/
def knownSwitches (s : State) : List (Nat × Nat × Nat) :=
  s.smp.outs.filterMap fun (e : Nat × OutRt) => match e.2.change with
    | some c => if c.sp = e.2.sp then none else some (e.1, c.sw.getD (c.due + 3), c.len)
    | none => none

/-- Crosspoints charged: pump and, for one ramping out, the first block without it. -/
def xpLoads (x : Case) (s : State) : List (Nat × Option Nat) :=
  let cms := s.cm :: x.base.hist.map (·.2)
  let run := s.smp.xps.map fun (r : XpRt) =>
    let on := s.cm.xps.any fun y => y.en && y.din == r.din && y.out == r.out
    let off := if r.ramp.toDb = -32768 then r.ramp.start + r.ramp.len else x.k + msBlocks (fld (rampClass s.cm 3) 13 0)
    (r.out / 32, if on then none else some off)
  let new := (cms.flatMap (·.xps)).filter fun y => y.en && !(s.smp.xps.any fun r => r.din == y.din && r.out == y.out)
  let ids := (new.map xpKey).dedup
  run ++ ids.map fun i =>
    let on := s.cm.xps.any fun y => y.en && xpKey y == i
    (i / 256 / 32, if on then none else some (x.k + msBlocks (fld (rampClass s.cm 3) 13 0)))

/-- A chain with every change of configuration that is committed, or would be at `k`, waiting for its switch (R152). -/
def chainAhead (x : Case) (s : State) (o : Nat) : CorRt :=
  let cms := (x.base.hist.filter fun e => decide (x.base.tick ≤ e.1)).reverse ++ [(x.k, s.cm)]
  cms.foldl (fun (r : CorRt) (e : Nat × Committed) =>
    let want := corWant e.2 o
    if sameCfg want r.next then r
    else { r with pend := some want, w := switchBlock e.2 r e.1, supp := if r.supp == .hold then .hold else .down }) (s.cor o)

/-- Partitions of a chain in block `b`; a standpipe output's chain is not run (R131). -/
def partsAt (B b : Nat) (r : CorRt) : Nat :=
  match r.pend with
  | some p =>
    if r.w ≤ b then corParts B p.1 p.2.1
    else corParts B r.cfg r.len * (if (predict r b).fade.isSome then 2 else 1)
  | none => corParts B r.cfg r.len * (if (predict r b).fade.isSome && r.supp != .hold then 2 else 1)

/-- Ends of the fades of a chain from block `b` on. -/
def fadeEnds (r : CorRt) : Nat → Nat → List Nat
  | 0, _ => []
  | n + 1, b => match (predict r b).fade with
    | some f => (f.start + f.len) :: fadeEnds r n (f.start + f.len)
    | none => []

/-- What the work check follows over the blocks of a case. -/
structure Loads where
  legs : List Leg
  xps : List (Nat × Option Nat)
  chains : List (Nat × CorRt)
  cuts : List (Nat × Nat)
  switches : List (Nat × Nat × Nat)
  decls : List Nat
deriving DecidableEq, Repr

def loadsOf (x : Case) (s : State) : Loads :=
  let s := legsAt x s
  let outs := (corOutputs s s.cm ++ s.cors.map (·.1)).dedup
  { legs := s.geo.legs
    xps := xpLoads x s
    chains := outs.map fun o => (o, chainAhead x s o)
    cuts := knownCuts s x.k
    switches := knownSwitches s
    decls := (List.range 16).map fun c =>
      if ecRunBit s.cm c || (s.ec c).runOn then fld (s.cm.reg (ecReg c 0x14)) 31 0 else 0 }

/-- Blocks at which a load can change. -/
def Loads.events (l : Loads) (k : Nat) : List Nat :=
  let legs := (l.legs.filter (·.kind != .plain)).map fun g => g.start + g.len
  let cor := l.chains.flatMap fun (e : Nat × CorRt) => fadeEnds e.2 4 k ++ (if e.2.pend.isSome then [e.2.w] else [])
  let all := legs ++ l.xps.filterMap (·.2) ++ cor ++ l.cuts.flatMap (fun e => [e.2, e.2 + 1]) ++
    l.switches.flatMap fun e => [e.2.1, e.2.1 + e.2.2]
  sortBy id ((k :: all.filter fun b => decide (k < b)).dedup)

/-- The paths move on to block `b`: fades end, modes switch, objects cut. -/
def Loads.step (s : State) (l : Loads) (k b : Nat) : Loads :=
  let ended (g : Leg) : Bool := g.kind != .plain && decide (g.start + g.len ≤ b)
  let legs := endCuts b l.legs
  let legs := (legs.filter fun g => !(ended g && g.kind == .xfOut)).map fun g => if ended g then { g with kind := .plain } else g
  let legs := (l.switches.filter fun e => e.2.1 == b && decide (k < b)).foldl (fun legs e =>
    let objs := ((legs.filter (·.out == e.1)).map (·.obj)).dedup
    objs.foldl (fun legs o => if (s.rt o).rule != 0 then legs else fadePairs b e.2.2 0 o [e.1] [e.1] legs) legs) legs
  let legs := (l.cuts.filter fun e => e.2 == b).foldl (fun legs e => cutPairs b e.1 legs) legs
  { l with legs := legs }

/-- Every quantity of block `b` in the order of R108: unit, index, load, cap. -/
def Loads.at_ (s : State) (l : Loads) (b : Nat) : List (Nat × Nat × Nat × Nat) :=
  let B := s.blockLen
  let xps := l.xps.filter fun e => match e.2 with
    | some x => decide (b < x)
    | none => true
  let pump (p : Nat) : Nat := ((l.legs.filter fun g => g.out / 32 == p).length + (xps.filter fun e => e.1 == p).length) * B
  let parts := sumNat (l.chains.map fun (e : Nat × CorRt) => if (s.outRt e.1).spAt b then 0 else partsAt B b e.2)
  (List.range 32).map (fun p => (0, p, pump p, pumpCap)) ++
  [(1, 0, (l.legs.length + xps.length) * B, moduleCap s), (2, 0, l.legs.length, 6000000), (3, 0, parts, 132710)] ++
  (l.decls.zipIdx).map fun (d, c) => (4, c, d, 750000)

/-- Greatest loads admitted (R117): pump, module, evaluations, partitions. -/
def peakOf4 (p : List Nat) (q : List (Nat × Nat × Nat × Nat)) : List Nat :=
  (List.range 4).map fun u => maxNat (p.getD u 0 :: (q.filter fun e => e.1 == u).map (·.2.2.1))

/-- The work check (R108): the first failure as unit, index, tick offset, demand, cap; and the peaks. -/
def workCheck (x : Case) (s : State) : Option (Nat × Nat × Nat × Nat × Nat) × List Nat :=
  let l := loadsOf x s
  let r := (l.events x.k).foldl (fun (r : Option (Nat × Nat × Nat × Nat × Nat) × List Nat × Loads) b =>
    if r.1.isSome then r
    else
      let l := r.2.2.step s x.k b
      let q := l.at_ s b
      let bad := (q.find? fun e => decide (e.2.2.2 < e.2.2.1)).map fun e => (e.1, e.2.1, b - x.k, e.2.2.1, e.2.2.2)
      (bad, peakOf4 r.2.1 q, l)) (none, [], l)
  (r.1, r.2.1)

/-- Load of one quantity in block `b` after the first `i` packets. -/
def loadAfter (x : Case) (u idx b : Nat) (i : Nat) : Nat :=
  let s := x.pre i
  let l := loadsOf x s
  let l := ((l.events x.k).filter fun e => decide (e ≤ b)).foldl (fun (l : Loads) e => l.step s x.k e) l
  (((l.at_ s b).find? fun e => e.1 == u && e.2.1 == idx).map (·.2.2.1)).getD 0

/-! ### The verdict (R105, R107) -/

/-- Samples by which a transaction is late at effective block `k` (R105). -/
def lateness (s : State) (t : Txn) (k : Nat) : Nat := if t.mode1 then (k - ceilDiv t.t s.blockLen) * s.blockLen else 0

/-- Checks 1 to 5 of R107, and the peaks of a transaction that passes. -/
def judge (x : Case) (late lateMax : Nat) (full : Bool) : Verdict × List Nat :=
  match checkTables x full with
  | some (st, i) => ({ status := st, stage := i, failOp := x.opOf i }, [])
  | none =>
    if 0 < late ∧ lateMax < late ∧ lateMax ≠ 0xFFFFFFFF then ({ status := stLate, lateness := late, discarded := true }, [])
    else
      let s := x.post
      let w := workCheck x { s with cm := (wellsAfter x.k x.s.cm s.cm x.pks).getD s.cm }
      match w.1 with
      | some (u, idx, off, dem, cap) =>
        let st := x.lastAdder (loadAfter x u idx (x.k + off))
        ({ status := stBudget, stage := st, failOp := x.opOf st, budget := some (u, idx, off, dem, cap), lateness := late }, [])
      | none => ({ status := if 0 < late then stLate else stCommitted, lateness := late }, w.2)

end Sys2Proof.Machine
end

