-- ==== Sys2Proof/Machine/Admit.lean ====
section
/-! DEFINITION. The admission pass (R102 to R111), a leader's verdicts (R450, R454), and the commit at a boundary (R106, R121). -/

namespace Sys2Proof.Machine

/-! ### Who leads -/

/-- This unit's epochs come from a leader: a gang member, or a unit of a pair that is not PREFERRED. -/
def isFollower (s : State) : Bool :=
  gangRole s == 2 || ((mirSt s == 2 || (decide (4 ≤ mirSt s) && decide (mirSt s ≤ 7))) && !isPref s)

/-- The partner of a leader that takes part in its passes. -/
def partnerId : Nat := 16

/-- A module that rejoins commits in step from a boundary it named (R466). -/
def joinsBy (j : Option Nat) (c : Nat) : Bool := match j with
  | some b => decide (b ≤ c)
  | none => false

/-- Modules whose verdict the pass for boundary `c` awaits: members in order, then the partner (R450, R451, R454, R466). -/
def voters (s : State) (c : Nat) : List Nat :=
  let mem := (s.nyl.members.filter fun (e : Nat × MemberSt) => e.2.phase == 2 || (e.2.phase != 4 && joinsBy e.2.join c)).map (·.1)
  (if gangRole s = 1 then sortBy id mem else []) ++
  (if isPref s && (partnerUp s || joinsBy s.mir.join c) && (pairLinks s).any (linkUp s) then [partnerId] else [])

/-- Modules that hold copies of what is staged. -/
def copyHolders (s : State) : List Nat :=
  let mem := (s.nyl.members.filter fun (e : Nat × MemberSt) => e.2.phase == 2 || (e.2.phase != 4 && e.2.join.isSome)).map (·.1)
  (if gangRole s = 1 then sortBy id mem else []) ++
  (if isPref s && (partnerUp s || s.mir.join.isSome) && (pairLinks s).any (linkUp s) then [partnerId] else [])

/-- A packet is local to one unit of a pair (R454). -/
def netLocal (pk : Packet) : Bool :=
  pk.op == 0x0905 || (pk.op == 0x0106 && !(regPairs pk.payload).isEmpty && (regPairs pk.payload).all fun e => e.1 / 0x10000 == 0xB)

/-- A transaction touches this unit only. -/
def isOwnOnly (s : State) (t : Txn) : Bool :=
  isFollower s || (inPair s && !t.packets.isEmpty && t.packets.all netLocal)

/-- Send to a member or to the partner. -/
def sendVoter (s : State) (m kind : Nat) (args : List Nat) (bytes : List Byte) : State :=
  if m = partnerId then sendPartner s kind (0 :: args) bytes else sendMember s m kind args bytes

/-- Send to the leader of this module: the partner when it leads the pair, else the module above. -/
def sendLead (s : State) (kind : Nat) (args : List Nat) (bytes : List Byte) : State :=
  if inPair s && !isPref s && gangRole s != 2 then sendPartner s kind (0 :: args) bytes else sendUp s kind args bytes

/-! ### Verdicts on a link

Arguments after the target: the leader's number of the transaction, the voter and its path, then the verdict. -/

def verdictArgs (v : Verdict) : List Nat :=
  let b := match v.budget with
    | some (u, i, o, d, c) => [1, u, i, o, d, c]
    | none => [0, 0, 0, 0, 0, 0]
  [v.status, v.stage, v.failOp, v.lateness, b2n v.discarded] ++ b

def verdictOf (l : List Nat) : Verdict :=
  let x (i : Nat) : Nat := l.getD i 0
  { status := x 0
    stage := x 1
    failOp := x 2
    lateness := x 3
    discarded := x 4 == 1
    budget := if x 5 = 1 then some (x 6, x 7, x 8, x 9, x 10) else none }

/-- The verdict commits. -/
def Verdict.ok (v : Verdict) : Bool := v.status == stCommitted || (v.status == stLate && !v.discarded)

/-! ### Admission -/

/-- The epoch number after `e` (R106). -/
def nextEpoch (e : Nat) : Nat := if e = 0xFFFFFFFF then 1 else e + 1

/-- Pending register writes leave the list (R102). -/
def takeRegs (s : State) : State × List (Nat × Word) :=
  ({ s with cmd := { s.cmd with rwe := [] } }, s.cmd.rwe.map fun e => (e.1, e.2.1))

/-- A transaction as the checks see it: `base` is the state before the pass, `w` what its earlier transactions leave. -/
def caseOf (base w : State) (t : Txn) (c : Nat) : Case :=
  { s := w
    base := base
    k := c + 2
    fwSos := t.fwSos
    pks := t.packets
    regs := t.regs }

/-- What later transactions of a pass are judged against. -/
def afterTxn (w : State) (t : Txn) (c : Nat) : State :=
  (applyTxn (c + 2) t.fwSos t.packets t.regs w).getD w

/-- Judge a transaction for boundary `c`. -/
def judgeTxn (s base w : State) (t : Txn) (c : Nat) : Verdict × List Nat :=
  judge (caseOf base w t c) (lateness s t (c + 2)) t.lateMax (jnlFull s (recSize t.packets t.regs))

/-- A verdict is final here: a record for what is admitted (R121). -/
def conclude (s : State) (t : Txn) (v : Verdict) : State :=
  let t := { t with verdict := v, undecided := false, awaits := [] }
  if v.ok then
    let e := if t.ownOnly then s.cm.epoch else nextEpoch s.cm.epoch
    let off := s.jnl.ringOff
    let s := writeRec s t.id e t.boundary t.packets t.regs
    s.putTxn { t with phase := .admitted, jrec := some (off, s.jnl.seq) }
  else s.putTxn { t with phase := .refused }

/-- Tell those that voted (R450). -/
def tellDecision (s : State) (t : Txn) (v : Verdict) : State :=
  let e := nextEpoch s.cm.epoch
  (t.votes.map (·.1)).foldl (fun s m =>
    if v.ok then sendVoter s m mkCommit [t.lead.getD t.num, t.boundary, e] []
    else sendVoter s m mkVerdict ([t.lead.getD t.num, 0, 0] ++ verdictArgs v) []) s

/-- The combined verdict and the path of the module that decided a failure (R450, R454). -/
def combine (t : Txn) : Verdict × Option Nat :=
  let ask := sortBy id ((t.awaits ++ t.votes.map (·.1)).filter (· != partnerId))
  let voteOf (m : Nat) : Nat × Verdict := match t.votes.find? (·.1 == m) with
    | some x => (m + 16 * x.2.1, x.2.2)
    | none => (m, { status := stTimeout })
  let gang := if t.verdict.ok then (ask.map voteOf).find? fun x => !x.2.ok else some (0, t.verdict)
  let g : Verdict × Option Nat := match gang with
    | some (p, v) => (v, some p)
    | none => (t.verdict, none)
  if t.awaits.contains partnerId then
    (if g.1.ok then ({ status := stTimeout }, g.2) else g)
  else
    match t.votes.find? (·.1 == partnerId) with
    | some x => if x.2.2.status = g.1.status then g else ({ status := stPartnerDisagree }, g.2)
    | none => g

/-- Decide a transaction whose verdicts are in: the top leader concludes, an inner one answers (R450). -/
def decideTxn (s : State) (t : Txn) : State :=
  let r := combine t
  let s := match r.2 with
    | some p => if gangRole s = 1 then s.setNat R.nylAdmFail p else s
    | none => s
  match t.lead with
  | none => tellDecision (conclude s t r.1) t r.1
  | some n =>
    let s := s.putTxn { t with verdict := r.1, undecided := false, awaits := [], needGo := r.1.ok }
    sendLead s mkVerdict ([n, if gangRole s = 2 then gangMe s else partnerId, r.2.getD 0] ++ verdictArgs r.1) []

/-- Decide what can be decided, in pass order; at the end of the wait everything (R450). -/
def decideReady (force : Bool) (s : State) : State :=
  let l := sortBy (fun (t : Txn) => t.acc.getD t.num) (s.cmd.txns.filter (·.undecided))
  (l.foldl (fun (a : State × Bool) t =>
    if a.2 || !(force || t.awaits.isEmpty) then (a.1, true) else (decideTxn a.1 t, false)) (s, false)).1

/-- Ask for verdicts. A firmware transaction's packets were staged here alone and go ahead of the question. -/
def sendAdmit (s : State) (t : Txn) (m : Nat) (late : Nat) : State :=
  let n := t.lead.getD t.num
  let s := if t.fw then t.packets.foldl (fun s pk =>
    sendVoter s m mkStaged [n, t.id, pk.op, pk.depth, pk.path, 1] pk.payload) s else s
  sendVoter s m mkAdmit [n, t.boundary, late, t.lateMax, t.id] (t.regs.flatMap fun e => leBytes 4 e.1 ++ bytesOfWord e.2)

/-- One transaction of the pass for boundary `c`: the state, and what the next one is judged against. -/
def passOne (c : Nat) (base : State) (a : State × State) (t : Txn) : State × State :=
  let r := if isFollower base then (a.1, []) else takeRegs a.1
  let s := r.1
  let t := { t with regs := r.2, boundary := c, ownOnly := isOwnOnly s t }
  let j := judgeTxn s base a.2 t c
  let t := { t with verdict := j.1, peaks := j.2 }
  let ask := if t.ownOnly then [] else voters s c
  let s := if ask.isEmpty then conclude s t j.1
    else
      let t := { t with awaits := ask, undecided := true }
      ask.foldl (fun s m => sendAdmit s t m (lateness s t (c + 2))) (s.putTxn t)
  (s, if j.1.ok then afterTxn a.2 t c else a.2)

/-- Transactions due at boundary `c`, in the order of their ST_ACCEPTED (R104). -/
def dueTxns (s : State) (c : Nat) : List Txn :=
  sortBy (fun (t : Txn) => t.acc.getD 0) (s.cmd.txns.filter fun t =>
    t.phase == .accepted && t.acc.isSome && !t.undecided && (!t.mode1 || decide (ceilDiv t.t s.blockLen ≤ c + 2)))

/-- Most transactions of one pass. -/
def passMax : Nat := 16

/-- No pass starts during a supply warning, after a thermal trip, or while a reset is due (R482). -/
def passBlocked (s : State) : Bool := s.bit R.pwrStatus 3 || s.pwr.trip || s.cmd.resetDue.isSome

/-- ADMISSION_PASS (R104): cycle 500,000 of the tick. A follower's own firmware stages nothing that commits. -/
def doAdmissionPass (s : State) : State :=
  let start := s.tickClk + 500000
  if s.tickRuns && !s.cmd.passDone && s.dueOk start then
    let s := s.atClk start
    let c := s.tick + 1
    let s := if isFollower s then s.setTxns (s.cmd.txns.filter fun t => !(t.fw && t.phase == .accepted)) else s
    let due := dueTxns s c
    let s := if passBlocked s then
        due.foldl (fun s t => s.putTxn { t with phase := .refused, boundary := c, verdict := { status := stBadState } }) s
      else ((due.take passMax).foldl (passOne c s) (s, s)).1
    { s with cmd := { s.cmd with passDone := true } }
  else s

def execAdmissionPass (s : State) : Host.Outcome State Fault Refusal := .next (settle (doAdmissionPass s))

/-! ### Check only (R103, R259) -/

/-- OP_TXN_COMMIT in MODE 2: the verdict of the next pass, against the state in force. -/
def txnCheck (h : Hdr) (s : State) : State × Res :=
  match findTxn s h.txn with
  | none => (s, resErr stBadState)
  | some t =>
    match t.phase with
    | .open_ =>
      let c := if s.cmd.passDone then s.tick + 2 else s.tick + 1
      let regs := s.cmd.rwe.map fun (e : Nat × Word × Nat) => (e.1, e.2.1)
      let t := { t with used := s.clk, regs := regs }
      let v := if passBlocked s then { status := stBadState } else (judgeTxn s s s { t with mode1 := false } c).1
      (s.putTxn { t with regs := [] }, { status := v.status, result := finalResult c v, rlen := 40 })
    | .failed => (closeTxn s t t.err s.cm.epoch, resErr t.err)
    | .accepted | .admitted | .refused => (s, resErr stBadState)

/-- OP_TXN_COMMIT by its MODE. -/
def txnCommitOp (h : Hdr) (net : Option (Nat × Nat × Nat)) (p : List Byte) (s : State) : State × Res :=
  let w := wordsOf p
  let m := fld (wAt w 0) 1 0
  if badTxnId h.txn || p.length != 16 || fld (wAt w 0) 31 2 != 0 || m == 3 then (s, resErr stBadParam)
  else if m = 2 then txnCheck h s
  else txnCommit h net (m == 1) ((wAt w 1).toNat + 2 ^ 32 * (wAt w 2).toNat) (wAt w 3).toNat s

/-! ### Commit (R105, R106, R121) -/

/-- One admitted transaction takes effect. -/
def commitTxn (k : Nat) (s : State) (t : Txn) : State :=
  let c0 := s.cm
  let loads := stagedWaits s t.packets
  let s' := (applyTxn k t.fwSos t.packets t.regs s).getD (applyTables k t.fwSos t.packets t.regs s)
  noteLoads c0 loads t.packets s'

/-- Peak registers of the newest committed epoch (R117). -/
def setPeaks (s : State) (p : List Nat) : State :=
  if p.isEmpty then s
  else
    let x (i : Nat) : Nat := p.getD i 0
    (((s.setNat R.cmdAdmPumpPeak (x 0)).setNat R.cmdAdmModPeak (x 1)).setNat R.cmdAdmEvalPeak (x 2)).setNat R.cmdAdmPartPeak (x 3)

/-- Register writes discarded with their transaction (R102, R521). -/
def discardRegs (s : State) (n : Nat) : State := if n = 0 then s else s.inc R.glbCntRweDiscard n

/-- Counters and snapshot triggers of a final status (R117, R129). -/
def countFinal (s : State) (v : Verdict) : State :=
  if v.status = stBudget then (s.inc R.cmdCntBudget).snapTrig 11
  else if v.status = stLate then (s.inc (if v.discarded then R.cmdCntDiscard else R.cmdCntLate)).snapTrig 12
  else s

/-- What a firmware transaction that did not commit leaves (R100): the frames are lost, a hand-over is staged again. -/
def fwFailed (s : State) (t : Txn) : State :=
  if !t.fw then s
  else
    let s := admRefused (t.kinds.filter (· == 1)).length s
    let role := t.packets.filter fun p => p.op == 0x0C04
    if t.kinds.contains 3 && !role.isEmpty then fwStage s 3 (role.take 1) else s

/-- The final completion at its boundary. -/
def finishTxn (s : State) (t : Txn) : State :=
  let s := countFinal s t.verdict
  let s := if t.verdict.ok then s else fwFailed (discardRegs s t.regs.length) t
  let s := postFinal s t t.verdict t.boundary s.cm.epoch
  closeTxn s t t.verdict.status s.cm.epoch

/-- Tables and runtime of the transactions that commit at boundary `c`, in pass order; the answer says whether the speed of sound
jumps with them. -/
def commitAll (c : Nat) (l : List Txn) (s : State) : State × Bool :=
  if l.isEmpty then (s, false)
  else
    let k := c + 2
    let c0 := s.cm
    let before := (List.range 4).map (joined s)
    let s := sealRecs s (l.filterMap fun t => t.jrec.map (·.2))
    let s := l.foldl (commitTxn k) s
    let e := if l.all (·.ownOnly) then c0.epoch else nextEpoch c0.epoch
    let cut := bit (s.cm.reg R.geoSosCtrl) 1
    let cm := s.cm.setReg R.geoSosCtrl (clrBitW (s.cm.reg R.geoSosCtrl) 1)
    let s := { s with cm := { cm with epoch := e } }
    let s := (s.setNat R.cmdEpoch e).setNat64 R.cmdEpochTickLo c
    let s := setPeaks s ((l.getLast?.map (·.peaks)).getD [])
    let s := timCommit k c0 (commitPlan (ecCommit k c0 (smpCommit k s)) s.cm k)
    let s := bufRegs ((placeRx s).getD s)
    (wellRegs (corMemRegs (dropBypassed (rxJoins before s))), cut)

/-- Boundary `c`: seal, commit, complete. Copies that wait for COMMIT do not commit (R451). -/
def commitBoundary (c : Nat) (s : State) : State × Bool :=
  let due := s.cmd.txns.filter fun t => decide (t.boundary ≤ c)
  let adm := sortBy (fun (t : Txn) => (t.jrec.map (·.2)).getD 0) (due.filter fun t => t.phase == .admitted && !t.needGo)
  let ref := due.filter fun t => t.phase == .refused
  let r := commitAll c adm s
  let fin := sortBy (fun (t : Txn) => t.acc.getD t.num) (adm ++ ref)
  (fin.foldl finishTxn r.1, r.2)

end Sys2Proof.Machine
end

