-- ==== Sys2Proof/Machine/Mir.lean ====
section
/-! DEFINITION. What a leader and its followers do in step: forwarded commands and verdicts (R450, R451, R454), digests (R458 to R461),
replay, priming and verification (R466 to R468). -/

namespace Sys2Proof.Machine

/-! ### Forwarding (R450, R454) -/

/-- Forward a staged packet. -/
def forwardPacket (s : State) (num id : Nat) (pk : Packet) : State :=
  if inPair s && netLocal pk then s
  else (copyHolders s).foldl (fun s m => sendVoter s m mkStaged [num, id, pk.op, pk.depth, pk.path, 0] pk.payload) s

/-- Packets of a transaction so far, to a module that begins to follow. -/
def forwardTxn (m : Nat) (s : State) (t : Txn) : State :=
  if t.fw || t.ownOnly then s
  else (t.packets.filter fun pk => !(inPair s && netLocal pk)).foldl (fun s pk =>
    sendVoter s m mkStaged [t.lead.getD t.num, t.id, pk.op, pk.depth, pk.path, 0] pk.payload) s

/-- The copy of the leader's transaction `n`. -/
def copyOf (s : State) (n : Nat) : Option Txn := s.cmd.txns.find? fun t => t.lead == some n

/-- The copy, made when there is none. -/
def needCopy (s : State) (n id : Nat) : State × Txn :=
  match copyOf s n with
  | some t => (s, t)
  | none =>
    let a := s.addTxn { num := 0, id := id, lead := some n }
    (a.1.putTxn { a.2 with phase := .accepted }, { a.2 with phase := .accepted })

/-- A message from the leader: taken, and for this module. -/
def fromLead (kind : Nat) (m : LinkMsg) (s : State) : State × Bool :=
  let a := takeMsg kind m s
  if a.2 then gangTake m a.1 else a

/-- This module takes epochs from the sender of a message. -/
def epochsFrom (s : State) (m : LinkMsg) : Bool := if fromPartner s m then !isPref s else gangRole s != 0

/-- STAGED_COMMAND (R450): the packet joins the copy; an inner leader relays it. -/
def doStagedCommand (m : LinkMsg) (s : State) : State :=
  let a := fromLead mkStaged m s
  let x (i : Nat) : Nat := m.args.getD i 0
  if a.2 && epochsFrom a.1 m then
    let pk : Packet := { op := x 3, payload := m.bytes, depth := x 4, path := x 5 }
    let c := needCopy a.1 (x 1) (x 2)
    let t := { c.2 with packets := c.2.packets ++ [pk], fw := x 6 == 1 }
    let s := c.1.putTxn t
    (if gangRole s = 1 then allMembers s else []).foldl (fun s k =>
      sendVoter s k mkStaged [x 1, x 2, pk.op, pk.depth, pk.path, x 6] pk.payload) s
  else a.1

def execStagedCommand (m : LinkMsg) (s : State) : Host.Outcome State Fault Refusal := .next (settle (doStagedCommand m s))

/-! ### ADMIT, VERDICT, COMMIT -/

/-- What earlier transactions of the same pass leave, at a follower. -/
def followScratch (s : State) (c : Nat) : State :=
  let l := s.cmd.txns.filter fun t => t.boundary == c && (t.needGo || t.phase == .admitted)
  l.foldl (fun w t => afterTxn w t c) s

/-- ADMIT (R450): checks 1 to 5 against this module's own caps; a leader of its own asks its members first. -/
def doAdmitMsg (m : LinkMsg) (s : State) : State :=
  let a := fromLead mkAdmit m s
  let x (i : Nat) : Nat := m.args.getD i 0
  if a.2 && decide (a.1.tick < x 2) then
    let c := needCopy a.1 (x 1) (x 5)
    let s := c.1
    let regs := (listOf 2 (leBytes 4 (m.bytes.length / 8) ++ m.bytes)).map fun w => ((wAt w 0).toNat, wAt w 1)
    let kinds := if c.2.fw then [2] else []
    let t := { c.2 with boundary := x 2, lateMax := x 4, regs := regs, kinds := kinds }
    let j := judge (caseOf s (followScratch s (x 2)) t (x 2)) (x 3) (x 4) (jnlFull s (recSize t.packets t.regs))
    let ask := if gangRole s = 1 then (voters s (x 2)).filter (· != partnerId) else []
    let t := { t with verdict := j.1, peaks := j.2, awaits := ask, undecided := !ask.isEmpty }
    let s := s.putTxn t
    if ask.isEmpty then decideTxn s t else ask.foldl (fun s k => sendAdmit s t k (x 3)) s
  else a.1

def execAdmitMsg (m : LinkMsg) (s : State) : Host.Outcome State Fault Refusal := .next (settle (doAdmitMsg m s))

/-- VERDICT: an answer from below while one is awaited, a refusal from above otherwise. -/
def doVerdict (m : LinkMsg) (s : State) : State :=
  let a := fromLead mkVerdict m s
  let x (i : Nat) : Nat := m.args.getD i 0
  if !a.2 then a.1
  else
    let s := a.1
    let v := verdictOf (m.args.drop 4)
    match s.cmd.txns.find? (fun t => t.undecided && (t.lead.getD t.num == x 1)) with
    | some t =>
      if t.awaits.contains (x 2) then
        decideReady false (s.putTxn { t with awaits := t.awaits.filter (· != x 2), votes := t.votes ++ [(x 2, x 3, v)] })
      else s
    | none =>
      match copyOf s (x 1) with
      | some t => (tellDecision s t v).dropTxn t.num
      | none => s

def execVerdict (m : LinkMsg) (s : State) : Host.Outcome State Fault Refusal := .next (settle (doVerdict m s))

/-- COMMIT (R450): the copy is admitted for its boundary and its record written; an inner leader relays it. -/
def doCommit (m : LinkMsg) (s : State) : State :=
  let a := fromLead mkCommit m s
  let x (i : Nat) : Nat := m.args.getD i 0
  match copyOf a.1 (x 1) with
  | some t =>
    if a.2 && t.phase == .accepted && decide (a.1.tick < x 2) then
      let t := { t with boundary := x 2, needGo := false }
      tellDecision (conclude a.1 t t.verdict) t t.verdict
    else a.1
  | none => a.1

def execCommit (m : LinkMsg) (s : State) : Host.Outcome State Fault Refusal := .next (settle (doCommit m s))

/-- VERDICT_TIMEOUT (R450, R451): cycle 750,000 of the tick; members that did not answer are lost. -/
def doVerdictTimeout (s : State) : State :=
  let due := s.tickClk + 750000
  let l := s.cmd.txns.filter (·.undecided)
  if !l.isEmpty && s.dueOk due then
    let mute := ((l.flatMap (·.awaits)).filter (· != partnerId)).dedup
    mute.foldl memberLost (decideReady true (s.atClk due))
  else s

def execVerdictTimeout (s : State) : Host.Outcome State Fault Refusal := .next (settle (doVerdictTimeout s))

/-- Copies whose COMMIT did not come by their boundary. -/
def missingGo (s : State) : List Txn := s.cmd.txns.filter fun t => t.needGo && decide (t.boundary ≤ s.tick)

/-- COMMIT_MISSING (R451): a member falls out of step and asks for the replay; a partner's digests will tell. -/
def doCommitMissing (s : State) : State :=
  let l := missingGo s
  if l.isEmpty then s
  else
    let s := s.setTxns (s.cmd.txns.filter fun t => !(l.any fun u => u.num == t.num))
    if gangRole s = 2 then
      let s := nylEvt ((s.setField R.nylGangState 26 24 3).inc R.nylCntDesync) 3
      let s := { s with mir := { s.mir with
        based := false
        target := none
        joinAt := none
        loads := []
        copies := none
        got := 0 } }
      tellLeader s 1 0
    else s

def execCommitMissing (s : State) : Host.Outcome State Fault Refusal := .next (settle (doCommitMissing s))

/-! ### Digests (R458, R460, R468) -/

/-- The unit that verifies has matched often enough (R468). -/
def verifyGoal : Nat := 4096

/-- A match: VERIFY counts, and PREFERRED counts toward an automatic return (R464, R468). -/
def digestMatch (s : State) : State :=
  let s := { s with mir := { s.mir with missing := 0 } }
  if mirSt s = 7 then
    let s := s.inc R.mirVerifyCnt
    if s.regNat R.mirVerifyCnt = verifyGoal then mirEvt (setMir s 2) 4 else s
  else if mirSt s = 2 ∧ isPref s = true ∧ s.bit R.mirState 5 = false ∧ (autoReturn s).1 = true then
    let s := s.inc R.mirReturnCnt
    if s.regNat R.mirReturnCnt = (autoReturn s).2 then
      fwStage s 3 [{ op := 0x0C04, payload := leBytes 4 (2 * b2n (autoReturn s).1) ++ leBytes 4 (autoReturn s).2 }]
    else s
  else s

/-- A mismatch of two sending units (R460): `mine` and `other` say whether the self-checks held. -/
def digestMismatch (tick : Nat) (mine other : Bool) (s : State) : State :=
  let s := { s with mir := { s.mir with missing := 0 } }
  if mirSt s = 7 then s.setReg R.mirVerifyCnt 0
  else if mirSt s = 2 then
    let s := mirEvt ((s.inc R.mirCntMismatch).setNat R.mirLastMismatch tick) 0
    let s := s.setReg R.mirReturnCnt 0
    let prefOk := if isPref s then mine else other
    let partOk := if isPref s then other else mine
    let prefSilent := !prefOk && partOk
    if isPref s == prefSilent then goSilent s
    else
      let s := { s with mir := { s.mir with partner := 4, own := [], theirs := [] } }
      becomePref (setMir (s.setBit R.mirState 6 false) 3)
  else s

/-- Compare the digests of a tick when both are here. -/
def compareDigest (tick : Nat) (s : State) : State :=
  match s.mir.own.find? (·.1 == tick), s.mir.theirs.find? (·.1 == tick) with
  | some o, some t =>
    let s := { s with mir := { s.mir with
      own := s.mir.own.filter (·.1 != tick)
      theirs := s.mir.theirs.filter (·.1 != tick) } }
    if o.2.2 == t.2 then digestMatch s
    else digestMismatch tick (o.2.2.getD 3 0 == 1) (t.2.getD 3 0 == 1) s
  | _, _ => s

/-- DIGEST: arguments are the fields in the order of R458. -/
def doDigest (m : LinkMsg) (s : State) : State :=
  let a := takeMsg mkDigest m s
  let tick := m.args.getD 1 0
  if a.2 && fromPartner s m && inStep (mirSt s) then
    let s := a.1
    if s.mir.theirs.any (·.1 == tick) then s
    else
      let l := (s.mir.theirs ++ [(tick, m.args)]).filter fun e => decide (s.tick ≤ e.1 + 8)
      compareDigest tick { s with mir := { s.mir with theirs := l } }
  else a.1

def execDigest (m : LinkMsg) (s : State) : Host.Outcome State Fault Refusal := .next (settle (doDigest m s))

/-- A unit of a pair sends the digest of egress block `m` (R458). -/
def sendDigest (m : Nat) (s : State) : State :=
  if partnerUp s then
    let d := digestOf s m
    let s := sendPair s mkDigest d []
    compareDigest m { s with mir := { s.mir with own := s.mir.own ++ [(m, s.clk, d)] } }
  else s

/-- DIGEST_TIMEOUT (R458, R462). -/
def doDigestTimeout (s : State) : State :=
  match s.mir.own with
  | [] => s
  | o :: rest =>
    let due := o.2.1 + s.field R.mirDigTo 19 0
    if s.dueOk due then
      let s := (s.atClk due).inc R.mirCntDigTo
      let n := s.mir.missing + 1
      let s := { s with mir := { s.mir with own := rest, missing := n } }
      if s.field R.mirLossTicks 7 0 ≤ n then partnerLost s else s
    else s

def execDigestTimeout (s : State) : Host.Outcome State Fault Refusal := .next (settle (doDigestTimeout s))

/-! ### The survivor's side of a replay (R466, R467) -/

/-- A JOURNAL message: to the partner (16) or a member. Arguments after the target: 0 for a checkpoint and 1 for a record, then
sequence number, epoch, transaction, tick, packets and the survivor's epoch. -/
def sendJournal (s : State) (m : Nat) (args : List Nat) (bytes : List Byte) (c : Option Checkpoint) : State :=
  let link := if m = partnerId then (pairLinks s).find? (linkUp s) else some (linkToward s m)
  match link with
  | none => s
  | some l =>
    let t := if m = partnerId then 0 else m
    sendMsg s { link := l, sender := gangMe s, kind := mkJournal, args := t :: args, bytes := bytes, chk := c }

def sendRec (m : Nat) (s : State) (r : JRec) : State :=
  sendJournal s m [1, r.seq, r.epoch, r.txn, r.tick, r.packets.length, s.cm.epoch] (recPayload r.txn r.packets r.regs) none

/-- Taps of a bank that a journaled load names. -/
def bankTaps (r : CorRt) (w : CoefWait) : List Int :=
  let b := r.bank w.bank
  (List.range w.count).map fun i => tabGetD (if w.low then b.low else b.upper) (w.first + i) 0

/-- Coefficients as BULK messages: output, bank, band, first tap. -/
def sendCoefs (m : Nat) (s : State) : State :=
  s.jnl.coefs.foldl (fun s (e : Nat × List CoefWait) => e.2.foldl (fun s w =>
    sendVoter s m mkBulk [bulkCoef, e.1, b2n w.bank, b2n w.low, w.first] (bytesOfWords ((bankTaps (s.cor e.1) w).map wdI))) s) s

/-- Answer a request for the replay: checkpoint, sealed records, coefficients. A member takes no coefficients of the leader's. -/
def sendReplay (m : Nat) (s : State) : State :=
  let c := s.jnl.chk
  let s := sendJournal s m [0, c.seq, c.cm.epoch, 0, c.tick, 0, s.cm.epoch] [] (some c)
  let l := sortBy (fun (r : JRec) => r.seq) (s.jnl.recs.filter fun r => r.isSealed && decide (c.seq < r.seq))
  let s := l.foldl (sendRec m) s
  if m = partnerId then sendCoefs m s else s

/-- Modules that replay from this one. -/
def replayers (s : State) : List Nat :=
  ((s.nyl.members.filter fun (e : Nat × MemberSt) => e.2.asked && e.2.phase != 4).map (·.1)) ++
  (if s.mir.asked then [partnerId] else [])

/-- Records sealed at boundary `c` go to every module that replays. -/
def forwardSealed (c : Nat) (s : State) : State :=
  let l := sortBy (fun (r : JRec) => r.seq) (s.jnl.recs.filter fun r => r.isSealed && r.tick == c)
  (replayers s).foldl (fun s m => l.foldl (sendRec m) s) s

/-- Copies of the state at sample time J × B: their number first; an object's samples, its headworks states, a stream's weights
and held samples. -/
def sendPrimes (m J : Nat) (s : State) : State :=
  let B := s.blockLen
  let objs := s.cm.wells
  let rx := s.str.rx.flatMap fun (e : Nat × List RxRt) => (e.2.filter (·.stop.isNone)).map fun r => (e.1, r)
  let s := sendVoter s m mkPrime [0, objs.length * 2 + rx.length] []
  let s := objs.foldl (fun s (e : Nat × Well) =>
    let L := e.2.units * 256
    let xs := (List.range L).map fun i =>
      wellSample s e.2 (e.2.birth * B) (J * B) ((J * B : Int) - L + i)
    let r := s.rt e.1
    let s := sendVoter s m mkPrime [1, e.1] (bytesOfWords (xs.map wdI))
    sendVoter s m mkPrime ([2, e.1, r.hwSel] ++ r.hw.flatten.map (bitsOf 64)) []) s
  rx.foldl (fun s (e : Nat × RxRt) =>
    sendVoter s m mkPrime ([3, e.1] ++ e.2.w ++ e.2.hold.map (bitsOf 64)) []) s

/-- At boundary `t`: modules that named it commit in step from now on and get their copies. -/
def joinBoundary (t : Nat) (s : State) : State :=
  let s := if s.mir.join == some t then
      sendPrimes partnerId t { s with mir := { s.mir with join := none, asked := false, partner := 6 } }
    else s
  s.nyl.members.foldl (fun s (e : Nat × MemberSt) =>
    if e.2.join == some t then
      sendPrimes e.1 t (putMember s e.1 { e.2 with asked := false })
    else s) s

/-! ### The rejoining side (R466) -/

/-- Packets of a record's payload, with their headers. -/
def parsePackets : Nat → List Byte → List Packet
  | 0, _ => []
  | f + 1, l =>
    if l.length < 16 then []
    else
      let w := wordsOf (l.take 16)
      let n := fld (wAt w 1) 31 16
      let pk : Packet :=
        { op := fld (wAt w 0) 31 16
          payload := (l.drop 16).take n
          depth := fld (wAt w 0) 15 12
          path := (wAt w 3).toNat }
      pk :: parsePackets f (l.drop (16 + n))

/-- Registers that stay the unit's own: NET, and the images of its gang and pair descriptors. -/
def ownReg (a : Nat) : Bool :=
  a / 0x10000 == 0xB || inArr a R.nylGangCfg 64 || inArr a R.mirCfg 32 || inArr a R.nylPortCfg 8

/-- The survivor's tables as this unit takes them: a pair's unit takes all but its own registers, a gang member the scene only. -/
def mergeCm (gang : Bool) (own c : Committed) : Committed :=
  if gang then
    let regs := own.rwe.filter fun e => !sceneReg e.1
    let got := c.rwe.filter fun e => sceneReg e.1
    { own with
      epoch := c.epoch
      objs := c.objs
      spks := c.spks
      layouts := c.layouts
      arrays := c.arrays
      dists := c.dists
      wells := c.wells
      rwe := got.foldl (fun t e => tabSet t e.1 e.2) regs }
  else
    let regs := c.rwe.filter fun e => !ownReg e.1
    let mine := own.rwe.filter fun e => ownReg e.1
    { c with num := own.num, rwe := mine.foldl (fun t e => tabSet t e.1 e.2) regs }

/-- Put the coefficients that came into their banks. -/
def placeLoads (s : State) : State :=
  s.mir.loads.foldl (fun s (e : Nat × CorLoad) =>
    let s := (matchHold s e.1 e.2).getD s
    s.setCor e.1 (storeLoad (s.cor e.1) e.2)) s

/-- Everything the journal holds, in force at once; what runs is built afresh (R466). -/
def rejoinTables (s : State) : State :=
  let txns := s.cmd.txns
  let r := holdCoefs (restoreTables false s).1
  let r := restartTick s.tick r
  placeLoads { r with cmd := { r.cmd with txns := txns } }

/-- Epoch the journal reaches. -/
def jnlEpoch (s : State) : Nat :=
  let l := (replayable s.jnl.recs.length s.jnl.chk.seq s.jnl.recs).1
  (l.getLast?.map (·.epoch)).getD s.jnl.chk.cm.epoch

def tellSurvivor (s : State) (ask j : Nat) : State :=
  if gangRole s = 2 ∧ mirSt s ≠ 5 then tellLeader s ask j else tellPartner s ask j

/-- Every record up to the survivor's epoch is here: the tables come into force, and boundary J is named. -/
def tryJoin (s : State) : State :=
  if s.mir.based && s.mir.target == some (jnlEpoch s) then
    let s := rejoinTables s
    if s.mir.joinAt.isSome then s
    else
      let j := s.tick + 2
      tellSurvivor { s with mir := { s.mir with joinAt := some j } } 2 j
  else s

/-- This module replays. -/
def replaying (s : State) : Bool :=
  mirSt s == 5 || (gangRole s == 2 && (gangSt s == 1 || gangSt s == 3) && s.mir.copies.isNone)

/-- JOURNAL_MESSAGE (R466): a checkpoint or a record of the survivor. -/
def doJournalMessage (m : LinkMsg) (s : State) : State :=
  let a := fromLead mkJournal m s
  let x (i : Nat) : Nat := m.args.getD i 0
  if !(a.2 && replaying a.1) then a.1
  else
    let s := { a.1 with mir := { a.1.mir with target := some (x 7) } }
    if x 1 = 0 then
      match m.chk with
      | none => s
      | some c =>
        let gang := mirSt s != 5
        let own := chkOf s
        let c' := { c with
          cm := mergeCm gang s.cm c.cm
          progs := if gang then own.progs else c.progs
          coefs := if gang then own.coefs else c.coefs
          active := if gang then own.active else c.active
          ringOff := 0 }
        tryJoin { s with
          jnl := { s.jnl with
            chk := c'
            seq := c.seq
            ringOff := 0
            recs := []
            clean := none
            hdrNum := s.jnl.hdrNum + 1
            slot := 1 - s.jnl.slot }
          mir := { s.mir with based := true } }
    else if s.mir.based && x 2 == s.jnl.seq + 1 then
      let l := parsePackets m.bytes.length m.bytes
      let s := putRec s (x 4) (x 3) (x 5) (l.take (x 6)) ((l.drop (x 6)).flatMap fun p => regPairs p.payload)
      tryJoin (sealRecs s [x 2])
    else s

def execJournalMessage (m : LinkMsg) (s : State) : Host.Outcome State Fault Refusal := .next (settle (doJournalMessage m s))

/-- At boundary J (R467): the wells are born and PRIME begins. -/
def primeBoundary (t : Nat) (s : State) : State :=
  if s.mir.joinAt = some t then
    let cm := rebirth t s.cm
    let s := { s with
      cm := cm
      hist := s.hist.map fun e => (e.1, rebirth t e.2)
      mir := { s.mir with joinAt := none, copies := none, got := 0 } }
    if mirSt s = 5 then setMir s 6 else { s with mir := { s.mir with copies := some 0 } }
  else s

/-- Every state in flight sees a well born earlier. -/
def setBirth (o b : Nat) (s : State) : State :=
  let fix (c : Committed) : Committed := { c with wells := c.wells.map fun e => if e.1 = o then (e.1, { e.2 with birth := b }) else e }
  { s with cm := fix s.cm, hist := s.hist.map fun e => (e.1, fix e.2) }

/-- The object's samples up to boundary J arrive; its well holds them, and it is primed. -/
def takeSamples (o : Nat) (xs : List Word) (s : State) : State :=
  match tabGet s.cm.wells o with
  | none => s
  | some w =>
    let t0 := w.birth * s.blockLen
    let n := xs.length
    let s := xs.zipIdx.foldl (fun s (e : Word × Nat) =>
      if n ≤ t0 + e.2 then cisWriteWord s (wellOff w (t0 + e.2 - n)) e.1 else s) s
    let rt := s.rt o
    setBirth o 0 (s.setRt o { rt with primed := [(0, s.tick)], pw := {} })

/-- PRIME_MESSAGE (R467). -/
def doPrimeMessage (m : LinkMsg) (s : State) : State :=
  let a := fromLead mkPrime m s
  let x (i : Nat) : Nat := m.args.getD i 0
  let open_ := mirSt a.1 == 6 || (gangRole a.1 == 2 && gangSt a.1 != 2)
  if !(a.2 && open_) then a.1
  else
    let s := a.1
    if x 1 = 0 then { s with mir := { s.mir with copies := some (x 2) } }
    else
      let s := { s with mir := { s.mir with got := s.mir.got + 1 } }
      let rest := m.args.drop 3
      if x 1 = 1 then takeSamples (x 2) (wordsOf m.bytes) s
      else if x 1 = 2 then
        let rt := s.rt (x 2)
        let v := (m.args.drop 4).map (signedOf 64)
        s.setRt (x 2) { rt with hwSel := x 3, hw := chunk 4 v.length v, hwOld := none }
      else
        match rxNewest s (x 2) s.tick with
        | none => s
        | some r =>
          let n := rest.length / 2
          s.putRx (x 2) { r with w := rest.take n, hold := (rest.drop n).map (signedOf 64) }

def execPrimeMessage (m : LinkMsg) (s : State) : Host.Outcome State Fault Refusal := .next (settle (doPrimeMessage m s))

/-- PRIME_COMPLETE (R467, R468): every copy is complete; VERIFY begins, and a gang member is FORMED. -/
def doPrimeComplete (s : State) : State :=
  if s.mir.copies = some s.mir.got ∧ s.mir.joinAt = none then
    if mirSt s = 6 then
      let s := { s with mir := { s.mir with copies := none, verifyFrom := s.tick, stalled := false } }
      setMir (s.setReg R.mirVerifyCnt 0) 7
    else if gangRole s = 2 ∧ gangSt s ≠ 2 then
      tellLeader ({ s with mir := { s.mir with copies := none } }.setField R.nylGangState 26 24 2) 0 0
    else s
  else s

def execPrimeComplete (s : State) : Host.Outcome State Fault Refusal := .next (settle (doPrimeComplete s))

/-- VERIFY_STALL (R468). -/
def doVerifyStall (s : State) : State :=
  if mirSt s = 7 ∧ s.mir.stalled = false ∧ s.mir.verifyFrom + s.regNat R.mirVerifyMax ≤ s.tick then
    mirEvt { s with mir := { s.mir with stalled := true } } 5
  else s

def execVerifyStall (s : State) : Host.Outcome State Fault Refusal := .next (settle (doVerifyStall s))

/-! ### BULK: descriptors, status, coefficients -/

/-- A member takes its place (R447, R448): it goes to ACQUIRE on the gang's time and asks for the replay. -/
def takeGangDesc (link : Nat) (args : List Nat) (p : List Byte) (s : State) : State :=
  let x (i : Nat) : Nat := args.getD i 0
  if x 1 = 0 then { leaveGang s with tim := { s.tim with acquireAt := some (s.tick + 1) } }
  else
    let w := wordsOf p
    let lv (i : Nat) : GangLevel := { per := x (2 + 3 * i), n := x (3 + 3 * i), m := x (4 + 3 * i) }
    let outer := (List.range (x 1)).map lv
    let inner := gangRole s == 1
    let mine := outer.getLastD { per := 0, n := 1, m := 0 }
    let num : Numbering := { levels := outer ++ s.cm.num.levels, stride := fld (wAt w 2) 18 16 }
    let cm := if inner then s.cm else (w.zipIdx).foldl (fun c e => c.setReg (R.nylGangCfg + 4 * e.2) e.1) s.cm
    let s := { s with jnl := { s.jnl with store := { s.jnl.store with gang := some p } } }
    let s := { s with
      cm := cm.setNum num
      nyl := { s.nyl with up := some link }
      tim := { s.tim with acquireAt := some (s.tick + 1) }
      mir := { s.mir with based := false, target := none, joinAt := none, loads := [], copies := none, got := 0 } }
    if inner then s.setField R.nylGangState 15 12 (x 1)
    else
      let s := s.setNat R.nylGangState (2 ^ 24 + x 0 % 16 * 2 ^ 20 + b2n (bit (wAt w 0) 1) * 65536 + x 1 * 4096 + 512 +
        (mine.n - 1) * 16 + mine.m)
      tellLeader s 1 0

/-- What the partner says of itself. -/
def takePartner (ask j : Nat) (w : List Word) (s : State) : State :=
  let st := fld (wAt w 3) 3 0
  let s := { s with mir := { s.mir with partner := st, partnerFw := (wAt w 8).toNat } }
  let s := s.setBit R.mirState 6 (st == 2)
  let same := (wAt w 8).toNat == s.svc.runVer
  let s :=
    if mirSt s = 3 ∧ st = 2 then { setMir s 2 with mir := { s.mir with own := [], theirs := [], missing := 0 } }
    else if mirSt s = 2 ∧ (st = 4 ∨ st = 5 ∨ st = 8) then becomePref (setMir s 3)
    else if mirSt s = 1 ∧ (st = 2 ∨ st = 3) ∧ same = true then startReplay s
    else s
  if ask = 1 && same && isPref s then sendReplay partnerId { s with mir := { s.mir with asked := true, join := none } }
  else if ask = 2 && isPref s then
    let s := { s with mir := { s.mir with join := some j } }
    s.cmd.txns.foldl (forwardTxn partnerId) s
  else s

/-- What a member says of itself. -/
def takeMember (m ask j : Nat) (w : List Word) (s : State) : State :=
  if gangRole s ≠ 1 ∨ (tabGet s.nyl.members m).isNone then s
  else
    let st := fld (wAt w 2) 26 24
    let old := s.member m
    let new := { old with phase := st, words := w.take 8, devId := (wAt w 0).toNat + 2 ^ 32 * (wAt w 1).toNat }
    let s := putMember s m (if st = 2 then { new with join := none } else new)
    let s := if st = 3 ∧ old.phase ≠ 3 then nylEvt s 2 else s
    if ask = 1 then sendReplay m (putMember s m { s.member m with asked := true, join := none })
    else if ask = 2 then
      let s := putMember s m { s.member m with join := some j }
      s.cmd.txns.foldl (forwardTxn m) s
    else s

/-- Coefficients that the replay lacks: kept until the tables that need them are in force. -/
def takeCoef (args : List Nat) (p : List Byte) (s : State) : State :=
  let x (i : Nat) : Nat := args.getD i 0
  let l : CorLoad :=
    { blk := none
      bank := x 1 == 1
      low := x 2 == 1
      first := x 3
      taps := (wordsOf p).map s32 }
  if replaying s || mirSt s == 6 || mirSt s == 7 then
    let s := { s with mir := { s.mir with loads := s.mir.loads ++ [(x 0, l)] } }
    let s := (matchHold s (x 0) l).getD s
    s.setCor (x 0) (storeLoad (s.cor (x 0)) l)
  else s

/-- A BULK message that is no relayed command. -/
def takeBulk (m : LinkMsg) (s : State) : State :=
  let x (i : Nat) : Nat := m.args.getD i 0
  if x 1 = bulkGang then takeGangDesc m.link (m.args.drop 2) m.bytes s
  else if x 1 = bulkStatus then
    (if fromPartner s m then takePartner (x 2) (x 3) (wordsOf m.bytes) s else takeMember (x 4) (x 2) (x 3) (wordsOf m.bytes) s)
  else if x 1 = bulkCoef && fromPartner s m then takeCoef (m.args.drop 2) m.bytes s
  else s

end Sys2Proof.Machine
end

