-- ==== Sys2Proof/Machine/Svc.lean ====
section
/-! DEFINITION. Service lock and firmware images (chapter 16). -/

namespace Sys2Proof.Machine

def svcEvt (s : State) (b : Nat) : State := s.evt R.svcEvtStatus b

def State.setSvc (s : State) (v : SvcSt) : State := { s with svc := v }

/-- Core cycles in a time given in seconds. -/
def secClk (n : Nat) : Nat := n * 1250000000

/-- Device ID as OP_SVC_CHALLENGE returns it (R500). -/
def devIdBytes (s : State) : List Byte := leBytes 8 s.modId.devId

/-! ### Challenge and response (R501 to R503) -/

/-- OP_SVC_CHALLENGE. -/
def svcChallenge (p : List Byte) (s : State) : State × Res :=
  if !p.isEmpty then (s, resErr stBadParam)
  else if s.svc.backoff.isSome then (s, resErr stDenied)
  else
    let d := s.draw
    let chal := (List.range 16).map fun i => Config.challenge d.1 i
    let due := s.clk + secClk (s.field R.svcChalTo 15 0)
    (d.2.setSvc { s.svc with chal := some (chal, due) }, { result := chal ++ devIdBytes s, rlen := 24 })

/-- Back-off period after one more failure (R502). -/
def nextPeriod (fails period : Nat) : Nat :=
  if fails < 3 then period else if period = 0 then 10 else min 3600 (2 * period)

/-- A response that fails: no challenge is left. -/
def svcFail (s : State) : State :=
  let n := s.svc.fails + 1
  let per := nextPeriod n s.svc.period
  let s := s.setSvc { s.svc with
    chal := none
    fails := n
    period := per
    backoff := if n < 3 then s.svc.backoff else some (s.clk + secClk per) }
  svcEvt (s.inc R.svcCntFail) 2

/-- The lock opens. -/
def svcOpen (s : State) : State :=
  svcEvt (s.setSvc { s.svc with state := 2, chal := none, fails := 0, period := 0, backoff := none, opened := s.clk }) 0

/-- The response verifies: OWNED, a live challenge, and a signature of the owner key. -/
def responseOk (s : State) (sig : List Byte) : Bool :=
  match s.svc.chal with
  | none => false
  | some (c, _) => s.svc.state == 1 && ecdsaOk s.svc.key (sha256 (c ++ devIdBytes s)) sig

/-- OP_SVC_RESPONSE. -/
def svcResponse (p : List Byte) (s : State) : State × Res :=
  if p.length ≠ 64 then (s, resErr stBadParam)
  else if responseOk s p then (svcOpen s, resErr stOk)
  else (svcFail s, resErr stDenied)

/-- A session ends: the state returns to OWNED. -/
def closeSession (s : State) : State :=
  if s.svc.state = 2 then svcEvt (s.setSvc { s.svc with state := 1 }) 1 else s

/-- SVC_CLOSE: a write to SVC_CTRL. -/
def doSvcClose (val : Word) (s : State) : State := if bit val 0 then closeSession s else s

def execSvcClose (val : Word) (s : State) : Host.Outcome State Fault Refusal := .next (settle (doSvcClose val s))

/-- CHALLENGE_EXPIRY. -/
def doChallengeExpiry (s : State) : State :=
  match s.svc.chal with
  | none => s
  | some (_, due) => if s.dueOk due then (s.atClk due).setSvc { s.svc with chal := none } else s

def execChallengeExpiry (s : State) : Host.Outcome State Fault Refusal := .next (settle (doChallengeExpiry s))

/-- Cycle at which the session expires. -/
def sessionDue (s : State) : Nat := s.svc.opened + secClk (s.field R.svcSessionTo 16 0)

/-- SESSION_EXPIRY. -/
def doSessionExpiry (s : State) : State :=
  if s.svc.state = 2 ∧ s.dueOk (sessionDue s) = true then closeSession (s.atClk (sessionDue s)) else s

def execSessionExpiry (s : State) : Host.Outcome State Fault Refusal := .next (settle (doSessionExpiry s))

/-- BACKOFF_END. -/
def doBackoffEnd (s : State) : State :=
  match s.svc.backoff with
  | none => s
  | some due => if s.dueOk due then (s.atClk due).setSvc { s.svc with backoff := none } else s

def execBackoffEnd (s : State) : Host.Outcome State Fault Refusal := .next (settle (doBackoffEnd s))

/-! ### Ownership (R500) -/

/-- OP_SVC_OWNER. -/
def svcOwner (p : List Byte) (s : State) : State × Res :=
  let key := p.take 64
  let sig := p.drop 64
  let digest := sha256 (key ++ devIdBytes s)
  let zero := key.all (· == 0)
  if s.svc.state = 1 then (s, resErr stDenied)
  else if p.length ≠ 128 then (s, resErr stBadParam)
  else if s.svc.state = 0 then
    if ecdsaOk key digest sig then (svcEvt (s.setSvc { s.svc with key := key, state := 1 }) 3, resErr stOk)
    else (s, resErr stDenied)
  else if !ecdsaOk s.svc.key digest sig then (s, resErr stDenied)
  else if zero then (svcEvt (s.setSvc { s.svc with key := [], state := 0 }) 3, resErr stOk)
  else if (p256Point key).isNone then (s, resErr stDenied)
  else (svcEvt (s.setSvc { s.svc with key := key }) 3, resErr stOk)

/-! ### Images (R505 to R507) -/

/-- Bytes of an image region. -/
def regionSize : Nat := 0x2000000

/-- Flash offset of an image. -/
def imageBase (i : Nat) : Nat := regionSize * i

def imageNext (s : State) (i : Nat) : Option Nat := if i = 0 then s.svc.nextA else s.svc.nextB

/-- VERSION and SVN of an image that is valid. Image A as the factory wrote it is; its bytes are not in the model. -/
def imageInfo (s : State) (i : Nat) : Option (Nat × Nat) :=
  match imageNext s i with
  | none => if i = 0 ∧ s.svc.rb = 0 then some (s.svc.verA, 0) else none
  | some _ =>
    let at_ (o n : Nat) : List Byte := memBytes s.svc.flash (imageBase i + o) n
    let len := leNat (at_ 0x0C 4)
    let svn := leNat (at_ 0x08 4)
    if leNat (at_ 0 4) = 0x52594657 ∧ len ≤ 33554176 ∧ svn < 256 ∧ s.svc.rb ≤ svn
        ∧ sha256 (at_ 256 len) = at_ 0x10 32 ∧ Config.fwSigOk (beNat (sha256 (at_ 0 0xC0))) (beNat (at_ 0xC0 64)) = true then
      some (leNat (at_ 4 4), svn)
    else none

/-- SVC_FW_A_VER or SVC_FW_B_VER. -/
def fwVerReg (i : Nat) : Nat := R.svcFwAVer + 4 * i

def setNext (s : State) (i n : Nat) : State :=
  if i = 0 then s.setSvc { s.svc with nextA := some n } else s.setSvc { s.svc with nextB := some n }

/-- Write bytes of an image; offset 0 erases the region. -/
def fwPut (s : State) (i off : Nat) (data : List Byte) : State :=
  let m := if off = 0 then s.svc.flash.filter fun c => decide (c.1 < imageBase i) || decide (imageBase i + regionSize ≤ c.1)
    else s.svc.flash
  let s := s.setSvc { s.svc with flash := memSetBytes m (imageBase i + off) data, select := s.svc.running }
  setNext (s.setReg (fwVerReg i) 0) i (off + data.length)

/-- OP_FW_WRITE. -/
def fwWrite (p : List Byte) (s : State) : State × Res :=
  let w := wordsOf (p.take 12)
  let i := (wAt w 0).toNat
  let off := (wAt w 1).toNat
  let n := (wAt w 2).toNat
  if s.svc.state ≠ 2 then (s, resErr stDenied)
  else if p.length ≠ 12 + n ∨ n < 1 ∨ 4064 < n ∨ 1 < i ∨ regionSize < off + n then (s, resErr stBadParam)
  else if i = s.svc.running then (s, resErr stBadState)
  else if off ≠ 0 ∧ imageNext s i ≠ some off then (s, resErr stBadParam)
  else (fwPut s i off (p.drop 12), resErr stOk)

/-- OP_FW_ACTIVATE. -/
def fwActivate (p : List Byte) (s : State) : State × Res :=
  let i := (wAt (wordsOf p) 0).toNat
  if s.svc.state ≠ 2 then (s, resErr stDenied)
  else if p.length ≠ 4 ∨ 1 < i then (s, resErr stBadParam)
  else if i = s.svc.running then (s.setSvc { s.svc with select := i }, resErr stOk)
  else
    match imageInfo s i with
    | none => (s, resErr stDenied)
    | some x => (svcEvt ((s.setSvc { s.svc with select := i }).setNat (fwVerReg i) x.1) 4, resErr stOk)

/-! ### Boot (R506) -/

/-- The image the boot ROM runs: image, VERSION, SVN; the selected one first. -/
def chooseImage (s : State) : Option (Nat × Nat × Nat) :=
  match imageInfo s s.svc.select with
  | some x => some (s.svc.select, x)
  | none => (imageInfo s (1 - s.svc.select)).map fun x => (1 - s.svc.select, x)

/-- What a reset of the die does to the lock (R502, R503): the session and the challenge end, the back-off period stays. -/
def svcReset (v : SvcSt) : SvcSt := { v with state := if v.state = 2 then 1 else v.state, chal := none, fallback := false }

/-- READY: versions are known, and the counter takes the SVN that runs. -/
def svcReady (s : State) : State :=
  let ver (i : Nat) : Nat := ((imageInfo s i).map (·.1)).getD 0
  let s := (s.setNat (fwVerReg 0) (ver 0)).setNat (fwVerReg 1) (ver 1)
  let s := s.setSvc { s.svc with rb := max s.svc.rb s.svc.runSvn }
  if s.svc.fallback then svcEvt s 5 else s

/-! ### Views (R509, R510) -/

/-- SVC_STATE. -/
def svcStateRead (s : State) : Word :=
  wd (s.svc.runSvn * 256 + b2n s.svc.fallback * 32 + s.svc.running * 16 + s.svc.select * 8 + b2n s.svc.backoff.isSome * 4 + s.svc.state)

/-- SVC_SESSION_LEFT: whole seconds, rounded up. -/
def sessionLeft (s : State) : Word :=
  if s.svc.state = 2 then wd (ceilDiv (sessionDue s - s.clk) 1250000000) else 0

/-- SVC_OWNER_HASH[i]: bytes of the digest in order, word 0 first. -/
def ownerHash (s : State) (i : Nat) : Word :=
  if s.svc.key.isEmpty then 0 else wAt (wordsOf (sha256 s.svc.key)) i

end Sys2Proof.Machine
end

