-- ==== Sys2Proof/Machine/Power.lean ====
section
/-! DEFINITION. Power, reset and survival (chapter 15). -/

namespace Sys2Proof.Machine

def pwrEvt (s : State) (b : Nat) : State := s.evt R.pwrEvtStatus b

def State.setPwr (s : State) (p : PwrSt) : State := { s with pwr := p }

/-- The die is out of reset. -/
def State.dieRuns (s : State) : Bool := s.pwr.reset == .running

def warned (s : State) : Bool := s.bit R.pwrStatus 3

def bootStage (s : State) : Nat := s.field R.pwrStatus 23 20

/-! ### Reset of the die (R486) -/

/-- What MRAM keeps across a reset: the journal, unless the rate changes, and the persistent store (R264). -/
def resetJnl (newRate : Bool) (j : JnlSt) : JnlSt :=
  if newRate then { hdrNum := j.hdrNum, store := { j.store with refs := [] } } else { j with bg := none }

/-- Causes over which the oven stays supplied (R494, R498). -/
def keepsOven (cause : Nat) : Bool := decide (2 ≤ cause) && decide (cause ≤ 5)

/-- Reset of the die: everything starts anew except the power stage, MRAM, flash and the lock. -/
def dieReset (cause : Nat) (mode : BootReset) (s : State) : State :=
  let jnl := resetJnl (s.rate96 != s.jnl.store.rate96) s.jnl
  let old := s.pwr
  let pwr : PwrSt :=
    { reset := mode
      cause := cause
      allowance := old.allowance
      clampAt := old.clampAt
      inputOpen := old.inputOpen
      inputLow := old.inputLow
      retained := old.retained
      resetPin := old.resetPin
      needHold := old.needHold
      thermRestart := old.thermRestart }
  let base : Int := s.clk
  let n : State :=
    { pending := s.pending
      clk := s.clk
      outbox := s.outbox
      freeCtr := s.freeCtr
      modId := s.modId
      jnl := jnl
      svc := svcReset s.svc
      pwr := pwr
      irq := { downAt := some s.clk }
      tim := { base := -(base * 1024) } }
  let rate := b2n s.jnl.store.rate96
  let n := (n.setNat R.glbRate (rate * 17)).setNat R.pwrResetCause cause
  let n := n.setBit R.pwrStatus 8 (keepsOven cause && s.bit R.pwrStatus 8)
  n.setBit R.pwrStatus 6 old.clampAt.isSome

/-- PG rises and boot begins (R487). -/
def bootStart (s : State) : State :=
  let s := dieReset s.pwr.cause .running s
  (s.setPwr { s.pwr with bootAt := s.clk, thermRestart := false }).setField R.pwrStatus 23 20 1

/-! ### Boot (R487, R488, R506) -/

/-- Stage 1: the image. -/
def imageStage (s : State) : State :=
  match chooseImage s with
  | none => s.setField R.pwrStatus 23 20 7
  | some (i, ver, svn) =>
    (s.setSvc { s.svc with running := i, runVer := ver, runSvn := svn, fallback := i != s.svc.select }).setField R.pwrStatus 23 20 2

/-- Locked interrupt entries (R316): source 40 to HOST at priority 15, group 15 to CC0 to CC3 with the priority the firmware chose. -/
def fwSources (s : State) : State :=
  let s := s.setNat (irqCfg 40) 0xA0000F00
  (List.range 32).foldl (fun s i =>
    let w := Config.fwRoute i
    s.setNat (irqCfg (480 + i)) (0xA0000000 + (1 + fld w 17 16) * 65536 + fld w 11 8 * 256)) s

/-- The pair descriptor with which the unit last formed: it comes back SILENT (R120, R466). -/
def bootPair (s : State) : State :=
  match s.jnl.store.pair with
  | none => s
  | some p =>
    let w := wordsOf p
    let cm := (w.zipIdx).foldl (fun c e => c.setReg (R.mirCfg + 4 * e.2) e.1) s.cm
    let s := { s with cm := cm, hist := [(0, cm)] }
    s.setNat R.mirState (4 + (if bit (wAt w 0) 1 then 32 else 0))

/-- READY. -/
def bootReady (s : State) : State :=
  let s := bootPair (restoreScene s)
  let s := (s.setField R.pwrStatus 23 20 5).setNat R.pwrBootMs ((s.clk - s.pwr.bootAt) / 1250000)
  pwrEvt (svcReady (timStart s)) 8

/-- BOOT_STAGE_END. -/
def doBootStageEnd (r : BootIn) (s : State) : State :=
  if !s.dieRuns then s
  else
    match bootStage s with
    | 1 => imageStage s
    | 2 =>
      if r.ok then s.setField R.pwrStatus 23 20 3
      else (s.setNat R.pwrBistFail (2 ^ 31 + r.fail / 65536 % 512 * 65536 + r.fail % 256)).setField R.pwrStatus 23 20 6
    | 3 => (fwSources s).setField R.pwrStatus 23 20 4
    | 4 => bootReady s
    | _ => s

def execBootStageEnd (r : BootIn) (s : State) : Host.Outcome State Fault Refusal := .next (settle (doBootStageEnd r s))

/-- OCXO_WARM. -/
def doOcxoWarm (s : State) : State := if s.pwr.reset == .off then s else s.setBit R.pwrStatus 8 true

def execOcxoWarm (s : State) : Host.Outcome State Fault Refusal := .next (settle (doOcxoWarm s))

/-! ### Supply warning (R481 to R484) -/

/-- A transaction whose verdicts the pass still awaited is refused (R482). -/
def refuseUndecided (s : State) : State :=
  (s.cmd.txns.filter (·.undecided)).foldl (fun s t =>
    let v : Verdict := { status := stBadState }
    let s := s.putTxn { t with phase := .refused, undecided := false, awaits := [], verdict := v }
    tellDecision s t v) s

/-- Notice, silence, refusal and an end of the checkpoint in progress (R481, R482). -/
def warnActions (s : State) : State :=
  let st := mirSt s
  let s := sendDown s
  let s := if st = 2 ∨ st = 3 ∨ st = 5 ∨ st = 6 ∨ st = 7 then goSilent s else s
  let s := refuseUndecided s
  { s with jnl := { s.jnl with bg := none } }

/-- Load shedding begins with the next egress block (R483). -/
def startShed (s : State) : State :=
  if s.pwr.shedAt.isSome then s else s.setPwr { s.pwr with shedAt := some (nextOut s), unshed := false }

/-- A supply warning, or the same actions before a reset that is ordered (R486). -/
def warn (s : State) : State :=
  if warned s then s
  else
    let s := (s.setBit R.pwrStatus 3 true).setBit R.pwrStatus 5 false
    let s := warnActions (pwrEvt (s.inc R.pwrCntWarn) 0)
    if s.bit R.pwrCtrl 0 then startShed s else s

/-- SUPPLY_WARNING. -/
def doSupplyWarning (s : State) : State := if s.dieRuns then warn s else s

def execSupplyWarning (s : State) : Host.Outcome State Fault Refusal := .next (settle (doSupplyWarning s))

/-- Nothing is left to seal: no unsealed record, no admitted transaction. -/
def allSealed (s : State) : Bool := s.jnl.recs.all (·.isSealed) && s.cmd.txns.all fun t => t.phase != .admitted

/-- JOURNAL_SEALED (R482): the header with CLEAN = 1. -/
def doJournalSealed (s : State) : State :=
  if s.dieRuns && passBlocked s && !s.bit R.pwrStatus 5 && allSealed s then
    let s := { s with jnl := { s.jnl with clean := some (lastSealed s), hdrNum := s.jnl.hdrNum + 1 } }
    pwrEvt (s.setBit R.pwrStatus 5 true) 2
  else s

def execJournalSealed (s : State) : Host.Outcome State Fault Refusal := .next (settle (doJournalSealed s))

/-- WARNING_CLEAR (R484). -/
def doWarningClear (s : State) : State :=
  if s.dieRuns && warned s then
    let s := pwrEvt ((s.setBit R.pwrStatus 3 false).setBit R.pwrStatus 5 false) 1
    let s := if s.pwr.shedAt.isSome then s.setPwr { s.pwr with unshed := true } else s
    if gangRole s = 2 then tellLeader (s.setField R.nylGangState 26 24 3) 1 0 else s
  else s

def execWarningClear (s : State) : Host.Outcome State Fault Refusal := .next (settle (doWarningClear s))

/-- An output held from boundary `t`, with a chain of zero state, as if it switched there (R152, R484). -/
def holdFrom (t : Nat) (s : State) (o : Nat) : State :=
  let r := fadeTo (s.cor o) t
  let B := s.blockLen
  let held : CorRt × Nat := match r.pend with
    | some c => takeOver B t r c
    | none => ({ r with
      supp := .hold
      w := t
      j := t + ceilDiv (corSettle B r.cfg r.len r.pd) B
      hist := []
      pdHist := [] }, 0)
  let s := s.setCor o held.1
  let x := s.outRt o
  if x.sp then s
  else s.setOut o { x with mute := { fromG := 0, toG := 0, fromDb := -32768, toDb := -32768 } }

/-- Load shedding at boundary `t`: the engines stop, or rendering is taken up again (R483, R484). -/
def shedBoundary (t : Nat) (s : State) : State :=
  if s.pwr.unshed then
    let keys := (s.cors.map (·.1) ++ s.smp.outs.map (·.1)).dedup
    let s := if s.pwr.shedAt.isSome then keys.foldl (holdFrom t) s else s
    (s.setPwr { s.pwr with shedAt := none, shedDone := false, unshed := false }).setBit R.pwrStatus 4 false
  else
    match s.pwr.shedAt with
    | some k => if k + 2 ≤ t then (s.setPwr { s.pwr with shedDone := true }).setBit R.pwrStatus 4 true else s
    | none => s

/-! ### Resets and restarts (R479, R486, R494) -/

/-- BROWN_OUT_RESET: HOLD falls through 31.0 V. -/
def doBrownOutReset (s : State) : State :=
  let need (s : State) : State := s.setPwr { s.pwr with needHold := true }
  if s.dieRuns then need (dieReset (if s.pwr.inputOpen then 6 else 1) .held s) else need s

def execBrownOutReset (s : State) : Host.Outcome State Fault Refusal := .next (settle (doBrownOutReset s))

/-- RETENTION_LOSS: HOLD falls below 12 V in reset. -/
def doRetentionLoss (s : State) : State :=
  if s.dieRuns then s
  else
    let s := s.setPwr { s.pwr with reset := .off, cause := 0, retained := false, needHold := true, thermRestart := false }
    (s.setReg R.pwrResetCause 0).setBit R.pwrStatus 8 false

def execRetentionLoss (s : State) : Host.Outcome State Fault Refusal := .next (settle (doRetentionLoss s))

/-- RESTART: HOLD has stayed above 35.5 V for 10 ms. -/
def doRestart (s : State) : State :=
  if !s.dieRuns && s.pwr.needHold then
    let s := s.setPwr { s.pwr with needHold := false, retained := true }
    if s.pwr.resetPin then s.setPwr { s.pwr with reset := .held } else bootStart s
  else s

def execRestart (s : State) : Host.Outcome State Fault Refusal := .next (settle (doRestart s))

/-- RESET_N: held low for 10 µs. -/
def doResetN (s : State) : State :=
  let s := s.setPwr { s.pwr with resetPin := true }
  if s.dieRuns || s.pwr.reset == .standby then dieReset 2 .held s else s

def execResetN (s : State) : Host.Outcome State Fault Refusal := .next (settle (doResetN s))

/-- RESET_N_RELEASE. -/
def doResetNRelease (s : State) : State :=
  if s.pwr.resetPin then
    let s := s.setPwr { s.pwr with resetPin := false }
    if s.dieRuns || s.pwr.needHold then s else bootStart s
  else s

def execResetNRelease (s : State) : Host.Outcome State Fault Refusal := .next (settle (doResetNRelease s))

/-- OP_SYS_RESET: the reset follows in 10 ms; until then as at a warning (R486). -/
def sysReset (p : List Byte) (s : State) : State × Res :=
  if !p.isEmpty then (s, resErr stBadParam)
  else if s.cmd.resetDue.isSome then (s, resErr stOk)
  else
    let s := { s with cmd := { s.cmd with resetDue := some (s.clk + msClk 10) } }
    (warn s, resErr stOk)

/-- DEFERRED_RESET. -/
def doDeferredReset (s : State) : State :=
  match s.cmd.resetDue with
  | none => s
  | some due =>
    if s.dueOk due then
      let s := s.atClk due
      bootStart (s.setPwr { s.pwr with cause := 3 })
    else s

def execDeferredReset (s : State) : Host.Outcome State Fault Refusal := .next (settle (doDeferredReset s))

/-! ### Overvoltage (R478) -/

/-- The clamp's whole allowance: 100 ms. -/
def clampFull : Nat := 125000000

/-- OV_CLAMP reads `on`; a clamp or trip counts. -/
def ovReg (on count : Bool) (s : State) : State :=
  if s.dieRuns then
    let s := s.setBit R.pwrStatus 6 on
    if count then pwrEvt (s.inc R.pwrCntOv) 3 else s
  else s

/-- OV_CLAMP: the input rises above 75 V. -/
def doOvClamp (s : State) : State :=
  if s.pwr.inputOpen || s.pwr.clampAt.isSome || s.pwr.allowance == 0 then s
  else ovReg true true (s.setPwr { s.pwr with clampAt := some s.clk, inputLow := none })

def execOvClamp (s : State) : Host.Outcome State Fault Refusal := .next (settle (doOvClamp s))

/-- What the clamp has drawn since it began. -/
def clampUsed (s : State) : Nat := match s.pwr.clampAt with
  | some c => s.clk - c
  | none => 0

/-- OV_CLAMP_END: the input falls below 75 V while some allowance is left. -/
def doOvClampEnd (s : State) : State :=
  if s.pwr.clampAt.isSome && decide (clampUsed s < s.pwr.allowance) then
    ovReg false false (s.setPwr { s.pwr with
      allowance := s.pwr.allowance - clampUsed s
      clampAt := none
      inputLow := some s.clk })
  else s

def execOvClampEnd (s : State) : Host.Outcome State Fault Refusal := .next (settle (doOvClampEnd s))

/-- OV_TRIP: the allowance is exhausted, or the input is above 100 V. -/
def doOvTrip (s : State) : State :=
  if s.pwr.inputOpen then s
  else
    ovReg false true (s.setPwr { s.pwr with
      allowance := s.pwr.allowance - clampUsed s
      clampAt := none
      inputLow := none
      inputOpen := true })

def execOvTrip (s : State) : Host.Outcome State Fault Refusal := .next (settle (doOvTrip s))

/-- INPUT_RECLOSE: the input has been below 75 V for 10 ms. -/
def doInputReclose (s : State) : State :=
  if s.pwr.inputOpen then s.setPwr { s.pwr with inputOpen := false, inputLow := some (s.clk - msClk 10) } else s

def execInputReclose (s : State) : Host.Outcome State Fault Refusal := .next (settle (doInputReclose s))

/-- ALLOWANCE_REFILL: the input has been below 75 V for 10 s. -/
def doAllowanceRefill (s : State) : State :=
  match s.pwr.inputLow with
  | none => s
  | some c =>
    let due := c + secClk 10
    if !s.pwr.inputOpen && s.dueOk due then (s.atClk due).setPwr { s.pwr with allowance := clampFull, inputLow := none } else s

def execAllowanceRefill (s : State) : Host.Outcome State Fault Refusal := .next (settle (doAllowanceRefill s))

/-! ### Temperature (R489, R490) -/

/-- A temperature register: Q8.8 in bits 15 to 0. -/
def tempWord (t : Int) : Nat := bitsOf 16 (satS 16 t)

def tempOf (w : Word) : Int := signedOf 16 w.toNat

/-- The thermal trip. -/
def thermalTrip (s : State) : State :=
  let s := warnActions (pwrEvt s 5)
  s.setPwr { s.pwr with trip := true, tripAt := some (nextOut s) }

/-- THERMAL_SAMPLE: the highest die sensor, the power stage and the OCXO, Q8.8 °C. -/
def doThermalSample (tj tstage tocxo : Int) (s : State) : State :=
  if s.pwr.reset == .held || s.pwr.reset == .off then s
  else
    let s := ((s.setNat R.pwrTj (tempWord tj)).setNat R.pwrTstage (tempWord tstage)).setNat R.pwrTocxo (tempWord tocxo)
    if !s.dieRuns then s
    else
      let s := if tempOf (s.reg R.pwrTjPeak) < tj then s.setNat R.pwrTjPeak (tempWord tj) else s
      let s := if 25600 ≤ tj then (if s.bit R.pwrStatus 7 then s else pwrEvt (s.setBit R.pwrStatus 7 true) 4)
        else if tj < 24320 then s.setBit R.pwrStatus 7 false else s
      let s := s.setPwr { s.pwr with hot := if 29440 ≤ tj then s.pwr.hot + 1 else 0 }
      if 32000 ≤ tj then
        let s := dieReset 5 .held s
        s.setPwr { s.pwr with needHold := true }
      else if 3 ≤ s.pwr.hot ∧ s.pwr.trip = false then thermalTrip s
      else s

def execThermalSample (tj tstage tocxo : Int) (s : State) : Host.Outcome State Fault Refusal :=
  .next (settle (doThermalSample tj tstage tocxo s))

/-- THERMAL_POWER_DOWN: zeros have gone out for 8 ticks. -/
def doThermalPowerDown (s : State) : State :=
  match s.pwr.tripAt with
  | none => s
  | some k =>
    if !s.tickRuns || decide (k + 9 ≤ nextOut s) then
      let restart := s.bit R.pwrCtrl 1
      let tj := s.reg R.pwrTj
      let s := dieReset 4 .standby s
      (s.setPwr { s.pwr with thermRestart := restart }).setReg R.pwrTj tj
    else s

def execThermalPowerDown (s : State) : Host.Outcome State Fault Refusal := .next (settle (doThermalPowerDown s))

/-- THERMAL_RESTART: the sensors read below 85 °C. -/
def doThermalRestart (s : State) : State :=
  if s.pwr.reset == .standby && s.pwr.thermRestart && !s.pwr.needHold && decide (tempOf (s.reg R.pwrTj) < 21760) then bootStart s
  else s

def execThermalRestart (s : State) : Host.Outcome State Fault Refusal := .next (settle (doThermalRestart s))

/-! ### Output drivers (R491, R492) -/

/-- The device drives the output with this index. -/
def driven (s : State) (d : Nat) : Bool :=
  let p := d % 32
  if d < 32 then (s.port p).en && (s.port p).outEn
  else if d < 96 then (s.port p).en && (s.port p).master
  else if d < 100 then bit (s.mapCm.reg R.meaCtrl) (4 + (d - 96))
  else if d < 116 then (match tabGet s.tim.trigs (d - 100) with
    | some t => t.mode != 0
    | none => false)
  else if d < 119 then bit (refCfg s.mapCm 0) (4 + (d - 116))
  else false

def drvBit (base d : Nat) : Nat := base + 4 * (d / 32)

/-- DRIVER_FAULT. -/
def doDriverFault (pin : Nat) (isOpen : Bool) (s : State) : State :=
  let off := s.bit (drvBit R.pwrDrvOff pin) (pin % 32)
  if s.dieRuns && driven s pin && !off && (!isOpen || s.bit (drvBit R.pwrDrvOpenEn pin) (pin % 32)) then
    let s := s.setBit (drvBit (if isOpen then R.pwrDrvOpen else R.pwrDrvShort) pin) (pin % 32) true
    let s := s.setBit (drvBit R.pwrDrvOff pin) (pin % 32) true
    pwrEvt (s.setPwr { s.pwr with drv := tabSet s.pwr.drv pin (s.clk + msClk 100) }) 6
  else s

def execDriverFault (pin : Nat) (isOpen : Bool) (s : State) : Host.Outcome State Fault Refusal :=
  .next (settle (doDriverFault pin isOpen s))

/-- DRIVER_RETRY. -/
def doDriverRetry (pin : Nat) (good : Bool) (s : State) : State :=
  match tabGet s.pwr.drv pin with
  | none => s
  | some due =>
    if s.dueOk due then
      let s := s.atClk due
      if good then (s.setPwr { s.pwr with drv := tabDel s.pwr.drv pin }).setBit (drvBit R.pwrDrvOff pin) (pin % 32) false
      else (s.setPwr { s.pwr with drv := tabSet s.pwr.drv pin (due + msClk 100) }).inc R.pwrCntDrvRetry
    else s

def execDriverRetry (pin : Nat) (good : Bool) (s : State) : Host.Outcome State Fault Refusal :=
  .next (settle (doDriverRetry pin good s))

/-! ### Microphone lines (R493) -/

/-- A flag sets: the microphone is not valid until it clears (R167). -/
def micFlag (reg mic : Nat) (s : State) : State :=
  if s.bit reg mic then s else micReset mic none (pwrEvt ((s.setBit reg mic true).inc R.pwrCntMic) 7)

def micWatched (s : State) (mic : Nat) : Bool := s.dieRuns && decide (mic < 32) && micEn s.mapCm mic

/-- MIC_STUCK. -/
def doMicStuck (mic : Nat) (s : State) : State := if micWatched s mic then micFlag R.pwrMicStuck mic s else s

def execMicStuck (mic : Nat) (s : State) : Host.Outcome State Fault Refusal := .next (settle (doMicStuck mic s))

/-- MIC_STUCK_CLEAR. -/
def doMicStuckClear (mic : Nat) (s : State) : State := if mic < 32 then s.setBit R.pwrMicStuck mic false else s

def execMicStuckClear (mic : Nat) (s : State) : Host.Outcome State Fault Refusal := .next (settle (doMicStuckClear mic s))

/-- MIC_OPEN_PROBE: the sampled bit followed the pull, or did not. -/
def doMicOpenProbe (mic : Nat) (isOpen : Bool) (s : State) : State :=
  if micWatched s mic then
    let n := if isOpen then tabGetD s.pwr.probes mic 0 + 1 else 0
    let s := s.setPwr { s.pwr with probes := if n = 0 then tabDel s.pwr.probes mic else tabSet s.pwr.probes mic n }
    if n = 0 then s.setBit R.pwrMicOpen mic false
    else if 32 ≤ n then micFlag R.pwrMicOpen mic s
    else s
  else s

def execMicOpenProbe (mic : Nat) (isOpen : Bool) (s : State) : Host.Outcome State Fault Refusal :=
  .next (settle (doMicOpenProbe mic isOpen s))

/-! ### Commands (R496, R498) -/

/-- OP_PWR_SET. -/
def pwrSet (p : List Byte) (s : State) : State × Res :=
  let w := wAt (wordsOf p) 0
  if p.length ≠ 4 ∨ fld w 31 1 ≠ 0 then (s, resErr stBadParam)
  else
    let s := s.setBit R.pwrCtrl 0 (bit w 0)
    (if bit w 0 && warned s then startShed s else s, resErr stOk)

/-- A measured value (R495). -/
def telemetry (s : State) (i : Nat) : Word := Config.telemetry i s.clk

/-- OP_PWR_STATUS. -/
def pwrStatusOp (p : List Byte) (s : State) : State × Res :=
  let drv := (List.range 4).any fun i => s.reg (R.pwrDrvOff + 4 * i) != 0
  let mic := s.reg R.pwrMicStuck != 0 || s.reg R.pwrMicOpen != 0
  if p.isEmpty then
    (s, resWords [s.reg R.pwrStatus, telemetry s 2, telemetry s 4, s.reg R.pwrTj, s.reg R.pwrResetCause, wd (b2n drv + 2 * b2n mic)])
  else (s, resErr stBadParam)

end Sys2Proof.Machine
end

