-- ==== Sys2Proof/Machine/Views.lean ====
section
/-! DEFINITION. Reading registers: what each returns (R13 to R21), companions latched by reads (R517), and snapshots (R124 to R130). -/

namespace Sys2Proof.Machine

/-! ### Registers that follow from the rest of the state -/

/-- GLB registers that describe the module (R523, R524). -/
def glbView (s : State) (off : Nat) : Option Word :=
  let small := s.modId.variant = 2
  match off with
  | 0x04 => some (wd (0x52590000 + s.modId.variant % 16 * 4096 + s.modId.dieRev % 16 * 256 + s.modId.moduleRev % 256))
  | 0x08 => some (wd s.svc.runVer)
  | 0x0C => some (wd s.outputs)
  | 0x10 => some (wd s.objects)
  | 0x14 => some (wd ((if small then 262144 else 1048576) / (if s.rate96 then 2 else 1)))
  | 0x18 => some (wd (if small then 0xFFFF else 0xFFFFFFFF))
  | 0x20 => some (wd (0x1E9C + (if small then 0x0512 else 0x1024) * 65536))
  | 0x24 => some (wd s.cmd.rwe.length)
  | _ => none

def cmdView (s : State) (off : Nat) : Option Word :=
  if off = 0x80C then some (txnCountRead s)
  else if off = 0x850 then some (wd (jnlUsed s))
  else if off = 0x40 then some (netCtrlRead s)
  else if 0x400 ≤ off ∧ off < 0x800 ∧ off % 32 = 0x14 then some (sqStatRead s ((off - 0x400) / 32))
  else if 0xC00 ≤ off ∧ off < 0x1000 ∧ off % 32 = 0x14 then some (cqCreditRead s ((off - 0xC00) / 32))
  else none

def irqView (s : State) (off : Nat) : Option Word :=
  if 0x140 ≤ off ∧ off < 0x180 then some (grpHoldRead s ((off - 0x140) / 4))
  else if 0x1000 ≤ off ∧ off < 0x12A0 ∧ off % 32 = 8 then some (stackStat s ((off - 0x1000) / 32))
  else if 0x2000 ≤ off ∧ off < 0x2540 then some (stackEntry s ((off - 0x2000) / 64) (off % 64 / 4))
  else none

/-- Transactions a master has outstanding (R300). -/
def outstanding (s : State) (m : Nat) : Nat := (s.cis.bus.filter fun w => w.t.master == m && decide (0 < w.stage)).length

def busView (s : State) (off : Nat) : Option Word :=
  if 0x300 ≤ off ∧ off < 0x364 then some (wd (outstanding s ((off - 0x300) / 4))) else none

/-- Headworks and interpolator coefficients (R70, R75). -/
def pmpView (s : State) (off : Nat) : Option Word :=
  if 0x400 ≤ off ∧ off < 0x580 then
    let c := ((hwCoefs s.fs ((off - 0x400) / 64)).getD (off % 64 / 20) []).getD (off % 64 % 20 / 4) 0
    some (if off % 64 < 60 then wdI c else 0)
  else if 0x800 ≤ off ∧ off < 0x2000 then some (wdI ((romPhase ((off - 0x800) / 24)).getD ((off - 0x800) % 24 / 4) 0))
  else if off = 0x2C then some (Config.timingCount R.pmpCntStall s.clk)
  else none

def corView (s : State) (off : Nat) : Option Word :=
  if 0x180 ≤ off ∧ off < 0x200 then some (corHoldRead s ((off - 0x180) / 4))
  else if 0x5000 ≤ off ∧ off < 0x6000 then some (corStateRead s ((off - 0x5000) / 4))
  else if 0x6000 ≤ off ∧ off < 0x7000 then some (hbRomRead ((off - 0x6000) / 256) (off % 256 / 4))
  else none

def ecxView (s : State) (off : Nat) : Option Word :=
  let c := off / 4096
  let o := off % 4096
  if o = 8 then some (ecStateRead s c)
  else if 0x100 ≤ o ∧ o < 0x1E0 then some (ecRegsRead s c ((o - 0x100) / 4))
  else if 0x200 ≤ o ∧ o < 0x240 then some (ecAccRead s c ((o - 0x200) / 16) (o % 16 / 4))
  else none

/-- MAC addresses stand as the factory wrote them until a commit changes them (R370). -/
def netView (s : State) (off : Nat) : Option Word :=
  let p := (off - 0x100) / 128
  let a := R.netVersion + off
  let mac := s.modId.macs.getD p 0
  if 0x100 ≤ off ∧ off < 0x300 ∧ (tabGet s.cm.rwe a).isNone = true then
    (if off % 128 = 4 then some (wd mac) else if off % 128 = 8 then some (wd (mac / 2 ^ 32)) else none)
  else none

def strView (s : State) (off : Nat) : Option Word :=
  if off = 0x10 then some (rxActiveRead s)
  else if off = 0x14 then some (txActiveRead s)
  else if 0x4000 ≤ off ∧ off < 0x8000 ∧ off % 64 = 0 then some (rxStateRead s ((off - 0x4000) / 64))
  else if 0x8000 ≤ off ∧ off < 0xC000 ∧ off % 64 = 0 then some (txStateRead s ((off - 0x8000) / 64))
  else none

/-- What the link, gang and pair registers show. -/
def nylView (s : State) (off : Nat) : Option Word :=
  if off = 0x1C then some (memberMapRead s)
  else if off = 0x800 then some (mirStateRead s)
  else if 0x200 ≤ off ∧ off < 0x380 ∧ off % 64 = 0 then some (linkStatRead s ((off - 0x200) / 64))
  else none

def pwrView (s : State) (off : Nat) : Option Word :=
  if 0x24 ≤ off ∧ off ≤ 0x30 then some (telemetry s ((off - 0x24) / 4 + 1)) else none

def svcView (s : State) (off : Nat) : Option Word :=
  match off with
  | 0x08 => some (svcStateRead s)
  | 0x14 => some (sessionLeft s)
  | 0x18 => some (wd s.modId.devId)
  | 0x1C => some (wd (s.modId.devId / 2 ^ 32))
  | 0x20 => some (wd s.svc.rb)
  | _ => if 0x40 ≤ off ∧ off < 0x60 then some (ownerHash s ((off - 0x40) / 4)) else none

/-- SNP_STATUS. -/
def snpView (s : State) (off : Nat) : Option Word :=
  if off = 0x1C then
    some (wd (b2n s.snp.aHeld * 8 + b2n s.snp.time.isSome * 4 + b2n s.snp.bHeld * 2 + b2n s.snp.aHeld))
  else none

/-- A register that is not stored, by address. -/
def viewOf (s : State) (a : Nat) : Option Word :=
  let off := a % 0x10000
  match a / 0x10000 with
  | 0 => glbView s off
  | 1 => cmdView s off
  | 2 => irqView s off
  | 3 => busView s off
  | 4 => if off = 0x44 then some (Config.timingCount R.cisCntStarve s.clk) else none
  | 6 => pmpView s off
  | 8 => corView s off
  | 9 => if off = 0x0C then some (chainDelayRead s) else if off = 0x10 then some (chainSettleRead s) else none
  | 10 => ecxView s off
  | 11 => netView s off
  | 12 => strView s off
  | 14 => if off = 0x10 then some (sapLostRead s) else if off = 0x14 then some (sapBurstRead s) else none
  | 15 => nylView s off
  | 16 => pwrView s off
  | 17 => svcView s off
  | 18 => snpView s off
  | _ => none

/-! ### Latches (R381, R517) -/

/-- Requesters: 0 BAR0, 1 + m bus-matrix master m, 26 the firmware that serves OP_REG_READ. -/
def fwReq : Nat := 26

def latchKey (req a : Nat) : Nat := req * 0x1000000 + a

def latched (s : State) (req a : Nat) : Word := tabGetD s.latch (latchKey req a) 0

def setLatch (s : State) (req a : Nat) (v : Word) : State := { s with latch := tabSet s.latch (latchKey req a) v }

/-- Registers whose read latches the word after them. -/
def latching (a : Nat) : Bool :=
  a == R.cmdEpochTickLo || a == R.geoPubTickLo || a == R.pmpBlkTickLo || a == R.corBlkTickLo || a == R.meaBlkTickLo ||
  a == R.strBlkTickLo || (a / 0x10000 == 10 && a % 0x1000 == 0x30)

/-- Registers of the full time views (R381). -/
def timeViewRegs : List Nat := (List.range 8).map fun i => R.timEpochHi + 4 * i

/-- Capture registers of a pin: 1 TIM_CAP_LO, 2 TIM_CAP_HI, 3 TIM_CAP_INFO; 0 for others. -/
def capPart (a : Nat) : Nat := if R.timCapStat ≤ a ∧ a < R.timCapStat + 256 then a % 16 / 4 else 0

/-- A register that returns what its requester's last read of another latched. -/
def isCompanion (a : Nat) : Bool :=
  (decide (4 ≤ a) && latching (a - 4)) || timeViewRegs.contains a || decide (2 ≤ capPart a)

/-- The values a read of TIM_NOW_LO latches. -/
def timeViews (s : State) : List Word :=
  let t := s.tNs
  let smp := s.t1280 * s.fs / 1280000000000
  [wd (t / 2 ^ 32), wd (t / 1000000000), wd (t / 1000000000 / 2 ^ 32 % 65536), wd (t % 1000000000), wd smp, wd (smp / 2 ^ 32),
    wd s.tickNow, wd (s.tickNow / 2 ^ 32)]

/-- Read of TIM_NOW_LO. -/
def readNow (req : Nat) (s : State) : State × Word :=
  ((timeViewRegs.zip (timeViews s)).foldl (fun s e => setLatch s req e.1 e.2) s, s.stamp)

/-- Read of TIM_CAP_LO of a pin (R405, R413). -/
def readCap (req pin : Nat) (s : State) : State × Word :=
  match s.caps pin with
  | [] => (setLatch s req (capReg pin 0xC) 0, 0xFFFFFFFF)
  | e :: rest =>
    let ns := e.t4 / 4
    let s := setLatch (setCaps s pin rest) req (capReg pin 8) (wd (ns / 2 ^ 32))
    (setLatch s req (capReg pin 0xC) (wd (2 ^ 31 + b2n e.falling * 16 + e.t4 % 4)), wd ns)

/-! ### A read -/

/-- Value of a register without the effects of a read: as stored, as committed (R14), or as it follows from the state. -/
def regValue (s : State) (a : Nat) : Word :=
  match rowAt a with
  | none => 0
  | some r =>
    if r.acc = .wo then 0
    else
      match viewOf s a with
      | some v => v
      | none => if r.acc = .rwe then s.cm.reg a else s.reg a

/-- Interrupt registers whose read claims (R323). -/
def claimTarget (a : Nat) : Option Nat :=
  if R.irqClaim ≤ a ∧ a < R.irqClaim + 0x2A0 ∧ (a - R.irqClaim) % 32 = 0 then some ((a - R.irqClaim) / 32) else none

def claimVec (a : Nat) : Option Nat := if R.irqHostVclaim ≤ a ∧ a < R.irqHostVclaim + 128 ∧ a % 4 = 0 then some ((a - R.irqHostVclaim) / 4) else none

/-- A register read by a requester, with its effects (R517, R520). -/
def regRead (req a : Nat) (s : State) : State × Word :=
  match claimTarget a with
  | some t => claimRead s t (fun _ => true)
  | none =>
    match claimVec a with
    | some v => claimRead s 0 (fun x => irqVec s x == v)
    | none =>
      if a = R.timNowLo then readNow req s
      else if capPart a = 1 then readCap req ((a - R.timCapStat) / 16) s
      else if isCompanion a then (s, latched s req a)
      else if latching a then (setLatch s req (a + 4) (s.reg (a + 4)), regValue s a)
      else (s, regValue s a)

/-- A BAR0 offset that reaches no register: unassigned space and the flash controller's window (R516, R520). -/
def hostUnmapped (a : Nat) : Bool := decide (0x130000 ≤ a) || (decide (0x118000 ≤ a) && decide (a ≤ 0x118FFF))

/-- A host access error (R526). -/
def hostErr (a b : Nat) (s : State) : State := (s.setBit R.glbErr b true).setNat R.glbErrAddr (a % 0x1000000)

/-- LATCHING_READ: a register read that may latch its companion. -/
def doLatchingRead (req addr : Nat) (s : State) : State :=
  if s.dieRuns then
    let s := if req == 0 && hostUnmapped addr then hostErr addr 1 s else s
    let r := regRead (min req fwReq) addr s
    r.1.emit (.read req addr r.2)
  else s

def execLatchingRead (req addr : Nat) (s : State) : Host.Outcome State Fault Refusal := .next (settle (doLatchingRead req addr s))

/-- TIM_NOW_READ. -/
def doTimNowRead (req : Nat) (s : State) : State :=
  if s.dieRuns then
    let r := readNow (min req fwReq) s
    r.1.emit (.read req R.timNowLo r.2)
  else s

def execTimNowRead (req : Nat) (s : State) : Host.Outcome State Fault Refusal := .next (settle (doTimNowRead req s))

/-- TIM_CAP_READ. -/
def doTimCapRead (req pin : Nat) (s : State) : State :=
  if s.dieRuns && decide (pin < 16) then
    let r := readCap (min req fwReq) pin s
    r.1.emit (.read req (capReg pin 4) r.2)
  else s

def execTimCapRead (req pin : Nat) (s : State) : Host.Outcome State Fault Refusal := .next (settle (doTimCapRead req pin s))

/-! ### Snapshots (R124 to R130) -/

/-- What a register latches: the time views as BAR0 last latched them (R527). -/
def imageWord (s : State) (a : Nat) : Word := if timeViewRegs.contains a then latched s 0 a else regValue s a

/-- First register of a set's group and of its image. -/
def snpGroup (b : Bool) : Nat := if b then R.snpB else R.snpACause
def snpImage (b : Bool) : Nat := if b then R.snpBImg else R.snpAImg

/-- Image of block `i`; words that already stand are left alone. -/
def latchBlock (src : State) (b : Bool) (s : State) (i : Nat) : State :=
  (List.range 256).foldl (fun s j =>
    let a := snpImage b + 0x400 * i + 4 * j
    let v := imageWord src (0x10000 * i + 4 * j)
    if s.reg a = v then s else s.setReg a v) s

/-- Latch a set at boundary `t`: images of blocks GLB to SVC, then the group. -/
def latchSet (b : Bool) (cause fault t : Nat) (s : State) : State :=
  let src := s
  let s := (List.range 18).foldl (latchBlock src b) s
  let g := snpGroup b
  let s := ((s.setNat g cause).setNat (g + 4) fault).setNat (g + 8) s.cm.epoch
  let s := (s.setNat64 (g + 0xC) t).setReg (g + 0x14) s.stamp
  { s with snp := if b then { s.snp with bHeld := true } else { s.snp with aHeld := true } }

/-- The timed trigger has come due by boundary `t`: `T` in samples. -/
def timedDue (s : State) (t : Nat) : Bool := match s.snp.time with
  | some x => decide (ceilDiv x s.blockLen ≤ t)
  | none => false

/-- Triggers that a gang latches together are passed on to the members: boundary and causes (R126). -/
def passTrigger (t cause : Nat) (s : State) : State :=
  if s.bit R.snpCtrl 1 && gangRole s == 1 then
    (allMembers s).foldl (fun s m => sendMember s m mkSnapshot [t, cause] []) s
  else s

/-- Latch what is due at boundary `t` (R125, R126). -/
def snapBoundary (t : Nat) (s : State) : State :=
  let g := s.snp.gang.filter fun (e : Nat × Nat) => decide (e.1 ≤ t)
  let timed := timedDue s t
  let cause := b2n s.snp.cmd + b2n timed * 2 + b2n s.snp.pin * 4 + (if s.snp.faults = 0 then 0 else 8) +
    (if timed && s.snp.timeLate then 16 else 0)
  let cause := g.foldl (fun c e => c ||| e.2) cause
  let fault := s.snp.faults
  let s := { s with snp := { s.snp with
    cmd := false
    pin := false
    faults := 0
    time := if timed then none else s.snp.time
    timeLate := if timed then false else s.snp.timeLate
    gang := s.snp.gang.filter fun (e : Nat × Nat) => decide (t < e.1) } }
  if cause = 0 then s
  else if !s.snp.aHeld then latchSet false cause fault t s
  else if !s.snp.bHeld then latchSet true cause fault t s
  else s.inc R.snpCntDrop

/-- A command trigger: at the next boundary, in every member of a gang. -/
def snapCommand (s : State) : State :=
  if s.bit R.snpCtrl 0 then passTrigger (s.tick + 1) 1 { s with snp := { s.snp with cmd := true } } else s

/-- SNP_TRIG. -/
def doSnpTrig (val : Word) (s : State) : State := if s.dieRuns && bit val 0 then snapCommand s else s

def execSnpTrig (val : Word) (s : State) : Host.Outcome State Fault Refusal := .next (settle (doSnpTrig val s))

/-- SNP_TIME_ARM: a write to SNP_TIME_HI. -/
def doSnpTimeArm (val : Word) (s : State) : State :=
  if !s.dieRuns then s
  else
    let s := s.setReg R.snpTimeHi val
    if s.bit R.snpCtrl 0 then
      let x := s.regNat R.snpTimeLo + 2 ^ 32 * val.toNat
      let late := decide (ceilDiv x s.blockLen ≤ s.tick)
      let s := { s with snp := { s.snp with time := some x, timeLate := late } }
      passTrigger (max (s.tick + 1) (ceilDiv x s.blockLen)) (if late then 18 else 2) s
    else s

def execSnpTimeArm (val : Word) (s : State) : Host.Outcome State Fault Refusal := .next (settle (doSnpTimeArm val s))

/-- A set's group reads zero once it is released (R130). -/
def freeSet (b : Bool) (s : State) : State :=
  let s := s.clear ((List.range 6).map fun i => snpGroup b + 4 * i)
  { s with snp := if b then { s.snp with bHeld := false } else { s.snp with aHeld := false } }

/-- SNP_RELEASE. -/
def doSnpRelease (val : Word) (s : State) : State :=
  if !s.dieRuns then s
  else
    let s := if bit val 0 then freeSet false s else s
    if bit val 1 then freeSet true s else s

def execSnpRelease (val : Word) (s : State) : Host.Outcome State Fault Refusal := .next (settle (doSnpRelease val s))

/-- OP_SNP_TRIGGER. -/
def snpTriggerOp (p : List Byte) (s : State) : State × Res :=
  if p.isEmpty then (snapCommand s, resErr stOk) else (s, resErr stBadParam)

/-- OP_SNP_READ: a set's group, then its image. A set that is not held has nothing to read. -/
def snpReadOp (p : List Byte) (s : State) : State × Res :=
  let w := wAt (wordsOf (p.take 4)) 0
  let b := bit w 0
  if p.length ≠ 16 ∨ fld w 31 1 ≠ 0 then (s, resErr stBadParam)
  else
    let g := (List.range 6).map fun i => s.reg (snpGroup b + 4 * i)
    let img := (List.range (18 * 256)).map fun i => s.reg (snpImage b + 4 * i)
    (s, resTo (p.drop 4) (bytesOfWords (g ++ img)))

end Sys2Proof.Machine
end

