-- ==== Sys2Proof/Machine/Queries.lean ====
section
/-! DEFINITION. Queries that read tables and registers (R263 to R266, R518). -/

namespace Sys2Proof.Machine

/-! ### System -/

/-- Pairs a part holds at the rate in force (R1, R2). -/
def partPairs (s : State) (part : Nat) : Nat := (if part = 2 then 262144 else 1048576) / (if s.rate96 then 2 else 1)

/-- Pairs of the unit: those of its modules together (R28). -/
def unitPairs (s : State) : Nat :=
  partPairs s s.modId.variant + sumNat ((allMembers s).map fun m =>
    partPairs s (((tabGet s.nyl.answers m).map (·.part)).getD s.modId.variant))

/-- OP_SYS_INFO. -/
def sysInfo (p : List Byte) (s : State) : State × Res :=
  if p.isEmpty then
    (s, resWords [regValue s R.glbId, regValue s R.glbFwVer, wd s.svc.running, wd (b2n s.rate96),
      wd ((allMembers s).length + 1), wd s.unitOutputs, wd s.objects, wd (unitPairs s)])
  else (s, resErr stBadParam)

/-- OP_SYS_RATE: stored for the next reset (R264). -/
def sysRate (p : List Byte) (s : State) : State × Res :=
  let w := wAt (wordsOf p) 0
  if p.length ≠ 4 ∨ fld w 31 1 ≠ 0 then (s, resErr stBadParam)
  else
    let s := { s with jnl := { s.jnl with store := { s.jnl.store with rate96 := bit w 0 } } }
    (s.setBit R.glbRate 4 (bit w 0), resErr stOk)

/-- An address OP_REG_READ may name (R518). -/
def fwReadable (a : Nat) : Bool :=
  a % 4 == 0 && decide (a < 0x130000) && !decide (0x118000 ≤ a ∧ a < 0x119000) && !decide (0x8000 ≤ a ∧ a < 0x9008) &&
  (claimTarget a).isNone && (claimVec a).isNone && capPart a != 1

/-- OP_REG_READ: in list order, by the firmware's own requester. -/
def regReadOp (p : List Byte) (s : State) : State × Res :=
  let l := (listOf 1 p).map fun w => (wAt w 0).toNat
  if listOk 1 p (fun w => fwReadable (wAt w 0).toNat) ≠ stOk ∨ 10 < l.length then (s, resErr stBadParam)
  else
    let r := l.foldl (fun (a : State × List Word) x =>
      let v := regRead fwReq x a.1
      (v.1, a.2 ++ [v.2])) (s, [])
    (r.1, resWords r.2)

/-! ### Scene -/

/-- A keyframe or an anchor as a 32-byte record (R36), Cartesian. -/
def keyBytes (k : Key) : List Byte :=
  bytesOfWords [wd k.time, wd (k.time / 2 ^ 32), wdI k.pos.x, wdI k.pos.y, wdI k.pos.z, wd (bitsOf 16 k.gain),
    wd (k.extW + k.extH * 65536), wd (b2n k.cut + b2n k.cubic * 2)]

/-- A gain of `n` fraction bits is above 10^(c2/10240). -/
def gainAboveQ (n g : Nat) (c2 : Int) : Bool :=
  if c2 ≥ 0 then decide (10 ^ c2.toNat * 2 ^ (n * 10240) < g ^ 10240)
  else decide (2 ^ (n * 10240) < g ^ 10240 * 10 ^ (-c2).toNat)

/-- Largest code whose lower half-code boundary the gain passes. -/
def dbSearchQ (n g : Nat) : Nat → Int → Int → Int
  | 0, lo, _ => lo
  | f + 1, lo, hi =>
    let mid := (lo + hi) / 2
    if hi - lo ≤ 1 then lo
    else if gainAboveQ n g (2 * mid - 1) then dbSearchQ n g f mid hi
    else dbSearchQ n g f lo mid

/-- A gain of `n` fraction bits as a dB code between -127.996 and +127.996, 0x8000 for zero (R265). -/
def evGainCode (n g : Nat) : Int := if g = 0 then -32768 else dbSearchQ n g 17 (-32767) 32768

/-- The object gain of R57 at a block: record gain, keyframe gain and the ramp of an object going OFF, with 60 fraction bits. -/
def objGain (s : State) (k o : Nat) : Nat :=
  let r := s.rt o
  let off : Nat := match tabGet s.geo.rules r.rule with
    | some x => (match x.off with
      | some f => (f.at k).toNat
      | none => 2 ^ 20)
    | none => 2 ^ 20
  (r.gain.at k).toNat * r.evGain * off

/-- What OP_OBJ_STATE writes (R265). -/
def objStateBytes (s : State) (o : Nat) : List Byte :=
  let r := s.rt o
  let units := match tabGet s.cm.wells o with
    | some w => w.units
    | none => 0
  let primed := units != 0 && !unprimed s o s.tick
  let queue := (r.queue.take 8).flatMap keyBytes
  let g := evGainCode 60 (objGain s (s.tick + 2) o)
  bytesOfWords [s.reg R.geoPubEpoch, s.reg R.geoPubTickLo, s.reg R.geoPubTickHi, wd units,
    wd (b2n primed + r.queue.length * 256), wdI r.evPos.x, wdI r.evPos.y, wdI r.evPos.z, wd (bitsOf 16 g),
    wd (r.evExtW + r.evExtH * 65536), 0, 0, 0, 0, 0, 0] ++
  (match r.anchor with
    | some k => keyBytes k
    | none => List.replicate 32 0) ++
  queue ++ List.replicate (256 - queue.length) 0

/-- OP_OBJ_STATE. -/
def objState (p : List Byte) (s : State) : State × Res :=
  let o := (wAt (wordsOf p) 0).toNat
  if p.length = 16 ∧ o < s.objects then (s, resTo (p.drop 4) (objStateBytes s o)) else (s, resErr stBadParam)

/-- Half words, with a zero after an odd number. -/
def halfBytes (l : List Nat) : List Byte := l.flatMap (leBytes 2) ++ (if l.length % 2 = 0 then [] else [0, 0])

/-- A layout as one part (R266). -/
def layoutPart (s : State) (i : Nat) : List Byte :=
  let l := (tabGet s.cm.layouts i).getD {}
  let out := s.cm.num.unit
  let tri (t : List Nat) : List Nat := t.map out ++ (if t.length = 2 then [0xFFFF] else [])
  bytesOfWords [wd (i + b2n l.is3d * 256 + 3 * 65536), wd (l.members.length + l.tris.length * 65536)] ++
  halfBytes (l.members.map out) ++ halfBytes (l.tris.flatMap tri)

/-- An array as one part (R266). -/
def arrayPart (s : State) (i : Nat) : List Byte :=
  let a := (tabGet s.cm.arrays i).getD {}
  let entry (e : ArrEntry) : List Byte :=
    leBytes 2 (s.cm.num.unit e.out) ++ leBytes 2 (bitsOf 16 e.nx) ++ leBytes 2 (bitsOf 16 e.ny) ++ leBytes 2 (bitsOf 16 e.nz)
  bytesOfWords [wd (i + b2n a.closed * 512 + 3 * 65536), wd (a.taper + bitsOf 16 a.gain * 65536), wd a.entries.length] ++
  a.entries.flatMap entry

/-- OP_LAYOUT_READ. -/
def layoutRead (p : List Byte) (s : State) : State × Res :=
  let w := wAt (wordsOf p) 0
  let i := fld w 5 0
  let isArr := bit w 8
  if p.length ≠ 16 ∨ fld w 7 6 ≠ 0 ∨ fld w 31 9 ≠ 0 ∨ (isArr = false ∧ 32 ≤ i) then (s, resErr stBadParam)
  else (s, resTo (p.drop 4) (if isArr then arrayPart s i else layoutPart s i))

/-- OP_ROUTE_READ: direct inputs, then enabled crosspoints, as the records that set them. -/
def routeRead (p : List Byte) (s : State) : State × Res :=
  let din (i : Nat) : List Byte :=
    let d := s.cm.din i
    bytesOfWords [wd i, wd (d.src + b2n d.mute * 2 ^ 31)]
  let xp (x : Xp) : List Byte := bytesOfWords [wd (x.din + x.out * 256 + 2 ^ 31), wd (bitsOf 16 x.gain)]
  if p.length = 12 then (s, resTo p ((List.range 256).flatMap din ++ (s.cm.xps.filter (·.en)).flatMap xp))
  else (s, resErr stBadParam)

/-- OP_COR_STATUS: the committed configuration, and the bank state of the newest corrected block (R151). -/
def corStatus (p : List Byte) (s : State) : State × Res :=
  let o := (wAt (wordsOf p) 0).toNat
  if p.length = 4 ∧ o < s.outputs then
    (s, resWords [corCfgAt s.cm o, corLenAt s.cm o, corPdAt s.cm o, corXfAt s.cm o, corStateRead s o, s.reg R.corBlkEpoch,
      s.reg R.corBlkTickLo, s.reg R.corBlkTickHi])
  else (s, resErr stBadParam)

end Sys2Proof.Machine
end

