-- ==== Sys2Proof/Machine/Commands.lean ====
section
/-! DEFINITION. The command set (R253 to R270): header checks, paths and relays (R29, R449), each opcode, packet fetch (R249 to R252),
completions, and bulk messages that carry relayed commands. -/

namespace Sys2Proof.Machine

/-- What executes a packet: header, network source, payload. -/
abbrev OpFn := Hdr → Option (Nat × Nat × Nat) → List Byte → State → State × Res

/-! ### Paths (R29) -/

/-- Levels of the gang this module leads, outermost first. -/
def ledLevels (s : State) : List GangLevel := (s.cm.num.levels.reverse.takeWhile fun g => g.m == 0).reverse

/-- A path of depth `d` from this module names a unit that is not there. A level below another member is known from that member's
own NYL_GANG_STATE, as far as it goes. -/
def pathGone (s : State) : List GangLevel → Nat → Nat → Bool
  | _, 0, _ => false
  | [], _ + 1, _ => true
  | g :: r, d + 1, path =>
    let m := path % 16
    if g.n ≤ m || s.cm.num.gone.contains m then true
    else if m = 0 then pathGone s r d (path / 16)
    else if d = 0 then false
    else
      let w := wAt (s.member m).words 2
      fld w 9 8 != 1 || decide (fld w 7 4 < path / 16 % 16)

/-- A path fault. -/
def pathFault (s : State) (h : Hdr) : Bool :=
  decide (8 < h.depth) || decide (16 ^ h.depth ≤ h.path) || pathGone s (ledLevels s) h.depth h.path

/-- The member a path leads to, with the rest of the path; none when it names this module. -/
def pathMember : Nat → Nat → Option (Nat × Nat × Nat)
  | 0, _ => none
  | d + 1, path => if path % 16 = 0 then pathMember d (path / 16) else some (path % 16, d, path / 16)

/-! ### Epoch commands (R97, R257, R449, R454) -/

/-- Scene commands keep path depth 0 (R449). -/
def sceneDepthBad (op : Nat) (h : Hdr) (p : List Byte) : Bool :=
  h.depth != 0 && (sceneOp op || (op == 0x0106 && (regPairs p).any fun e => sceneReg e.1))

/-- Epoch commands a follower takes on its own rings: those local to a unit of a pair, and a new pairing of a SILENT unit. -/
def followerMay (s : State) (op : Nat) (p : List Byte) : Bool :=
  gangRole s != 2 && (netLocal { op := op, payload := p } || (op == 0x0C03 && mirSt s == 4))

/-- Discovery is sent while the command that needs it is staged (R447, R453). -/
def discover (op : Nat) (p : List Byte) (s : State) : State :=
  let w := wordsOf p
  if op = 0x0C01 ∧ bit (wAt w 0) 0 = true then sendDiscovery w s
  else if op = 0x0C03 ∧ bit (wAt w 0) 0 = true ∧ bit (wAt w 0) 1 = true then sendPairDiscovery w s
  else s

/-- The transaction a packet just joined. -/
def joinedTxn (s : State) (h : Hdr) (r : Res) : Option Txn :=
  match r.accepts with
  | some n => s.cmd.txns.find? fun t => t.num == n
  | none => findTxn s h.txn

/-- Stage an epoch command; what is staged goes on to the modules that hold copies. -/
def stageOp (op : Nat) (chk : State → List Packet → List Byte → Nat) : OpFn := fun h net p s =>
  if isFollower s && !followerMay s op p then (s, resErr stBadState)
  else
    let r := stageCmd op h net p (fun s l p => if sceneDepthBad op h p then stBadParam else chk s l p) s
    if r.2.status = stOk ∨ r.2.status = stAccepted then
      match joinedTxn r.1 h r.2 with
      | some t =>
        let pk : Packet := { op := op, payload := p, depth := h.depth, path := h.path }
        let s := if isHere r.1 pk then discover op p r.1 else r.1
        (forwardPacket s t.num t.id pk, r.2)
      | none => r
    else r

/-- OP_RECOVER_RELEASE has no payload. -/
def chkNone (_ : State) (_ : List Packet) (p : List Byte) : Nat := if p.isEmpty then stOk else stBadParam

/-- A query or an immediate command whose effect depends on its payload alone. -/
def plainOp (f : List Byte → State → State × Res) : OpFn := fun _ _ p s => f p s

def nop (p : List Byte) (s : State) : State × Res := if p.isEmpty then (s, {}) else (s, resErr stBadParam)

/-! ### The opcodes (R263) -/

def runNop : OpFn := plainOp nop
def runSysInfo : OpFn := plainOp sysInfo
def runSysRate : OpFn := plainOp sysRate
def runRampSet : OpFn := stageOp 0x0104 chkRamp
def runRecoverRelease : OpFn := stageOp 0x0105 chkNone
def runRegWrite : OpFn := stageOp 0x0106 chkRegWrite
def runRegRead : OpFn := plainOp regReadOp
def runSysReset : OpFn := plainOp sysReset
def runTxnOpen : OpFn := fun h _ p s => txnOpen h p s
def runTxnCommit : OpFn := fun h net p s => txnCommitOp h net p s
def runTxnAbort : OpFn := fun h _ p s => txnAbort h p s
def runTxnStatus : OpFn := fun h _ p s => txnStatus h p s
def runObjSet : OpFn := stageOp 0x0301 chkObjSet
def runObjKeys : OpFn := stageOp 0x0302 chkObjKeys
def runObjKeysClear : OpFn := stageOp 0x0303 chkIds
def runWellSize : OpFn := stageOp 0x0304 chkWellSize
def runObjState : OpFn := plainOp objState
def runDistTable : OpFn := stageOp 0x0306 chkDist
def runSpkSet : OpFn := stageOp 0x0401 chkSpk
def runLayoutSet : OpFn := stageOp 0x0402 chkLayout
def runArraySet : OpFn := stageOp 0x0403 chkArray
def runLayoutRead : OpFn := plainOp layoutRead
def runDinSet : OpFn := stageOp 0x0501 chkDin
def runXpSet : OpFn := stageOp 0x0502 chkXp
def runOutSet : OpFn := stageOp 0x0503 chkOut
def runSpSet : OpFn := stageOp 0x0504 chkSp
def runRouteRead : OpFn := plainOp routeRead
def runCorCfg : OpFn := stageOp 0x0601 chkCorCfg
def runCorLoad : OpFn := stageOp 0x0602 chkCorLoad
def runCorSwap : OpFn := stageOp 0x0603 chkCorSwap
def runCorStatus : OpFn := plainOp corStatus
def runMeaMetrics : OpFn := plainOp meaMetrics
def runMeaRefCapture : OpFn := plainOp meaRefCapture
def runMeaExport : OpFn := plainOp meaExport
def runEcLoad : OpFn := stageOp 0x0801 chkEcLoad
def runEcAttach : OpFn := stageOp 0x0802 chkEcAttach
def runEcParam : OpFn := stageOp 0x0803 chkEcParam
def runEcStart : OpFn := stageOp 0x0804 chkEcMask
def runEcStop : OpFn := stageOp 0x0805 chkEcMask
def runEcRead : OpFn := plainOp ecRead
def runStrRxSet : OpFn := stageOp 0x0901 chkRx
def runStrTxSet : OpFn := stageOp 0x0902 chkTx
def runStrDelete : OpFn := stageOp 0x0903 chkStrDelete
def runStrMask : OpFn := stageOp 0x0904 chkStrMask
def runNetPortSet : OpFn := stageOp 0x0905 chkNetPort
def runStrStatus : OpFn := plainOp strStatusOp
def runTimPtpSet : OpFn := stageOp 0x0A01 chkPtp
def runTimPathAccept : OpFn := stageOp 0x0A02 chkPathAccept
def runTimTrigSet : OpFn := stageOp 0x0A03 chkTrig
def runTimRefSet : OpFn := stageOp 0x0A04 chkRef
def runTimStatus : OpFn := plainOp timStatus
def runSapSet : OpFn := stageOp 0x0B01 chkSap
def runAdmSet : OpFn := stageOp 0x0B02 chkAdm
def runSapStatus : OpFn := plainOp sapStatusOp
def runGangForm : OpFn := stageOp 0x0C01 chkGangForm
def runGangLeave : OpFn := stageOp 0x0C02 chkGangLeave
def runMirForm : OpFn := stageOp 0x0C03 chkMirForm
def runMirRole : OpFn := stageOp 0x0C04 chkMirRole
def runGangStatus : OpFn := plainOp gangStatusOp
def runSnpTrigger : OpFn := plainOp snpTriggerOp
def runSnpRead : OpFn := plainOp snpReadOp
def runJnlRead : OpFn := plainOp jnlRead
def runPwrSet : OpFn := plainOp pwrSet
def runPwrStatus : OpFn := plainOp pwrStatusOp
def runSvcChallenge : OpFn := plainOp svcChallenge
def runSvcResponse : OpFn := plainOp svcResponse
def runSvcOwner : OpFn := plainOp svcOwner
def runFwWrite : OpFn := plainOp fwWrite
def runFwActivate : OpFn := plainOp fwActivate

/-- The opcode table. -/
def opFn (op : Nat) : Option OpFn :=
  match op with
  | 0x0101 => some runNop
  | 0x0102 => some runSysInfo
  | 0x0103 => some runSysRate
  | 0x0104 => some runRampSet
  | 0x0105 => some runRecoverRelease
  | 0x0106 => some runRegWrite
  | 0x0107 => some runRegRead
  | 0x0108 => some runSysReset
  | 0x0201 => some runTxnOpen
  | 0x0202 => some runTxnCommit
  | 0x0203 => some runTxnAbort
  | 0x0204 => some runTxnStatus
  | 0x0301 => some runObjSet
  | 0x0302 => some runObjKeys
  | 0x0303 => some runObjKeysClear
  | 0x0304 => some runWellSize
  | 0x0305 => some runObjState
  | 0x0306 => some runDistTable
  | 0x0401 => some runSpkSet
  | 0x0402 => some runLayoutSet
  | 0x0403 => some runArraySet
  | 0x0404 => some runLayoutRead
  | 0x0501 => some runDinSet
  | 0x0502 => some runXpSet
  | 0x0503 => some runOutSet
  | 0x0504 => some runSpSet
  | 0x0505 => some runRouteRead
  | 0x0601 => some runCorCfg
  | 0x0602 => some runCorLoad
  | 0x0603 => some runCorSwap
  | 0x0604 => some runCorStatus
  | 0x0701 => some runMeaMetrics
  | 0x0702 => some runMeaRefCapture
  | 0x0703 => some runMeaExport
  | 0x0801 => some runEcLoad
  | 0x0802 => some runEcAttach
  | 0x0803 => some runEcParam
  | 0x0804 => some runEcStart
  | 0x0805 => some runEcStop
  | 0x0806 => some runEcRead
  | 0x0901 => some runStrRxSet
  | 0x0902 => some runStrTxSet
  | 0x0903 => some runStrDelete
  | 0x0904 => some runStrMask
  | 0x0905 => some runNetPortSet
  | 0x0906 => some runStrStatus
  | 0x0A01 => some runTimPtpSet
  | 0x0A02 => some runTimPathAccept
  | 0x0A03 => some runTimTrigSet
  | 0x0A04 => some runTimRefSet
  | 0x0A05 => some runTimStatus
  | 0x0B01 => some runSapSet
  | 0x0B02 => some runAdmSet
  | 0x0B03 => some runSapStatus
  | 0x0C01 => some runGangForm
  | 0x0C02 => some runGangLeave
  | 0x0C03 => some runMirForm
  | 0x0C04 => some runMirRole
  | 0x0C05 => some runGangStatus
  | 0x0D01 => some runSnpTrigger
  | 0x0D02 => some runSnpRead
  | 0x0D03 => some runJnlRead
  | 0x0E01 => some runPwrSet
  | 0x0E02 => some runPwrStatus
  | 0x0E10 => some runSvcChallenge
  | 0x0E11 => some runSvcResponse
  | 0x0E12 => some runSvcOwner
  | 0x0E13 => some runFwWrite
  | 0x0E14 => some runFwActivate
  | _ => none

/-- Epoch commands by opcode (R257). -/
def isEpochOp (op : Nat) : Bool :=
  [0x0104, 0x0105, 0x0106].contains op ||
  (decide (3 ≤ op / 256 ∧ op / 256 ≤ 12) &&
    !([0x0305, 0x0404, 0x0505, 0x0604, 0x0701, 0x0702, 0x0703, 0x0806, 0x0906, 0x0A05, 0x0B03, 0x0C05].contains op))

/-- Commands the network path denies (R275, R503). -/
def netDenied (op : Nat) : Bool :=
  [0x0103, 0x0305, 0x0404, 0x0505, 0x0701, 0x0703, 0x0C05, 0x0D02, 0x0D03, 0x0E10, 0x0E11, 0x0E12, 0x0E13, 0x0E14].contains op

/-! ### Execution -/

/-- Send a query or an immediate command to the member its path leads to; the member's answer completes it (R449). -/
def relayRun (num up op tag txn : Nat) (m d path : Nat) (p : List Byte) (s : State) : State :=
  sendMember s m mkBulk [bulkRun, num, up, op, tag, txn, d, path] p

/-- A packet whose header has passed checks 1 to 3 of R254. Transactions belong to the unit, so group 0x02 acts here whatever the
path. -/
def execPacket (op : Nat) (f : Option OpFn) (h : Hdr) (net : Option (Nat × Nat × Nat)) (p : List Byte) (s : State) :
    State × Res :=
  if pathFault s h then (s, resErr stBadParam)
  else
    match f with
    | none => (s, resErr stBadOpcode)
    | some f =>
      if net.isSome && netDenied op then (s, resErr stDenied)
      else if isEpochOp op || op / 256 == 2 then f h net p s
      else
        match pathMember h.depth h.path with
        | none => f h net p s
        | some (m, d, path) => (relayRun (s.cmd.fetchNum - 1) 1 op h.tag h.txn m d path p s, { later := true })

/-- A header as a command gives it, cut to its field widths. -/
def normHdr (h : Hdr) : Hdr := { h with sq := h.sq % 32, tag := h.tag % 65536, txn := h.txn % 2 ^ 32 }

/-- Source a packet of the network path is answered to: the session's peer on the first port of the path. -/
def netPeer (s : State) : Nat × Nat × Nat :=
  (((List.range 4).find? fun i => s.bit R.cmdNetCtrl (24 + i)).getD 0, s.regNat R.cmdNetPeer, s.cmd.netPort)

/-- Take a packet from its ring: a FENCE or want of credit holds it there (R246, R249). -/
def takePacket (op : Nat) (h : Hdr) (net : Option (Nat × Nat × Nat)) (p : List Byte) (onRing : Bool)
    (took : State → State) (f : State → State × Res) (s : State) : State :=
  let cq := boundCq s h.sq
  let need := reserves (isEpochOp op) op h.txn p
  let q := sqSt s h.sq
  if h.fence && s.cmd.fetched.any (fun g => g.reply.sq == h.sq && !g.dead) then s.setSq h.sq { q with fenced := true }
  else if (onRing || ringEn s true cq) && (!ringEn s true cq || decide (cqFree s cq < need)) then
    s.setSq h.sq { q with blocked := true }
  else
    let s := took s
    let s := if ringEn s true cq then s.setCq cq { cqSt s cq with resv := (cqSt s cq).resv + need } else s
    runPacket op h net (if ringEn s true cq then need else 0) f s

/-- An opcode's own command: the packet as the ring engine has fetched it. -/
def doOp (op : Nat) (f : OpFn) (h : Hdr) (p : List Byte) (s : State) : State :=
  let h := normHdr h
  let net := if h.net then some (netPeer s) else none
  if s.dieRuns then
    takePacket op h net p false (fun s => s)
      (fun s => if 4080 < p.length then (s, resErr stBadParam) else execPacket op (some f) h net p s) s
  else s

/-- A ring stops on a failed slot read (R279). -/
def fetchFails (sq : Nat) (s : State) : State :=
  ((s.setBit (sqReg sq 8) 0 false).setSq sq { sqSt s sq with fetchErr := true }).evt R.cmdEvtStatus 2

/-- The engine takes `slots` slots of a ring. -/
def advance (sq slots : Nat) (s : State) : State :=
  let n := ringSize s false sq
  let hd := ringHead s false sq
  let turn := if (sqSt s sq).promoted && !(sqSt s sq).fetchedSince then s.cmd.turn else nextTurn s sq
  let q := sqSt s sq
  let src := tabDel s.cmd.netSrc hd
  let onPath := sq == s.field R.cmdNetCtrl 11 7
  let s := s.setSq sq { q with
    fetchedSince := true
    skip := if q.promoted then 0 else q.skip
    blocked := false
    fenced := false }
  let s := { s with cmd := { s.cmd with
    slots := s.cmd.slots + slots
    turn := turn
    netSrc := if onPath then src else s.cmd.netSrc } }
  (s.setNat (sqReg sq 0xC) ((hd + slots) % n)).inc R.cmdCntPkts

/-- PACKET_FETCH of ring `sq`: the engine serves the ring whose turn it is. A ring in host memory reads the operand's bytes; none is a
failed read. A window ring reads the window. -/
def doPacketFetch (sq : Nat) (bytes : List Byte) (s : State) : State :=
  if !s.dieRuns || nextRing s != some sq then s
  else
    let data := if ringLoc s false sq then windowPacket s sq else bytes
    if data.isEmpty then fetchFails sq s
    else
      let w := wordsOf (data.take 16)
      let a := wAt w 0
      let len := fld (wAt w 1) 31 16
      let slots := packetSlots len
      let q := sqSt s sq
      if ringUsed s false sq < slots then s.setSq sq { q with partPkt := true }
      else if s.cmd.slots ≠ 0 ∧ s.field R.cmdFetchBudget 12 0 < s.cmd.slots + slots then s.setSq sq { q with noFit := true }
      else
        let body := (data.drop 16).take len
        let p := body ++ List.replicate (min len 4080 - body.length) 0
        let op := fld a 31 16
        let src := if sq = s.field R.cmdNetCtrl 11 7 then tabGet s.cmd.netSrc (ringHead s false sq) else none
        let h : Hdr :=
          { sq := sq
            tag := fld (wAt w 1) 15 0
            txn := (wAt w 2).toNat
            depth := fld a 15 12
            path := (wAt w 3).toNat
            fence := bit a 8
            net := src.isSome }
        let run (s : State) : State × Res :=
          if fld a 7 0 ≠ 1 then (s, resErr stBadOpcode)
          else if 4080 < len ∨ fld a 11 9 ≠ 0 then (s, resErr stBadParam)
          else execPacket op (opFn op) h src p s
        let s := takePacket op h src p true (advance sq slots) run s
        if (nextRing s).isNone then { s with cmd := { s.cmd with turn := (0, 0, 0) } } else s

def execPacketFetch (sq : Nat) (bytes : List Byte) (s : State) : Host.Outcome State Fault Refusal :=
  .next (settle (doPacketFetch sq bytes s))

/-! ### Completions (R250, R258, R260) -/

/-- Answer a relayed command. -/
def answerRelay (s : State) (f : Fetched) (c : Cpl) : State :=
  let data := match f.rbuf with
    | some (_, d) => d
    | none => c.result
  sendUp s mkBulk [bulkReply, f.reply.tag, f.reply.cq - 32, c.status, c.rlen, b2n f.rbuf.isSome, (f.rbuf.map (·.1)).getD 0] data

/-- COMPLETION_POSTED (R260): the next first completion is posted, its reply buffer first; that of a packet that timed out is
counted and dropped. -/
def doCompletionPosted (s : State) : State :=
  match nextPost s.cmd.fetched with
  | none => s
  | some f =>
    let s := unfence (dropFetched s f.num) f.reply.sq
    if f.dead then s.inc R.cmdCntLateCpl
    else
      match f.cpl with
      | none => s
      | some c =>
        if 32 ≤ f.reply.cq then answerRelay s f c
        else
          let s := match f.rbuf with
            | some (a, d) => s.emit (.host a d)
            | none => s
          let s := postEntry s f.reply c (if c.final then f.resv else 1)
          match f.accepts with
          | some n => orderAccepted s n
          | none => s

def execCompletionPosted (s : State) : Host.Outcome State Fault Refusal := .next (settle (doCompletionPosted s))

/-! ### Relayed commands (R449) -/

/-- A relayed command at the module it reaches, or on its way further down; `up` counts the levels its answer climbs. -/
def takeRun (m : LinkMsg) (s : State) : State :=
  let x (i : Nat) : Nat := m.args.getD i 0
  let num := x 2
  let up := x 3
  let op := x 4
  let h : Hdr := { sq := 32, tag := x 5, txn := x 6, depth := x 7, path := x 8 }
  match pathMember h.depth h.path, pathFault s h with
  | some (k, d, path), false => relayRun num (up + 1) op h.tag h.txn k d path m.bytes s
  | _, bad =>
    let n := s.cmd.fetchNum
    let s := { s with cmd := { s.cmd with fetchNum := n + 1 } }
    let r : State × Res :=
      if bad then (s, resErr stBadParam)
      else
        match opFn op with
        | some f => f h none m.bytes s
        | none => (s, resErr stBadOpcode)
    let fe : Fetched :=
      { num := n
        reply := { cq := 32 + up, sq := 32, tag := num, op := op, txn := h.txn }
        resv := 0
        due := 0
        cpl := if r.2.later then none else some (resCpl r.2)
        rbuf := r.2.rbuf }
    { r.1 with cmd := { r.1.cmd with fetched := r.1.cmd.fetched ++ [fe] } }

/-- The answer to a relayed command: it completes the packet here, or climbs on. -/
def takeReply (m : LinkMsg) (s : State) : State :=
  let x (i : Nat) : Nat := m.args.getD i 0
  if x 3 ≤ 1 then
    let c : Cpl := { status := x 4, result := if x 6 = 1 then [] else m.bytes, rlen := x 5 }
    let rb := if x 6 = 1 then some (x 7, m.bytes) else none
    let l := s.cmd.fetched.map fun f => if f.num == x 2 && f.cpl.isNone then { f with cpl := some c, rbuf := rb } else f
    { s with cmd := { s.cmd with fetched := l } }
  else sendUp s mkBulk ([bulkReply, x 2, x 3 - 1] ++ m.args.drop 4) m.bytes

/-- BULK_MESSAGE (R440): coefficients, descriptors, status, relayed commands and their answers. -/
def doBulkMessage (m : LinkMsg) (s : State) : State :=
  let a := fromLead mkBulk m s
  if !a.2 then a.1
  else if m.args.getD 1 0 = bulkRun then takeRun m a.1
  else if m.args.getD 1 0 = bulkReply then takeReply m a.1
  else takeBulk m a.1

def execBulkMessage (m : LinkMsg) (s : State) : Host.Outcome State Fault Refusal := .next (settle (doBulkMessage m s))

/-! ### The rows of the command set -/

/-- OP_NOP (R263). -/
def doOpNop (h : Hdr) (p : List Byte) (s : State) : State := doOp 0x0101 runNop h p s

def execOpNop (h : Hdr) (p : List Byte) (s : State) : Host.Outcome State Fault Refusal := .next (settle (doOpNop h p s))

/-- OP_SYS_INFO (R263). -/
def doOpSysInfo (h : Hdr) (p : List Byte) (s : State) : State := doOp 0x0102 runSysInfo h p s

def execOpSysInfo (h : Hdr) (p : List Byte) (s : State) : Host.Outcome State Fault Refusal := .next (settle (doOpSysInfo h p s))

/-- OP_SYS_RATE (R264). -/
def doOpSysRate (h : Hdr) (p : List Byte) (s : State) : State := doOp 0x0103 runSysRate h p s

def execOpSysRate (h : Hdr) (p : List Byte) (s : State) : Host.Outcome State Fault Refusal := .next (settle (doOpSysRate h p s))

/-- OP_RAMP_SET (R261). -/
def doOpRampSet (h : Hdr) (p : List Byte) (s : State) : State := doOp 0x0104 runRampSet h p s

def execOpRampSet (h : Hdr) (p : List Byte) (s : State) : Host.Outcome State Fault Refusal := .next (settle (doOpRampSet h p s))

/-- OP_RECOVER_RELEASE (R122). -/
def doOpRecoverRelease (h : Hdr) (p : List Byte) (s : State) : State := doOp 0x0105 runRecoverRelease h p s

def execOpRecoverRelease (h : Hdr) (p : List Byte) (s : State) : Host.Outcome State Fault Refusal := .next (settle (doOpRecoverRelease h p s))

/-- OP_REG_WRITE (R264). -/
def doOpRegWrite (h : Hdr) (p : List Byte) (s : State) : State := doOp 0x0106 runRegWrite h p s

def execOpRegWrite (h : Hdr) (p : List Byte) (s : State) : Host.Outcome State Fault Refusal := .next (settle (doOpRegWrite h p s))

/-- OP_REG_READ (R518). -/
def doOpRegRead (h : Hdr) (p : List Byte) (s : State) : State := doOp 0x0107 runRegRead h p s

def execOpRegRead (h : Hdr) (p : List Byte) (s : State) : Host.Outcome State Fault Refusal := .next (settle (doOpRegRead h p s))

/-- OP_SYS_RESET (R486). -/
def doOpSysReset (h : Hdr) (p : List Byte) (s : State) : State := doOp 0x0108 runSysReset h p s

def execOpSysReset (h : Hdr) (p : List Byte) (s : State) : Host.Outcome State Fault Refusal := .next (settle (doOpSysReset h p s))

/-- OP_TXN_OPEN (R98). -/
def doOpTxnOpen (h : Hdr) (p : List Byte) (s : State) : State := doOp 0x0201 runTxnOpen h p s

def execOpTxnOpen (h : Hdr) (p : List Byte) (s : State) : Host.Outcome State Fault Refusal := .next (settle (doOpTxnOpen h p s))

/-- OP_TXN_COMMIT (R103). -/
def doOpTxnCommit (h : Hdr) (p : List Byte) (s : State) : State := doOp 0x0202 runTxnCommit h p s

def execOpTxnCommit (h : Hdr) (p : List Byte) (s : State) : Host.Outcome State Fault Refusal := .next (settle (doOpTxnCommit h p s))

/-- OP_TXN_COMMIT_AT (R105). -/
def doOpTxnCommitAt (h : Hdr) (p : List Byte) (s : State) : State := doOp 0x0202 runTxnCommit h p s

def execOpTxnCommitAt (h : Hdr) (p : List Byte) (s : State) : Host.Outcome State Fault Refusal := .next (settle (doOpTxnCommitAt h p s))

/-- OP_TXN_COMMIT_CHECK (R259). -/
def doOpTxnCommitCheck (h : Hdr) (p : List Byte) (s : State) : State := doOp 0x0202 runTxnCommit h p s

def execOpTxnCommitCheck (h : Hdr) (p : List Byte) (s : State) : Host.Outcome State Fault Refusal := .next (settle (doOpTxnCommitCheck h p s))

/-- OP_TXN_ABORT (R101). -/
def doOpTxnAbort (h : Hdr) (p : List Byte) (s : State) : State := doOp 0x0203 runTxnAbort h p s

def execOpTxnAbort (h : Hdr) (p : List Byte) (s : State) : Host.Outcome State Fault Refusal := .next (settle (doOpTxnAbort h p s))

/-- OP_TXN_STATUS (R116). -/
def doOpTxnStatus (h : Hdr) (p : List Byte) (s : State) : State := doOp 0x0204 runTxnStatus h p s

def execOpTxnStatus (h : Hdr) (p : List Byte) (s : State) : Host.Outcome State Fault Refusal := .next (settle (doOpTxnStatus h p s))

/-- OP_OBJ_SET (R35). -/
def doOpObjSet (h : Hdr) (p : List Byte) (s : State) : State := doOp 0x0301 runObjSet h p s

def execOpObjSet (h : Hdr) (p : List Byte) (s : State) : Host.Outcome State Fault Refusal := .next (settle (doOpObjSet h p s))

/-- OP_OBJ_KEYS (R36). -/
def doOpObjKeys (h : Hdr) (p : List Byte) (s : State) : State := doOp 0x0302 runObjKeys h p s

def execOpObjKeys (h : Hdr) (p : List Byte) (s : State) : Host.Outcome State Fault Refusal := .next (settle (doOpObjKeys h p s))

/-- OP_OBJ_KEYS_CLEAR (R40). -/
def doOpObjKeysClear (h : Hdr) (p : List Byte) (s : State) : State := doOp 0x0303 runObjKeysClear h p s

def execOpObjKeysClear (h : Hdr) (p : List Byte) (s : State) : Host.Outcome State Fault Refusal := .next (settle (doOpObjKeysClear h p s))

/-- OP_WELL_SIZE (R67). -/
def doOpWellSize (h : Hdr) (p : List Byte) (s : State) : State := doOp 0x0304 runWellSize h p s

def execOpWellSize (h : Hdr) (p : List Byte) (s : State) : Host.Outcome State Fault Refusal := .next (settle (doOpWellSize h p s))

/-- OP_OBJ_STATE (R265). -/
def doOpObjState (h : Hdr) (p : List Byte) (s : State) : State := doOp 0x0305 runObjState h p s

def execOpObjState (h : Hdr) (p : List Byte) (s : State) : Host.Outcome State Fault Refusal := .next (settle (doOpObjState h p s))

/-- OP_DIST_TABLE (R45). -/
def doOpDistTable (h : Hdr) (p : List Byte) (s : State) : State := doOp 0x0306 runDistTable h p s

def execOpDistTable (h : Hdr) (p : List Byte) (s : State) : Host.Outcome State Fault Refusal := .next (settle (doOpDistTable h p s))

/-- OP_SPK_SET (R42). -/
def doOpSpkSet (h : Hdr) (p : List Byte) (s : State) : State := doOp 0x0401 runSpkSet h p s

def execOpSpkSet (h : Hdr) (p : List Byte) (s : State) : Host.Outcome State Fault Refusal := .next (settle (doOpSpkSet h p s))

/-- OP_LAYOUT_SET (R266). -/
def doOpLayoutSet (h : Hdr) (p : List Byte) (s : State) : State := doOp 0x0402 runLayoutSet h p s

def execOpLayoutSet (h : Hdr) (p : List Byte) (s : State) : Host.Outcome State Fault Refusal := .next (settle (doOpLayoutSet h p s))

/-- OP_ARRAY_SET (R266). -/
def doOpArraySet (h : Hdr) (p : List Byte) (s : State) : State := doOp 0x0403 runArraySet h p s

def execOpArraySet (h : Hdr) (p : List Byte) (s : State) : Host.Outcome State Fault Refusal := .next (settle (doOpArraySet h p s))

/-- OP_LAYOUT_READ (R263). -/
def doOpLayoutRead (h : Hdr) (p : List Byte) (s : State) : State := doOp 0x0404 runLayoutRead h p s

def execOpLayoutRead (h : Hdr) (p : List Byte) (s : State) : Host.Outcome State Fault Refusal := .next (settle (doOpLayoutRead h p s))

/-- OP_DIN_SET (R81). -/
def doOpDinSet (h : Hdr) (p : List Byte) (s : State) : State := doOp 0x0501 runDinSet h p s

def execOpDinSet (h : Hdr) (p : List Byte) (s : State) : Host.Outcome State Fault Refusal := .next (settle (doOpDinSet h p s))

/-- OP_XP_SET (R82). -/
def doOpXpSet (h : Hdr) (p : List Byte) (s : State) : State := doOp 0x0502 runXpSet h p s

def execOpXpSet (h : Hdr) (p : List Byte) (s : State) : Host.Outcome State Fault Refusal := .next (settle (doOpXpSet h p s))

/-- OP_OUT_SET (R84). -/
def doOpOutSet (h : Hdr) (p : List Byte) (s : State) : State := doOp 0x0503 runOutSet h p s

def execOpOutSet (h : Hdr) (p : List Byte) (s : State) : Host.Outcome State Fault Refusal := .next (settle (doOpOutSet h p s))

/-- OP_SP_SET (R85). -/
def doOpSpSet (h : Hdr) (p : List Byte) (s : State) : State := doOp 0x0504 runSpSet h p s

def execOpSpSet (h : Hdr) (p : List Byte) (s : State) : Host.Outcome State Fault Refusal := .next (settle (doOpSpSet h p s))

/-- OP_ROUTE_READ (R263). -/
def doOpRouteRead (h : Hdr) (p : List Byte) (s : State) : State := doOp 0x0505 runRouteRead h p s

def execOpRouteRead (h : Hdr) (p : List Byte) (s : State) : Host.Outcome State Fault Refusal := .next (settle (doOpRouteRead h p s))

/-- OP_COR_CFG (R152). -/
def doOpCorCfg (h : Hdr) (p : List Byte) (s : State) : State := doOp 0x0601 runCorCfg h p s

def execOpCorCfg (h : Hdr) (p : List Byte) (s : State) : Host.Outcome State Fault Refusal := .next (settle (doOpCorCfg h p s))

/-- OP_COR_LOAD (R144). -/
def doOpCorLoad (h : Hdr) (p : List Byte) (s : State) : State := doOp 0x0602 runCorLoad h p s

def execOpCorLoad (h : Hdr) (p : List Byte) (s : State) : Host.Outcome State Fault Refusal := .next (settle (doOpCorLoad h p s))

/-- OP_COR_SWAP (R149). -/
def doOpCorSwap (h : Hdr) (p : List Byte) (s : State) : State := doOp 0x0603 runCorSwap h p s

def execOpCorSwap (h : Hdr) (p : List Byte) (s : State) : Host.Outcome State Fault Refusal := .next (settle (doOpCorSwap h p s))

/-- OP_COR_STATUS (R151). -/
def doOpCorStatus (h : Hdr) (p : List Byte) (s : State) : State := doOp 0x0604 runCorStatus h p s

def execOpCorStatus (h : Hdr) (p : List Byte) (s : State) : Host.Outcome State Fault Refusal := .next (settle (doOpCorStatus h p s))

/-- OP_MEA_METRICS (R181). -/
def doOpMeaMetrics (h : Hdr) (p : List Byte) (s : State) : State := doOp 0x0701 runMeaMetrics h p s

def execOpMeaMetrics (h : Hdr) (p : List Byte) (s : State) : Host.Outcome State Fault Refusal := .next (settle (doOpMeaMetrics h p s))

/-- OP_MEA_REF_CAPTURE (R182). -/
def doOpMeaRefCapture (h : Hdr) (p : List Byte) (s : State) : State := doOp 0x0702 runMeaRefCapture h p s

def execOpMeaRefCapture (h : Hdr) (p : List Byte) (s : State) : Host.Outcome State Fault Refusal := .next (settle (doOpMeaRefCapture h p s))

/-- OP_MEA_EXPORT (R191). -/
def doOpMeaExport (h : Hdr) (p : List Byte) (s : State) : State := doOp 0x0703 runMeaExport h p s

def execOpMeaExport (h : Hdr) (p : List Byte) (s : State) : Host.Outcome State Fault Refusal := .next (settle (doOpMeaExport h p s))

/-- OP_EC_LOAD (R235). -/
def doOpEcLoad (h : Hdr) (p : List Byte) (s : State) : State := doOp 0x0801 runEcLoad h p s

def execOpEcLoad (h : Hdr) (p : List Byte) (s : State) : Host.Outcome State Fault Refusal := .next (settle (doOpEcLoad h p s))

/-- OP_EC_ATTACH (R229). -/
def doOpEcAttach (h : Hdr) (p : List Byte) (s : State) : State := doOp 0x0802 runEcAttach h p s

def execOpEcAttach (h : Hdr) (p : List Byte) (s : State) : Host.Outcome State Fault Refusal := .next (settle (doOpEcAttach h p s))

/-- OP_EC_DETACH (R235). -/
def doOpEcDetach (h : Hdr) (p : List Byte) (s : State) : State := doOp 0x0802 runEcAttach h p s

def execOpEcDetach (h : Hdr) (p : List Byte) (s : State) : Host.Outcome State Fault Refusal := .next (settle (doOpEcDetach h p s))

/-- OP_EC_PARAM (R230). -/
def doOpEcParam (h : Hdr) (p : List Byte) (s : State) : State := doOp 0x0803 runEcParam h p s

def execOpEcParam (h : Hdr) (p : List Byte) (s : State) : Host.Outcome State Fault Refusal := .next (settle (doOpEcParam h p s))

/-- OP_EC_START (R268). -/
def doOpEcStart (h : Hdr) (p : List Byte) (s : State) : State := doOp 0x0804 runEcStart h p s

def execOpEcStart (h : Hdr) (p : List Byte) (s : State) : Host.Outcome State Fault Refusal := .next (settle (doOpEcStart h p s))

/-- OP_EC_STOP (R268). -/
def doOpEcStop (h : Hdr) (p : List Byte) (s : State) : State := doOp 0x0805 runEcStop h p s

def execOpEcStop (h : Hdr) (p : List Byte) (s : State) : Host.Outcome State Fault Refusal := .next (settle (doOpEcStop h p s))

/-- OP_EC_READ (R203). -/
def doOpEcRead (h : Hdr) (p : List Byte) (s : State) : State := doOp 0x0806 runEcRead h p s

def execOpEcRead (h : Hdr) (p : List Byte) (s : State) : Host.Outcome State Fault Refusal := .next (settle (doOpEcRead h p s))

/-- OP_STR_RX_SET (R359). -/
def doOpStrRxSet (h : Hdr) (p : List Byte) (s : State) : State := doOp 0x0901 runStrRxSet h p s

def execOpStrRxSet (h : Hdr) (p : List Byte) (s : State) : Host.Outcome State Fault Refusal := .next (settle (doOpStrRxSet h p s))

/-- OP_STR_TX_SET (R366). -/
def doOpStrTxSet (h : Hdr) (p : List Byte) (s : State) : State := doOp 0x0902 runStrTxSet h p s

def execOpStrTxSet (h : Hdr) (p : List Byte) (s : State) : Host.Outcome State Fault Refusal := .next (settle (doOpStrTxSet h p s))

/-- OP_STR_DELETE (R359). -/
def doOpStrDelete (h : Hdr) (p : List Byte) (s : State) : State := doOp 0x0903 runStrDelete h p s

def execOpStrDelete (h : Hdr) (p : List Byte) (s : State) : Host.Outcome State Fault Refusal := .next (settle (doOpStrDelete h p s))

/-- OP_STR_MASK (R365). -/
def doOpStrMask (h : Hdr) (p : List Byte) (s : State) : State := doOp 0x0904 runStrMask h p s

def execOpStrMask (h : Hdr) (p : List Byte) (s : State) : Host.Outcome State Fault Refusal := .next (settle (doOpStrMask h p s))

/-- OP_NET_PORT_SET (R337). -/
def doOpNetPortSet (h : Hdr) (p : List Byte) (s : State) : State := doOp 0x0905 runNetPortSet h p s

def execOpNetPortSet (h : Hdr) (p : List Byte) (s : State) : Host.Outcome State Fault Refusal := .next (settle (doOpNetPortSet h p s))

/-- OP_STR_STATUS (R375). -/
def doOpStrStatus (h : Hdr) (p : List Byte) (s : State) : State := doOp 0x0906 runStrStatus h p s

def execOpStrStatus (h : Hdr) (p : List Byte) (s : State) : Host.Outcome State Fault Refusal := .next (settle (doOpStrStatus h p s))

/-- OP_TIM_PTP_SET (R407). -/
def doOpTimPtpSet (h : Hdr) (p : List Byte) (s : State) : State := doOp 0x0A01 runTimPtpSet h p s

def execOpTimPtpSet (h : Hdr) (p : List Byte) (s : State) : Host.Outcome State Fault Refusal := .next (settle (doOpTimPtpSet h p s))

/-- OP_TIM_PATH_ACCEPT (R394). -/
def doOpTimPathAccept (h : Hdr) (p : List Byte) (s : State) : State := doOp 0x0A02 runTimPathAccept h p s

def execOpTimPathAccept (h : Hdr) (p : List Byte) (s : State) : Host.Outcome State Fault Refusal := .next (settle (doOpTimPathAccept h p s))

/-- OP_TIM_TRIG_SET (R403). -/
def doOpTimTrigSet (h : Hdr) (p : List Byte) (s : State) : State := doOp 0x0A03 runTimTrigSet h p s

def execOpTimTrigSet (h : Hdr) (p : List Byte) (s : State) : Host.Outcome State Fault Refusal := .next (settle (doOpTimTrigSet h p s))

/-- OP_TIM_REF_SET (R408). -/
def doOpTimRefSet (h : Hdr) (p : List Byte) (s : State) : State := doOp 0x0A04 runTimRefSet h p s

def execOpTimRefSet (h : Hdr) (p : List Byte) (s : State) : Host.Outcome State Fault Refusal := .next (settle (doOpTimRefSet h p s))

/-- OP_TIM_STATUS (R414). -/
def doOpTimStatus (h : Hdr) (p : List Byte) (s : State) : State := doOp 0x0A05 runTimStatus h p s

def execOpTimStatus (h : Hdr) (p : List Byte) (s : State) : Host.Outcome State Fault Refusal := .next (settle (doOpTimStatus h p s))

/-- OP_SAP_SET (R424). -/
def doOpSapSet (h : Hdr) (p : List Byte) (s : State) : State := doOp 0x0B01 runSapSet h p s

def execOpSapSet (h : Hdr) (p : List Byte) (s : State) : Host.Outcome State Fault Refusal := .next (settle (doOpSapSet h p s))

/-- OP_ADM_SET (R437). -/
def doOpAdmSet (h : Hdr) (p : List Byte) (s : State) : State := doOp 0x0B02 runAdmSet h p s

def execOpAdmSet (h : Hdr) (p : List Byte) (s : State) : Host.Outcome State Fault Refusal := .next (settle (doOpAdmSet h p s))

/-- OP_SAP_STATUS (R433). -/
def doOpSapStatus (h : Hdr) (p : List Byte) (s : State) : State := doOp 0x0B03 runSapStatus h p s

def execOpSapStatus (h : Hdr) (p : List Byte) (s : State) : Host.Outcome State Fault Refusal := .next (settle (doOpSapStatus h p s))

/-- OP_GANG_FORM (R447). -/
def doOpGangForm (h : Hdr) (p : List Byte) (s : State) : State := doOp 0x0C01 runGangForm h p s

def execOpGangForm (h : Hdr) (p : List Byte) (s : State) : Host.Outcome State Fault Refusal := .next (settle (doOpGangForm h p s))

/-- OP_GANG_LEAVE (R451). -/
def doOpGangLeave (h : Hdr) (p : List Byte) (s : State) : State := doOp 0x0C02 runGangLeave h p s

def execOpGangLeave (h : Hdr) (p : List Byte) (s : State) : Host.Outcome State Fault Refusal := .next (settle (doOpGangLeave h p s))

/-- OP_MIR_FORM (R453). -/
def doOpMirForm (h : Hdr) (p : List Byte) (s : State) : State := doOp 0x0C03 runMirForm h p s

def execOpMirForm (h : Hdr) (p : List Byte) (s : State) : Host.Outcome State Fault Refusal := .next (settle (doOpMirForm h p s))

/-- OP_MIR_ROLE (R464). -/
def doOpMirRole (h : Hdr) (p : List Byte) (s : State) : State := doOp 0x0C04 runMirRole h p s

def execOpMirRole (h : Hdr) (p : List Byte) (s : State) : Host.Outcome State Fault Refusal := .next (settle (doOpMirRole h p s))

/-- OP_GANG_STATUS (R477). -/
def doOpGangStatus (h : Hdr) (p : List Byte) (s : State) : State := doOp 0x0C05 runGangStatus h p s

def execOpGangStatus (h : Hdr) (p : List Byte) (s : State) : Host.Outcome State Fault Refusal := .next (settle (doOpGangStatus h p s))

/-- OP_SNP_TRIGGER (R125). -/
def doOpSnpTrigger (h : Hdr) (p : List Byte) (s : State) : State := doOp 0x0D01 runSnpTrigger h p s

def execOpSnpTrigger (h : Hdr) (p : List Byte) (s : State) : Host.Outcome State Fault Refusal := .next (settle (doOpSnpTrigger h p s))

/-- OP_SNP_READ (R263). -/
def doOpSnpRead (h : Hdr) (p : List Byte) (s : State) : State := doOp 0x0D02 runSnpRead h p s

def execOpSnpRead (h : Hdr) (p : List Byte) (s : State) : Host.Outcome State Fault Refusal := .next (settle (doOpSnpRead h p s))

/-- OP_JNL_READ (R120). -/
def doOpJnlRead (h : Hdr) (p : List Byte) (s : State) : State := doOp 0x0D03 runJnlRead h p s

def execOpJnlRead (h : Hdr) (p : List Byte) (s : State) : Host.Outcome State Fault Refusal := .next (settle (doOpJnlRead h p s))

/-- OP_PWR_SET (R483). -/
def doOpPwrSet (h : Hdr) (p : List Byte) (s : State) : State := doOp 0x0E01 runPwrSet h p s

def execOpPwrSet (h : Hdr) (p : List Byte) (s : State) : Host.Outcome State Fault Refusal := .next (settle (doOpPwrSet h p s))

/-- OP_PWR_STATUS (R498). -/
def doOpPwrStatus (h : Hdr) (p : List Byte) (s : State) : State := doOp 0x0E02 runPwrStatus h p s

def execOpPwrStatus (h : Hdr) (p : List Byte) (s : State) : Host.Outcome State Fault Refusal := .next (settle (doOpPwrStatus h p s))

/-- OP_SVC_CHALLENGE (R501). -/
def doOpSvcChallenge (h : Hdr) (p : List Byte) (s : State) : State := doOp 0x0E10 runSvcChallenge h p s

def execOpSvcChallenge (h : Hdr) (p : List Byte) (s : State) : Host.Outcome State Fault Refusal := .next (settle (doOpSvcChallenge h p s))

/-- OP_SVC_RESPONSE (R501). -/
def doOpSvcResponse (h : Hdr) (p : List Byte) (s : State) : State := doOp 0x0E11 runSvcResponse h p s

def execOpSvcResponse (h : Hdr) (p : List Byte) (s : State) : Host.Outcome State Fault Refusal := .next (settle (doOpSvcResponse h p s))

/-- OP_SVC_OWNER (R500). -/
def doOpSvcOwner (h : Hdr) (p : List Byte) (s : State) : State := doOp 0x0E12 runSvcOwner h p s

def execOpSvcOwner (h : Hdr) (p : List Byte) (s : State) : Host.Outcome State Fault Refusal := .next (settle (doOpSvcOwner h p s))

/-- OP_FW_WRITE (R507). -/
def doOpFwWrite (h : Hdr) (p : List Byte) (s : State) : State := doOp 0x0E13 runFwWrite h p s

def execOpFwWrite (h : Hdr) (p : List Byte) (s : State) : Host.Outcome State Fault Refusal := .next (settle (doOpFwWrite h p s))

/-- OP_FW_ACTIVATE (R507). -/
def doOpFwActivate (h : Hdr) (p : List Byte) (s : State) : State := doOp 0x0E14 runFwActivate h p s

def execOpFwActivate (h : Hdr) (p : List Byte) (s : State) : Host.Outcome State Fault Refusal := .next (settle (doOpFwActivate h p s))

end Sys2Proof.Machine
end

