-- ==== Sys2Proof/Machine/RegIo.lean ====
section
/-! DEFINITION. Register writes by access code (R13, R14, R516 to R522), the clears of the counters, and the SMBus target (R544). -/

namespace Sys2Proof.Machine

/-! ### Pending register writes (R102, R521) -/

/-- Most pending writes. -/
def rweMax : Nat := 4096

/-- A write to the NET block on a PARTNER forms a transaction of that unit alone (R521). -/
def netOwnTxn (a : Nat) (val : Word) (s : State) : State :=
  if 64 ≤ heldCount s then hostErr a 2 s
  else
    let pl := leBytes 4 a ++ bytesOfWord val
    let r := s.addTxn { num := 0, id := 0, packets := [{ op := 0x0106, payload := pl }], bytes := 24 }
    let s := r.1.putTxn { r.2 with phase := .accepted, acc := some r.1.cmd.accNum }
    { s with cmd := { s.cmd with accNum := s.cmd.accNum + 1 } }

/-- A write to an RWE register joins the list, is refused, or forms a transaction. -/
def rweJoin (a : Nat) (val : Word) (s : State) : State :=
  if isFollower s then
    if gangRole s != 2 && a / 0x10000 == 0xB then netOwnTxn a val s else hostErr a 3 s
  else if rweMax ≤ s.cmd.rwe.length then hostErr a 2 s
  else { s with cmd := { s.cmd with rwe := s.cmd.rwe ++ [(a, val, s.clk)] } }

/-- RWE_WRITE. -/
def doRweWrite (addr : Nat) (val : Word) (s : State) : State :=
  if s.dieRuns && isRwe addr then rweJoin addr val s else s

def execRweWrite (addr : Nat) (val : Word) (s : State) : Host.Outcome State Fault Refusal := .next (settle (doRweWrite addr val s))

/-- GLB_RWE_CLR: every pending write is discarded and counted. -/
def rweClear (val : Word) (s : State) : State :=
  if bit val 0 then
    let n := s.cmd.rwe.length
    { s with cmd := { s.cmd with rwe := [] } }.inc R.glbCntRweDiscard n
  else s

def doGlbRweClr (val : Word) (s : State) : State := if s.dieRuns then rweClear val s else s

def execGlbRweClr (val : Word) (s : State) : Host.Outcome State Fault Refusal := .next (settle (doGlbRweClr val s))

/-! ### Counter clears -/

/-- `n` registers from an address on. -/
def regRun (a n : Nat) : List Nat := (List.range n).map fun i => a + 4 * i

/-- Counters that a *_CNT_CLR register clears, by its address; none for other addresses. -/
def cntClears (a : Nat) : Option (List Nat) :=
  if a = R.geoCntClr then some (regRun R.geoCntKfLate 8)
  else if a = R.pmpCntClr then some (regRun R.pmpCntWclamp 4)
  else if a = R.cmdCntClr then some (regRun R.cmdCntBudget 4)
  else if a = R.cmdRingClr then some (regRun R.cmdCntTimeout 5 ++ regRun R.cmdNetCntDrop 3)
  else if a = R.corCntClr then some (regRun R.corCntSupersede 4)
  else if a = R.meaCntClr then some (regRun R.meaCntPilotOk 4)
  else if a / 0x10000 = 10 ∧ a % 0x1000 = 0x48 then
    some ((a / 0x1000 * 0x1000 + 0x20) :: regRun (a / 0x1000 * 0x1000 + 0x38) 4)
  else if a = R.cisCntClr then some (regRun R.cisCntCe 6)
  else if a = R.busCntClr then some (regRun R.busCntDecode 2)
  else if a = R.irqCntClr then some (regRun R.irqCntEmpty 4)
  else if a = R.netCntClr then some ((List.range 4).flatMap fun p => regRun (portReg p 0x44) 14)
  else if a = R.strCntClr then
    some (regRun R.strCntLate 4 ++ (List.range 256).flatMap fun i => regRun (rxReg i 4) 9 ++ regRun (txReg i 4) 3)
  else if a = R.timCntClr then some (regRun R.timCntAnnTo 7)
  else if a = R.sapCntClr then
    some (R.sapBurstCnt :: regRun R.sapAdmCntFrames 6 ++ (List.range 8).flatMap fun p => regRun (sapReg p 0x24) 4)
  else if a = R.nylCntClr then
    some (regRun R.nylCntDesync 2 ++ (List.range 6).flatMap fun l => regRun (linkReg l 0x10) 3)
  else if a = R.mirCntClr then some (regRun R.mirCntMismatch 5)
  else if a = R.pwrCntClr then some (regRun R.pwrTjPeak 5)
  else if a = R.svcCntClr then some [R.svcCntFail]
  else if a = R.glbCntClr then some [R.glbCntRweDiscard]
  else none

/-- Bit 0 clears. -/
def cntClear (l : List Nat) (val : Word) (s : State) : State := if bit val 0 then s.clear l else s

/-- COUNTER_CLEAR. -/
def doCounterClear (addr : Nat) (val : Word) (s : State) : State :=
  if s.dieRuns then
    match cntClears addr with
    | some l => cntClear l val s
    | none => s
  else s

def execCounterClear (addr : Nat) (val : Word) (s : State) : Host.Outcome State Fault Refusal :=
  .next (settle (doCounterClear addr val s))

/-! ### One write -/

/-- Registers of a ring (R277): whether of a CQ, ring, and offset in its window. -/
def ringPart (a : Nat) : Option (Bool × Nat × Nat) :=
  if R.cmdSqBaseLo ≤ a ∧ a < R.cmdSqBaseLo + 0x400 then some (false, (a - R.cmdSqBaseLo) / 32, a % 32)
  else if R.cmdCqBaseLo ≤ a ∧ a < R.cmdCqBaseLo + 0x400 then some (true, (a - R.cmdCqBaseLo) / 32, a % 32)
  else none

/-- A write to the CMD block with an effect of its own. -/
def pokeCmd (a : Nat) (val : Word) (s : State) : Option State :=
  match ringPart a with
  | some (isCq, n, o) =>
    if o = 8 then some (ringCfgWrite s isCq n val)
    else if o < 8 then some (ringBaseWrite s isCq n o val)
    else none
  | none =>
    if R.cmdDb ≤ a ∧ a < R.cmdDb + 0x100 then
      some (if a % 8 = 0 then doSqDoorbell ((a - R.cmdDb) / 8) val s else doCqDoorbell ((a - R.cmdDb) / 8) val s)
    else if a = R.cmdNetCtrl then some (doNetPathEnable val s)
    else if R.cmdNetKey ≤ a ∧ a < R.cmdNetKey + 32 then some (doNetKeyWrite ((a - R.cmdNetKey) / 4) val s)
    else none

/-- A write to the IRQ block with an effect of its own. -/
def pokeIrq (a : Nat) (val : Word) (s : State) : Option State :=
  if a = R.irqDoorbell then some (doIrqDoorbell val s)
  else if a = R.irqFaultClr then
    some (if bit val 8 then doIrqFaultClrDiscard (fld val 4 0) s else doIrqFaultClrResume (fld val 4 0) s)
  else if R.irqClaim ≤ a ∧ a < R.irqClaim + 0x2A0 ∧ a % 32 = 4 then some (doIrqComplete ((a - R.irqClaim) / 32) val s)
  else if R.irqSrcCfg ≤ a ∧ a < R.irqSrcCfg + 0x800 then some (doIrqSrcCfgWrite ((a - R.irqSrcCfg) / 4) val s)
  else none

/-- A write with an effect of its own, by address. -/
def pokeSpecial (a : Nat) (val : Word) (s : State) : Option State :=
  match cntClears a with
  | some l => some (cntClear l val s)
  | none =>
    if a / 0x10000 = 1 then pokeCmd a val s
    else if a / 0x10000 = 2 then pokeIrq a val s
    else if R.cisBankOwn ≤ a ∧ a < R.cisBankOwn + 0x400 then some (bankOwnWrite ((a - R.cisBankOwn) / 4) val s)
    else if a = R.timIncrLo then some (doTimIncrWrite val s)
    else if a = R.timIncrHi then some (incrHiWrite val s)
    else if a = R.snpTrig then some (doSnpTrig val s)
    else if a = R.snpTimeHi then some (doSnpTimeArm val s)
    else if a = R.snpRelease then some (doSnpRelease val s)
    else if a = R.meaCfCtrl then some (doMeaCfFreeze val s)
    else if a = R.meaLoudReset then some (doMeaLoudReset val s)
    else if a = R.svcCtrl then some (doSvcClose val s)
    else if a = R.glbRweClr then some (rweClear val s)
    else none

/-- A write of a whole word to a register, by its access code (R14); `a` lies in a register block. -/
def poke (a : Nat) (val : Word) (s : State) : State :=
  match rowAt a with
  | none => s
  | some r =>
    match pokeSpecial a val s with
    | some t => t
    | none =>
      match r.acc with
      | .rw => s.setReg a ((s.reg a &&& ~~~(wd r.mask)) ||| (val &&& wd r.mask))
      | .w1c => s.setReg a (s.reg a &&& ~~~(val &&& wd r.mask))
      | .rwe => rweJoin a val s
      | .ro => s
      | .wo => s

/-- The MSI-X structures (R522). -/
def inMsix (a : Nat) : Bool := decide (0x8000 ≤ a) && decide (a < 0x9008)

/-- Bytes that enables select. -/
def beMask (be : Nat) : Word := wd ((List.range 4).foldl (fun m i => if be.testBit i then m + 0xFF * 2 ^ (8 * i) else m) 0)

/-- MSI-X words take partial writes; the pending bits are read-only. -/
def msixWrite (a be : Nat) (val : Word) (s : State) : State :=
  if a < 0x8200 then s.setReg a ((s.reg a &&& ~~~(beMask be)) ||| (val &&& beMask be)) else s

/-- REGISTER_WRITE: one DWORD of a BAR0 write (R520). -/
def doRegisterWrite (addr be : Nat) (val : Word) (s : State) : State :=
  let a := addr / 4 * 4
  if !s.dieRuns then s
  else if inMsix a then msixWrite a be val s
  else
    let part := be % 16 != 15
    let s := if part then hostErr a 0 s else s
    let s := if hostUnmapped a then hostErr a 1 s else s
    if part || hostUnmapped a then s else poke a val s

def execRegisterWrite (addr be : Nat) (val : Word) (s : State) : Host.Outcome State Fault Refusal :=
  .next (settle (doRegisterWrite addr be val s))

/-! ### SMBus (R544) -/

/-- A value of the die: all ones while it is in reset or in the first two boot stages. -/
def smbusDie (s : State) (v : Word) : Word :=
  if s.dieRuns && bootStage s != 1 && bootStage s != 2 then v else 0xFFFFFFFF

/-- Value of a command code, none for a code that is not acknowledged. -/
def smbusValue (s : State) (code : Nat) : Option Word :=
  match code with
  | 0x00 => some (smbusDie s (regValue s R.glbId))
  | 0x01 => some (smbusDie s (regValue s R.pwrStatus))
  | 0x02 => some (wd s.pwr.cause)
  | 0x03 => some (telemetry s 1)
  | 0x04 => some (telemetry s 2)
  | 0x05 => some (telemetry s 3)
  | 0x06 => some (telemetry s 4)
  | 0x07 => some (s.reg R.pwrTj)
  | 0x08 => some (s.reg R.pwrTstage)
  | 0x09 => some (s.reg R.pwrTocxo)
  | 0x0A => some (smbusDie s (regValue s R.svcDevidLo))
  | 0x0B => some (smbusDie s (regValue s R.svcDevidHi))
  | 0x0C => some (smbusDie s (regValue s R.glbFwVer))
  | _ => none

/-- SMBUS_BLOCK_READ. -/
def doSmbusBlockRead (cmd : Nat) (s : State) : State :=
  if s.pwr.retained then
    match smbusValue s cmd with
    | some v => s.emit (.smbus cmd v)
    | none => s.emit (.smbusNak cmd)
  else s

def execSmbusBlockRead (cmd : Nat) (s : State) : Host.Outcome State Fault Refusal := .next (settle (doSmbusBlockRead cmd s))

end Sys2Proof.Machine
end

