-- ==== Sys2Proof/Machine/Bus.lean ====
section
/-! DEFINITION. The bus matrix (R298 to R304, R512 to R514). -/

namespace Sys2Proof.Machine

def State.setBus (s : State) (l : List BusWait) : State := { s with cis := { s.cis with bus := l } }

/-! ### Decoding (R298, R303, R512) -/

/-- Masters and target ports. -/
def busMasters : Nat := 25
def busPorts : Nat := 21

/-- Port of an address that no target decodes. -/
def noPort : Nat := 99

/-- Port of a native address. -/
def nativePort (m a : Nat) : Nat :=
  if a < 0x1000000 then (if 0x118000 ≤ a ∧ a ≤ 0x118FFF then 18 else 16)
  else if 0x10000000 ≤ a ∧ a < 0x18000000 then (a - 0x10000000) / 0x800000
  else if 0x20000000 ≤ a ∧ a < 0x21000000 then 17
  else if 0x30000000 ≤ a ∧ a < 0x31000000 then 19
  else if 0x100000000 ≤ a ∧ (m = 20 ∨ m = 21 ∨ m = 23) then 20
  else noPort

/-- Port of an alias address while LAYER_EN is 1; the flash controller cannot be reached. -/
def aliasPort (a : Nat) : Nat :=
  if a < 0x48000000 then (a - 0x40000000) / 0x800000
  else if a < 0x49000000 then (if 0x48118000 ≤ a ∧ a ≤ 0x48118FFF then noPort else 16)
  else if a < 0x4A000000 then 17
  else if a < 0x4B000000 then 19
  else noPort

/-- An address of the alias window in force. -/
def isAlias (s : State) (a : Nat) : Bool := decide (0x40000000 ≤ a) && decide (a < 0x50000000) && s.bit R.busCtrl 0

/-- A transaction lies in one target; a length of 0 is taken for none. -/
def portFor (s : State) (t : BusTxn) : Nat :=
  let p (a : Nat) : Nat := if isAlias s a then aliasPort a else nativePort t.master a
  if p t.addr = p (t.addr + t.len - 1) then p t.addr else noPort

/-- An alias access through a bridge. -/
def BusWait.bridged (w : BusWait) : Bool := w.aliased && decide (16 ≤ w.port) && decide (w.port < busPorts)

/-! ### Ways to a port (R300, R304) -/

/-- Most transactions of a master that are outstanding. -/
def busOutst : Nat := 32

/-- Transactions leave their masters while there is room. -/
def busIssue (s : State) : State :=
  let l := s.cis.bus.foldl (fun (l : List BusWait) w =>
    let n := (l.filter fun v => v.t.master == w.t.master && decide (0 < v.stage)).length
    if w.stage = 0 ∧ n < busOutst then
      l.map fun v => if v.num == w.num then { v with stage := if v.bridged then 1 else 2, since := s.clk } else v
    else l) s.cis.bus
  s.setBus l

/-- First at a bridge: arrival, then master, then issue. -/
def bridgeFirst (l : List BusWait) : Option BusWait :=
  l.foldl (fun (b : Option BusWait) w => match b with
    | none => some w
    | some v =>
      if w.since < v.since ∨ (w.since = v.since ∧ (w.t.master < v.t.master ∨ (w.t.master = v.t.master ∧ w.num < v.num)))
      then some w else some v) none

/-- An idle bridge takes its next transaction. -/
def busBridge (s : State) (p : Nat) : State :=
  let mine := s.cis.bus.filter fun w => w.bridged && w.port == p
  if mine.any (fun w => w.stage == 2 && w.ans.isNone) then s
  else
    match bridgeFirst (mine.filter (·.stage == 1)) with
    | none => s
    | some w => s.setBus (s.cis.bus.map fun v => if v.num == w.num then { v with stage := 2, since := s.clk } else v)

/-- Move what can move; what no target decodes is answered at once. Each answer makes room, so the walk goes on. -/
def busWalk : Nat → State → State
  | 0, s => s
  | n + 1, s =>
    let s := [16, 17, 19].foldl busBridge (busIssue s)
    match s.cis.bus.find? (fun w => w.stage == 2 && w.port == noPort && w.ans.isNone) with
    | none => s
    | some w => busWalk n (decodeErr w.num w.t s)

def busMove (s : State) : State := busWalk (s.cis.bus.length + 1) s

/-- BUS_TRANSACTION. -/
def doBusTransaction (t : BusTxn) (s : State) : State :=
  if s.dieRuns && decide (t.master < busMasters) then
    let t := { t with id := t.id % 32, len := if t.write then t.data.length else t.len }
    let w : BusWait := { num := s.cis.busNum, t := t, aliased := isAlias s t.addr, port := portFor s t }
    busMove { s with cis := { s.cis with bus := s.cis.bus ++ [w], busNum := s.cis.busNum + 1 } }
  else s

def execBusTransaction (t : BusTxn) (s : State) : Host.Outcome State Fault Refusal := .next (settle (doBusTransaction t s))

/-! ### Arbitration (R299, R304, R312) -/

/-- QoS at the target: the alias window's, or the master's own unless FORCE replaces it. -/
def busQos (s : State) (w : BusWait) : Nat :=
  let m := w.t.master
  let r := s.reg (R.busMqos + 4 * m)
  if w.aliased then s.field R.busCtrl 7 4
  else if bit r 8 then fld r 3 0
  else if m < 4 then w.t.qos % 16
  else if m < 20 then fld (ecCtrl s.cm (m - 4)) 15 12
  else fld r 3 0

/-- QoS with age. -/
def agedQos (s : State) (w : BusWait) : Nat := min 15 (busQos s w + (s.clk - w.since) / 128)

/-- An older transaction of the same master and ID at the same target comes first (R300). -/
def busBehind (s : State) (w : BusWait) : Bool :=
  s.cis.bus.any fun v => decide (v.num < w.num) && v.ans.isNone && v.t.master == w.t.master && v.t.id == w.t.id && v.port == w.port

def portBank (t : BusTxn) : Nat := bankOf (t.addr % cisSize)

/-- Owner code of a master, none for one that owns no bank (R290). -/
def masterOwner (m : Nat) : Option Nat :=
  if m < 4 then some (8 + m)
  else if m < 20 then some (0x10 + (m - 4))
  else if m = 20 then some 5
  else if m = 22 then some 3
  else if m = 23 then some 4
  else none

/-- A cistern access waits at its requester for clearing, or for a handover to it (R286, R291). -/
def bankHolds (s : State) (t : BusTxn) : Bool :=
  (bankPieces (t.addr % cisSize) t.len).any fun p =>
    let b := bankOf p.1
    s.cis.clearing.contains b ||
      (bankPending s b && masterOwner t.master == some (bankTarget s b) && bankOwner s b != bankTarget s b)

/-- Transactions that wait for a port's grant. -/
def portWaits (s : State) (p : Nat) : List BusWait :=
  s.cis.bus.filter fun w =>
    w.port == p && w.stage == 2 && !w.granted && w.ans.isNone && !busBehind s w && !(decide (p < 16) && bankHolds s w.t)

/-- Turn of a master after the last one granted. -/
def busTurn (last m : Nat) : Nat := (m + 2 * busMasters - last - 1) % busMasters

/-- The winner: highest aged QoS, then the turn of its master, then the oldest. -/
def busWinner (s : State) (p : Nat) : Option BusWait :=
  let last := tabGetD s.cis.lastGrant p (busMasters - 1)
  (portWaits s p).foldl (fun (b : Option BusWait) w => match b with
    | none => some w
    | some v =>
      let a := agedQos s v
      let c := agedQos s w
      if a < c ∨ (a = c ∧ busTurn last w.t.master < busTurn last v.t.master) then some w else some v) none

/-! ### Targets -/

/-- A piece of a cistern access: state, RESP, BUSY, data (R289, R290, R293, R296). -/
def cisPiece (t : BusTxn) (s : State) (off n : Nat) (data : List Byte) : State × Nat × Bool × List Byte :=
  let b := bankOf off
  let mine := masterOwner t.master == some (bankOwner s b) && !bankPending s b
  let debug := t.master == 24 && !t.write && (s.svc.state == 2)
  if !mine && !debug then
    (logForeign s off 1 t.master t.write, 1, false, List.replicate n 0)
  else
    let clash := t.collide && !bankLine s b
    let s := if clash then (s.inc R.cisCntBusy).evt R.cisEvtStatus 2 else s
    if t.write then (cisWrite s off data, 0, clash, [])
    else if clash then
      let d := s.draw
      (d.2, 0, true, (List.range n).map fun i => Config.collideByte d.1 i)
    else
      let r := portRead s off n 1 t.master
      (r.1, if r.2.2 then 3 else 0, false, r.2.1)

/-- A cistern access, split at bank boundaries: the first error is its response. -/
def serveCistern (n : Nat) (t : BusTxn) (s : State) : State :=
  let off := t.addr % cisSize
  let r := (bankPieces off t.len).foldl (fun (a : State × Nat × Bool × List Byte) (p : Nat × Nat) =>
    let x := cisPiece t a.1 p.1 p.2 ((t.data.drop (p.1 - off)).take p.2)
    (x.1, if a.2.1 = 0 then x.2.1 else a.2.1, a.2.2.1 || x.2.2.1, a.2.2.2 ++ x.2.2.2)) (s, 0, false, [])
  busRespond n r.2.1 r.2.2.1 (if r.2.1 = 0 then r.2.2.2 else zeroData t) r.1

/-- Register words an access touches. -/
def regWords (a n : Nat) : List Nat := (List.range (ceilDiv (a % 4 + n) 4)).map fun i => a / 4 * 4 + 4 * i

/-- A master may not write the register: CIS_BANK_OWN is for the control cores (R290). -/
def regForbidden (m a : Nat) : Bool := decide (4 ≤ m) && decide (R.cisBankOwn ≤ a) && decide (a < R.cisBankOwn + 0x400)

/-- Words of a write that cover whole registers, with their values. -/
def wholeWords (t : BusTxn) (a : Nat) : List (Nat × Word) :=
  (regWords a t.len).filterMap fun w =>
    if a ≤ w ∧ w + 4 ≤ a + t.len then some (w, wAt (wordsOf ((t.data.drop (w - a)).take 4)) 0) else none

/-- The register space (R514, R516, R517, R522). -/
def serveRegs (n : Nat) (t : BusTxn) (s : State) : State :=
  let a := t.addr % 0x1000000
  let l := regWords a t.len
  if l.any (fun w => decide (0x130000 ≤ w) || inMsix w) then decodeErr n t s
  else if t.write then
    if l.any (regForbidden t.master) then decodeErr n t s
    else busRespond n 0 false [] ((wholeWords t a).foldl (fun s e => poke e.1 e.2 s) s)
  else
    let r := l.foldl (fun (x : State × List Byte) w =>
      let y := regRead (1 + t.master) w x.1
      (y.1, x.2 ++ bytesOfWord y.2)) (s, [])
    busRespond n 0 false ((r.2.drop (a % 4)).take t.len) r.1

/-- Control cores read and write MRAM and the flash controller's window; DBG reads while the lock is open (R514). -/
def privAccess (s : State) (t : BusTxn) : Bool := decide (t.master < 4) || (t.master == 24 && !t.write && (s.svc.state == 2))

def serveMram (n : Nat) (t : BusTxn) (s : State) : State :=
  let a := t.addr % mramSize
  if !privAccess s t then decodeErr n t s
  else if t.write then
    let put := t.data.zipIdx.foldl (fun m e => tabSet m (a + e.2) e.1) s.jnl.put
    busRespond n 0 false [] { s with jnl := { s.jnl with put := put } }
  else
    let r := mramRead s a t.len
    busRespond n 0 false r.2 r.1

/-- The flash controller's window: its registers are not described, so reads are free and writes change nothing the model holds. -/
def serveFlash (n : Nat) (t : BusTxn) (s : State) : State :=
  if !privAccess s t then decodeErr n t s
  else if t.write then busRespond n 0 false [] s
  else
    let d := s.draw
    busRespond n 0 false ((List.range t.len).map fun i => Config.flashByte d.1 (t.addr % 4096 + i)) d.2

/-- Host memory: a write goes out, a read returns what the transaction carries. -/
def serveHost (n : Nat) (t : BusTxn) (s : State) : State :=
  if t.write then busRespond n 0 false [] (s.emit (.host t.addr t.data))
  else busRespond n 0 false ((t.data ++ List.replicate t.len 0).take t.len) s

/-- A granted transaction at its target. -/
def busServe (w : BusWait) (s : State) : State :=
  let n := w.num
  let t := w.t
  if w.port < 16 then serveCistern n t s
  else
    match w.port with
    | 16 => serveRegs n t s
    | 17 => serveMram n t s
    | 18 => serveFlash n t s
    | 19 => ecAccess (some n) t s
    | _ => serveHost n t s

/-- BUS_GRANT: one cycle of a port. -/
def doBusGrant (port : Nat) (s : State) : State :=
  if s.dieRuns && decide (port < busPorts) then
    match busWinner s port with
    | none => s
    | some w =>
      let aged := decide (busQos s w < agedQos s w)
      let s := if aged then s.inc R.busCntAged else s
      let bus := s.cis.bus.map fun v => if v.num == w.num then { v with granted := true } else v
      let s := { s with cis := { s.cis with bus := bus, lastGrant := tabSet s.cis.lastGrant port w.t.master } }
      busMove (busServe w s)
  else s

def execBusGrant (port : Nat) (s : State) : Host.Outcome State Fault Refusal := .next (settle (doBusGrant port s))

end Sys2Proof.Machine
end

