-- ==== Sys2Proof/Machine/EcExec.lean ====
section
/-! DEFINITION. The meanings of the effect-core instructions: each issues on its core (R205 to R226). -/

namespace Sys2Proof.Machine

/-- NOP (R206). -/
def execNop (core : Nat) (q : Par) (s : State) : Host.Outcome State Fault Refusal :=
  .next (settle (ecRun core (fun env => ecP env q id) s))

/-- MPY (R206). -/
def execMpy (core a x y : Nat) (neg : Bool) (q : Par) (s : State) : Host.Outcome State Fault Refusal :=
  .next (settle (ecRun core (fun env => ecP env q (ecMul env false a x y neg)) s))

/-- MAC (R206). -/
def execMac (core a x y : Nat) (neg : Bool) (q : Par) (s : State) : Host.Outcome State Fault Refusal :=
  .next (settle (ecRun core (fun env => ecP env q (ecMul env true a x y neg)) s))

/-- FIR4 (R206). -/
def execFir4 (core x k : Nat) (neg clr : Bool) (q : Par) (s : State) : Host.Outcome State Fault Refusal :=
  .next (settle (ecRun core (fun env => ecP env q (ecFir4 env x k neg clr)) s))

/-- DMAC (R206). -/
def execDmac (core half x0 y0 x1 y1 : Nat) (q : Par) (s : State) : Host.Outcome State Fault Refusal :=
  .next (settle (ecRun core (fun env => ecP env q (ecDmul env true half x0 y0 x1 y1)) s))

/-- DMPY (R206). -/
def execDmpy (core half x0 y0 x1 y1 : Nat) (q : Par) (s : State) : Host.Outcome State Fault Refusal :=
  .next (settle (ecRun core (fun env => ecP env q (ecDmul env false half x0 y0 x1 y1)) s))

/-- CMAC (R206). -/
def execCmac (core u v half : Nat) (conj clr : Bool) (q : Par) (s : State) : Host.Outcome State Fault Refusal :=
  .next (settle (ecRun core (fun env => ecP env q (ecCmac env u v half conj clr)) s))

/-- ACS2 (R216). -/
def execAcs2 (core ma mb bm k : Nat) (min : Bool) (q : Par) (s : State) : Host.Outcome State Fault Refusal :=
  .next (settle (ecRun core (fun env => ecP env q (ecAcs2 ma mb bm k min)) s))

/-- ACS1 (R216). -/
def execAcs1 (core dst s0 s1 bm : Nat) (min : Bool) (q : Par) (s : State) : Host.Outcome State Fault Refusal :=
  .next (settle (ecRun core (fun env => ecP env q (ecAcs1 dst s0 s1 bm min)) s))

/-- ADD (R215). -/
def execAdd (core d x y : Nat) (q : Par) (s : State) : Host.Outcome State Fault Refusal :=
  .next (settle (ecRun core (fun env => ecP env q fun r => ecAddSub false true d (r.dr x) (r.dr y) r) s))

/-- SUB (R215). -/
def execSub (core d x y : Nat) (q : Par) (s : State) : Host.Outcome State Fault Refusal :=
  .next (settle (ecRun core (fun env => ecP env q fun r => ecAddSub true true d (r.dr x) (r.dr y) r) s))

/-- ADDS (R215). -/
def execAdds (core d x y : Nat) (q : Par) (s : State) : Host.Outcome State Fault Refusal :=
  .next (settle (ecRun core (fun env => ecP env q fun r => ecSatRes d (r.di x + r.di y) r) s))

/-- SUBS (R215). -/
def execSubs (core d x y : Nat) (q : Par) (s : State) : Host.Outcome State Fault Refusal :=
  .next (settle (ecRun core (fun env => ecP env q fun r => ecSatRes d (r.di x - r.di y) r) s))

/-- AND (R215). -/
def execAnd (core d x y : Nat) (q : Par) (s : State) : Host.Outcome State Fault Refusal :=
  .next (settle (ecRun core (fun env => ecP env q fun r => ecLogic d (r.dr x &&& r.dr y) r) s))

/-- OR (R215). -/
def execOr (core d x y : Nat) (q : Par) (s : State) : Host.Outcome State Fault Refusal :=
  .next (settle (ecRun core (fun env => ecP env q fun r => ecLogic d (r.dr x ||| r.dr y) r) s))

/-- XOR (R215). -/
def execXor (core d x y : Nat) (q : Par) (s : State) : Host.Outcome State Fault Refusal :=
  .next (settle (ecRun core (fun env => ecP env q fun r => ecLogic d (r.dr x ^^^ r.dr y) r) s))

/-- SHIFT (R206). -/
def execShift (core kind d x : Nat) (amt : ShAmt) (q : Par) (s : State) : Host.Outcome State Fault Refusal :=
  .next (settle (ecRun core (fun env => ecP env q (ecShift kind d x amt)) s))

/-- MIN (R206). -/
def execMin (core d x y : Nat) (q : Par) (s : State) : Host.Outcome State Fault Refusal :=
  .next (settle (ecRun core (fun env => ecP env q fun r => ecLogic d (ecMin (r.dr x) (r.dr y)) r) s))

/-- MAX (R206). -/
def execMax (core d x y : Nat) (q : Par) (s : State) : Host.Outcome State Fault Refusal :=
  .next (settle (ecRun core (fun env => ecP env q fun r => ecLogic d (ecMax (r.dr x) (r.dr y)) r) s))

/-- ABS (R215). -/
def execAbs (core d x : Nat) (q : Par) (s : State) : Host.Outcome State Fault Refusal :=
  .next (settle (ecRun core (fun env => ecP env q fun r => ecSatRes d (if r.di x < 0 then -(r.di x) else r.di x) r) s))

/-- NEG (R215). -/
def execNeg (core d x : Nat) (q : Par) (s : State) : Host.Outcome State Fault Refusal :=
  .next (settle (ecRun core (fun env => ecP env q fun r => ecSatRes d (-(r.di x)) r) s))

/-- CMP (R215). -/
def execCmp (core x y : Nat) (q : Par) (s : State) : Host.Outcome State Fault Refusal :=
  .next (settle (ecRun core (fun env => ecP env q fun r => ecAddSub true false 0 (r.dr x) (r.dr y) r) s))

/-- MOV (R206). -/
def execMov (core d x : Nat) (q : Par) (s : State) : Host.Outcome State Fault Refusal :=
  .next (settle (ecRun core (fun env => ecP env q fun r => ecLogic d (r.dr x) r) s))

/-- ACLR (R206). -/
def execAclr (core mask : Nat) (q : Par) (s : State) : Host.Outcome State Fault Refusal :=
  .next (settle (ecRun core (fun env => ecP env q (ecAclr env mask)) s))

/-- AADD (R206). -/
def execAadd (core d x : Nat) (sub : Bool) (q : Par) (s : State) : Host.Outcome State Fault Refusal :=
  .next (settle (ecRun core (fun env => ecP env q (ecAadd env d x sub)) s))

/-- ASH (R206). -/
def execAsh (core d x : Nat) (n : Int) (q : Par) (s : State) : Host.Outcome State Fault Refusal :=
  .next (settle (ecRun core (fun env => ecP env q (ecAsh env d x n)) s))

/-- ARND (R214). -/
def execArnd (core d a sh : Nat) (q : Par) (s : State) : Host.Outcome State Fault Refusal :=
  .next (settle (ecRun core (fun env => ecP env q (ecArnd d a sh)) s))

/-- ALD (R206). -/
def execAld (core a d : Nat) (q : Par) (s : State) : Host.Outcome State Fault Refusal :=
  .next (settle (ecRun core (fun env => ecP env q (ecAld env a d)) s))

/-- LD (R207). -/
def execLd (core d p : Nat) (m1 : Mv) (u0 u1 : Upd) (s : State) : Host.Outcome State Fault Refusal :=
  .next (settle (ecRun core (fun env => ecP env { m0 := .ld d p, m1 := m1, u0 := u0, u1 := u1 } id) s))

/-- ST (R207). -/
def execSt (core d p : Nat) (m1 : Mv) (u0 u1 : Upd) (s : State) : Host.Outcome State Fault Refusal :=
  .next (settle (ecRun core (fun env => ecP env { m0 := .st d p, m1 := m1, u0 := u0, u1 := u1 } id) s))

/-- STA (R214). -/
def execSta (core a sh p : Nat) (m1 : Mv) (u0 u1 : Upd) (s : State) : Host.Outcome State Fault Refusal :=
  .next (settle (ecRun core (fun env => ecP env { m0 := .sta a sh p, m1 := m1, u0 := u0, u1 := u1 } id) s))

/-- ADDRESS_UPDATE (R223). -/
def execAddressUpdate (core n op : Nat) (u1 : Upd) (s : State) : Host.Outcome State Fault Refusal :=
  .next (settle (ecRun core (fun env => ecP env { u0 := .upd n op, u1 := u1 } id) s))

/-- BR (R209). -/
def execBr (core cond target : Nat) (s : State) : Host.Outcome State Fault Refusal :=
  .next (settle (ecRun core (fun env => ecBr env cond target) s))

/-- CALL (R222). -/
def execCall (core cond target : Nat) (s : State) : Host.Outcome State Fault Refusal :=
  .next (settle (ecRun core (fun env => ecCall env cond target) s))

/-- RET (R222). -/
def execRet (core cond : Nat) (s : State) : Host.Outcome State Fault Refusal :=
  .next (settle (ecRun core (fun env => ecRet env cond) s))

/-- RETI (R226). -/
def execReti (core : Nat) (s : State) : Host.Outcome State Fault Refusal :=
  .next (settle (ecRun core (fun env => ecReti env) s))

/-- RPT (R220). -/
def execRpt (core : Nat) (n : Cnt) (s : State) : Host.Outcome State Fault Refusal :=
  .next (settle (ecRun core (fun env => ecRpt env n) s))

/-- LOOP (R221). -/
def execLoop (core stop : Nat) (n : Cnt) (s : State) : Host.Outcome State Fault Refusal :=
  .next (settle (ecRun core (fun env => ecLoop env stop n) s))

/-- HALT (R231). -/
def execHalt (core : Nat) (s : State) : Host.Outcome State Fault Refusal :=
  .next (settle (ecRun core (fun env => ecHalt env) s))

/-- LDI (R209). -/
def execLdi (core id : Nat) (v : Word) (s : State) : Host.Outcome State Fault Refusal :=
  .next (settle (ecRun core (fun env => ecLdi env id v) s))

/-- MOVC (R209). -/
def execMovc (core dst src : Nat) (s : State) : Host.Outcome State Fault Refusal :=
  .next (settle (ecRun core (fun env => ecMovc env dst src) s))

/-- XMOV (R204). -/
def execXmov (core d p : Nat) (out : Bool) (lines : Nat) (s : State) : Host.Outcome State Fault Refusal :=
  .next (settle (ecRun core (fun env => ecXmov env d p out lines) s))

/-- XWAIT (R204). -/
def execXwait (core : Nat) (s : State) : Host.Outcome State Fault Refusal :=
  .next (settle (ecRun core (fun env => ecXwait env) s))

/-- SIGNAL (R315). -/
def execSignal (core src : Nat) (s : State) : Host.Outcome State Fault Refusal :=
  .next (settle (ecRun core (fun env => ecSignal env src) s))

/-- CLRF (R209). -/
def execClrf (core mask : Nat) (s : State) : Host.Outcome State Fault Refusal :=
  .next (settle (ecRun core (fun env => ecClrf env mask) s))

/-- ADDI (R210). -/
def execAddi (core d x : Nat) (v : Word) (s : State) : Host.Outcome State Fault Refusal :=
  .next (settle (ecRun core (fun env => ecX env fun r => ecAddSub false true d (r.dr x) v r) s))

/-- ADDSI (R210). -/
def execAddsi (core d x : Nat) (v : Word) (s : State) : Host.Outcome State Fault Refusal :=
  .next (settle (ecRun core (fun env => ecX env fun r => ecSatRes d (r.di x + v.toInt) r) s))

/-- ANDI (R210). -/
def execAndi (core d x : Nat) (v : Word) (s : State) : Host.Outcome State Fault Refusal :=
  .next (settle (ecRun core (fun env => ecX env fun r => ecLogic d (r.dr x &&& v) r) s))

/-- ORI (R210). -/
def execOri (core d x : Nat) (v : Word) (s : State) : Host.Outcome State Fault Refusal :=
  .next (settle (ecRun core (fun env => ecX env fun r => ecLogic d (r.dr x ||| v) r) s))

/-- XORI (R210). -/
def execXori (core d x : Nat) (v : Word) (s : State) : Host.Outcome State Fault Refusal :=
  .next (settle (ecRun core (fun env => ecX env fun r => ecLogic d (r.dr x ^^^ v) r) s))

/-- CMPI (R210). -/
def execCmpi (core x : Nat) (v : Word) (s : State) : Host.Outcome State Fault Refusal :=
  .next (settle (ecRun core (fun env => ecX env fun r => ecAddSub true false 0 (r.dr x) v r) s))

/-- MINI (R210). -/
def execMini (core d x : Nat) (v : Word) (s : State) : Host.Outcome State Fault Refusal :=
  .next (settle (ecRun core (fun env => ecX env fun r => ecLogic d (ecMin (r.dr x) v) r) s))

/-- MAXI (R210). -/
def execMaxi (core d x : Nat) (v : Word) (s : State) : Host.Outcome State Fault Refusal :=
  .next (settle (ecRun core (fun env => ecX env fun r => ecLogic d (ecMax (r.dr x) v) r) s))

/-- ILLEGAL_INSTRUCTION (R233). -/
def execIllegalInstruction (core : Nat) (s : State) : Host.Outcome State Fault Refusal :=
  .next (settle (ecRun core (fun env => ecIllegal env) s))

end Sys2Proof.Machine
end

