-- ==== Sys2Proof/Machine/Tick.lean ====
section
/-! DEFINITION. The tick: what happens at a boundary and when an egress block completes (R19 to R23, R362). -/

namespace Sys2Proof.Machine

/-! ### Parts of the boundary -/

/-- Memory upsets of the tick: a second one in a word makes it a double-bit error (R296). -/
def addUpset (s : State) (u : Nat × Bool) : State :=
  let a := u.1 % cisSize / 4 * 4
  let dbl := u.2 || (tabGet s.cis.upsets a).isSome
  { s with cis := { s.cis with upsets := tabSet s.cis.upsets a dbl } }

/-- Outputs that priming holds muted in block `b` (R69). -/
def primeHeld (s : State) (b : Nat) : List Nat :=
  if primeObj (s.cmAt b) then []
  else (((slotAt s b).filter fun e => unprimed s e.obj b).map (·.out)).dedup

def notePriming (b : Nat) (s : State) : State :=
  let l := primeHeld s b
  if l.isEmpty then s else { s with smp := { s.smp with primeHold := (b, l) :: s.smp.primeHold } }

/-- A commit changed the tables: the new state governs blocks from `k` on (R20). -/
def noteCommit (k : Nat) (c0 : Committed) (s : State) : State :=
  if s.cm = c0 then s else { s with hist := ((k, s.cm) :: s.hist).take 16 }

/-- Epoch of the newest S-ADM commit: the firmware's transactions that commit now carry its frames (R432). -/
def admEpoch (due : List Txn) (s : State) : State :=
  if due.any fun t => t.kinds.contains 1 then s.setNat R.sapAdmEpoch s.cm.epoch else s

/-- The recovery hold (R122): released by itself when every object is primed, and over once its block has gone out. -/
def recoveryBoundary (t : Nat) (s : State) : State :=
  if !s.bit R.cmdJnlStatus 1 then s
  else
    match s.cmd.recRelease with
    | none =>
      if s.bit R.cmdJnlCtrl 0 && allPrimed s then { s with cmd := { s.cmd with recRelease := some t } } else s
    | some k =>
      if k + 1 ≤ t then { s.setBit R.cmdJnlStatus 1 false with cmd := { s.cmd with recHold := [], recRelease := none } } else s

/-- Unicast destinations of a stream's legs: port and address. -/
def unicasts (d : List Word) : List (Nat × Nat) :=
  let red := (wAt d 3).toNat
  let blue := (wAt d 5).toNat
  (if redEn d && !isMulticast red then [(redPort d, red)] else []) ++
  (if blueEn d && !isMulticast blue then [(bluePort d, blue)] else [])

/-- The firmware asks for addresses it does not know: when a stream starts or changes, and every second (R360). -/
def arpBoundary (t : Nat) (s : State) : State :=
  s.str.tx.foldl (fun s (e : Nat × List TxRt) => e.2.foldl (fun s r =>
    let fresh := r.start == t || r.descs.any fun (x : Nat × List Word) => x.1 == t * s.blockLen
    if r.live t && (fresh || t % 1500 == 0) then
      (unicasts (txAt r.descs (t * s.blockLen) [])).foldl (fun s (x : Nat × Nat) =>
        if (macFor s x.1 x.2).isSome then s else arpAsk s x.1 (nextHop s x.1 x.2)) s
    else s) s) s

/-! ### The boundary -/

/-- What ends with tick `t` - 1 at boundary `t`: its last samples, and block `t` - 1 through mixer and correction (R19 items 3, 4). -/
def endOfTick (x : TickIn) (t : Nat) (s : State) : State :=
  let s := releaseUntil (t * s.blockLen) s
  let s := x.upsets.foldl addUpset s
  let s := shedBoundary t { s with cis := { s.cis with selfOk := true } }
  let s := pumpBlock (t - 1) (notePriming (t - 1) s)
  scrubTick (corBlock (t - 1) s)

/-- The commit at boundary `t`, and everything whose effective boundary `t` is. -/
def commitAt (t : Nat) (s : State) : State :=
  let s := decideReady true s
  let c0 := s.cm
  let due := s.cmd.txns.filter fun x => x.phase == .admitted && decide (x.boundary ≤ t) && !x.needGo
  let r := commitBoundary t s
  let s := admEpoch due (noteCommit (t + 2) c0 r.1)
  let s := forwardSealed t s
  let s := mapChange (s.cmAt (t - 1)) (s.cmAt t) s
  let s := arpBoundary t (sapBoundary t (strBoundary t (netBoundary s)))
  let s := trigBoundary (timBoundary t s)
  let s := primeBoundary t (joinBoundary t (nylBoundary t s))
  geometryBlock (t + 2) c0 r.2 s

/-- What starts with tick `t`: effect cores, measurement, rings, snapshot. -/
def startOfTick (x : TickIn) (sumps : Tab (List Int)) (t : Nat) (s : State) : State :=
  let s := meaBoundary t x.pdm sumps (ecTick t s)
  let s := snapBoundary t (startCheckpoint (recoveryBoundary t (ringBoundary s)))
  { s with tick := t, cmd := { s.cmd with passDone := false } }

/-- The boundary that starts tick `t`. -/
def boundaryWork (x : TickIn) (t : Nat) (s : State) : State :=
  let sumps := s.smp.stored
  let s := endOfTick x t s
  let s := { s with tick := t, tickClk := s.clk }
  startOfTick x sumps t (commitAt t s)

/-- TICK_BOUNDARY. While TICK_RUN = 0 nothing is rendered; once the time is valid the tick starts at the next boundary (R384). -/
def doTickBoundary (x : TickIn) (s : State) : State :=
  if !s.dieRuns then s
  else if s.tickRuns then boundaryWork x (s.tick + 1) (s.atClk s.tickEnd)
  else if s.tim.restart then
    let t := s.tickNow + 1
    startOfTick {} [] t (commitAt t (restartTick t s))
  else s

def execTickBoundary (t : TickIn) (s : State) : Host.Outcome State Fault Refusal := .next (settle (doTickBoundary t s))

/-! ### Egress (R362, R458, R459) -/

/-- EGRESS_BLOCK_COMPLETE: block `tick` - 1 is in the output stream buffer. -/
def doEgressBlockComplete (s : State) : State :=
  let due := (sampleClk s (s.tick * s.blockLen + egressSamples s : Nat)).toNat
  if s.dieRuns && s.tickRuns && decide (1 ≤ s.tick) && !egressDone s && s.dueOk due then
    let m := s.tick - 1
    let s := egressBlock m (s.atClk due)
    let s := if s.cis.selfOk then s else mirEvt (s.inc R.mirCntScFail) 7
    let s := sendDigest m s
    (s.setNat R.strBlkEpoch (s.cmAt m).epoch).setNat64 R.strBlkTickLo m
  else s

def execEgressBlockComplete (s : State) : Host.Outcome State Fault Refusal := .next (settle (doEgressBlockComplete s))

/-! ### Holdover store (R398) -/

/-- HOLD_STORE: every 60 s in LOCKED. -/
def doHoldStore (s : State) : State :=
  let due := s.tim.holdAt + 75000000000
  if tSt s = 3 ∧ s.dueOk due = true then
    let s := s.atClk due
    { s with
      tim := { s.tim with holdAt := due }
      jnl := { s.jnl with store := { s.jnl.store with holdIncr := some (timHold s) } } }
  else s

def execHoldStore (s : State) : Host.Outcome State Fault Refusal := .next (settle (doHoldStore s))

end Sys2Proof.Machine
end

