-- ==== Sys2Proof/Machine/Dispatch.lean ====
section
/-! DEFINITION. One arm for each command of the table, in the order of the constructors. -/

namespace Sys2Proof.Machine

/-- The effect of a command on everything but the queue. -/
def exec (i : Instr) (s : State) : Host.Outcome State Fault Refusal :=
  match i with
  | .tickBoundary t => Sys2Proof.Machine.execTickBoundary t s
  | .sampleRelease sap => Sys2Proof.Machine.execSampleRelease sap s
  | .burstMuteEnd ch => Sys2Proof.Machine.execBurstMuteEnd ch s
  | .packetCutoff slot seq => Sys2Proof.Machine.execPacketCutoff slot seq s
  | .fillDeadline slot seq => Sys2Proof.Machine.execFillDeadline slot seq s
  | .wellPrimed obj => Sys2Proof.Machine.execWellPrimed obj s
  | .routeFadeEnd obj out => Sys2Proof.Machine.execRouteFadeEnd obj out s
  | .objOffRampEnd obj => Sys2Proof.Machine.execObjOffRampEnd obj s
  | .outputModeSwitch out => Sys2Proof.Machine.execOutputModeSwitch out s
  | .corFadeEnd out => Sys2Proof.Machine.execCorFadeEnd out s
  | .corSwitch out => Sys2Proof.Machine.execCorSwitch out s
  | .corSettled out => Sys2Proof.Machine.execCorSettled out s
  | .micValid mic => Sys2Proof.Machine.execMicValid mic s
  | .strRxFadeEnd slot => Sys2Proof.Machine.execStrRxFadeEnd slot s
  | .ecOverrun core => Sys2Proof.Machine.execEcOverrun core s
  | .lateHalt core => Sys2Proof.Machine.execLateHalt core s
  | .ecStopRampEnd core => Sys2Proof.Machine.execEcStopRampEnd core s
  | .packetFetch sq bytes => Sys2Proof.Machine.execPacketFetch sq bytes s
  | .cmdTimeout fetch => Sys2Proof.Machine.execCmdTimeout fetch s
  | .txnIdleTimeout txn => Sys2Proof.Machine.execTxnIdleTimeout txn s
  | .opNop h p => Sys2Proof.Machine.execOpNop h p s
  | .opSysInfo h p => Sys2Proof.Machine.execOpSysInfo h p s
  | .opSysRate h p => Sys2Proof.Machine.execOpSysRate h p s
  | .opRampSet h p => Sys2Proof.Machine.execOpRampSet h p s
  | .opRecoverRelease h p => Sys2Proof.Machine.execOpRecoverRelease h p s
  | .opRegWrite h p => Sys2Proof.Machine.execOpRegWrite h p s
  | .opRegRead h p => Sys2Proof.Machine.execOpRegRead h p s
  | .opSysReset h p => Sys2Proof.Machine.execOpSysReset h p s
  | .opTxnOpen h p => Sys2Proof.Machine.execOpTxnOpen h p s
  | .opTxnCommit h p => Sys2Proof.Machine.execOpTxnCommit h p s
  | .opTxnCommitAt h p => Sys2Proof.Machine.execOpTxnCommitAt h p s
  | .opTxnCommitCheck h p => Sys2Proof.Machine.execOpTxnCommitCheck h p s
  | .opTxnAbort h p => Sys2Proof.Machine.execOpTxnAbort h p s
  | .opTxnStatus h p => Sys2Proof.Machine.execOpTxnStatus h p s
  | .opObjSet h p => Sys2Proof.Machine.execOpObjSet h p s
  | .opObjKeys h p => Sys2Proof.Machine.execOpObjKeys h p s
  | .opObjKeysClear h p => Sys2Proof.Machine.execOpObjKeysClear h p s
  | .opWellSize h p => Sys2Proof.Machine.execOpWellSize h p s
  | .opObjState h p => Sys2Proof.Machine.execOpObjState h p s
  | .opDistTable h p => Sys2Proof.Machine.execOpDistTable h p s
  | .opSpkSet h p => Sys2Proof.Machine.execOpSpkSet h p s
  | .opLayoutSet h p => Sys2Proof.Machine.execOpLayoutSet h p s
  | .opArraySet h p => Sys2Proof.Machine.execOpArraySet h p s
  | .opLayoutRead h p => Sys2Proof.Machine.execOpLayoutRead h p s
  | .opDinSet h p => Sys2Proof.Machine.execOpDinSet h p s
  | .opXpSet h p => Sys2Proof.Machine.execOpXpSet h p s
  | .opOutSet h p => Sys2Proof.Machine.execOpOutSet h p s
  | .opSpSet h p => Sys2Proof.Machine.execOpSpSet h p s
  | .opRouteRead h p => Sys2Proof.Machine.execOpRouteRead h p s
  | .opCorCfg h p => Sys2Proof.Machine.execOpCorCfg h p s
  | .opCorLoad h p => Sys2Proof.Machine.execOpCorLoad h p s
  | .opCorSwap h p => Sys2Proof.Machine.execOpCorSwap h p s
  | .opCorStatus h p => Sys2Proof.Machine.execOpCorStatus h p s
  | .opMeaMetrics h p => Sys2Proof.Machine.execOpMeaMetrics h p s
  | .opMeaRefCapture h p => Sys2Proof.Machine.execOpMeaRefCapture h p s
  | .opMeaExport h p => Sys2Proof.Machine.execOpMeaExport h p s
  | .opEcLoad h p => Sys2Proof.Machine.execOpEcLoad h p s
  | .opEcAttach h p => Sys2Proof.Machine.execOpEcAttach h p s
  | .opEcDetach h p => Sys2Proof.Machine.execOpEcDetach h p s
  | .opEcParam h p => Sys2Proof.Machine.execOpEcParam h p s
  | .opEcStart h p => Sys2Proof.Machine.execOpEcStart h p s
  | .opEcStop h p => Sys2Proof.Machine.execOpEcStop h p s
  | .opEcRead h p => Sys2Proof.Machine.execOpEcRead h p s
  | .opStrRxSet h p => Sys2Proof.Machine.execOpStrRxSet h p s
  | .opStrTxSet h p => Sys2Proof.Machine.execOpStrTxSet h p s
  | .opStrDelete h p => Sys2Proof.Machine.execOpStrDelete h p s
  | .opStrMask h p => Sys2Proof.Machine.execOpStrMask h p s
  | .opNetPortSet h p => Sys2Proof.Machine.execOpNetPortSet h p s
  | .opStrStatus h p => Sys2Proof.Machine.execOpStrStatus h p s
  | .opTimPtpSet h p => Sys2Proof.Machine.execOpTimPtpSet h p s
  | .opTimPathAccept h p => Sys2Proof.Machine.execOpTimPathAccept h p s
  | .opTimTrigSet h p => Sys2Proof.Machine.execOpTimTrigSet h p s
  | .opTimRefSet h p => Sys2Proof.Machine.execOpTimRefSet h p s
  | .opTimStatus h p => Sys2Proof.Machine.execOpTimStatus h p s
  | .opSapSet h p => Sys2Proof.Machine.execOpSapSet h p s
  | .opAdmSet h p => Sys2Proof.Machine.execOpAdmSet h p s
  | .opSapStatus h p => Sys2Proof.Machine.execOpSapStatus h p s
  | .opGangForm h p => Sys2Proof.Machine.execOpGangForm h p s
  | .opGangLeave h p => Sys2Proof.Machine.execOpGangLeave h p s
  | .opMirForm h p => Sys2Proof.Machine.execOpMirForm h p s
  | .opMirRole h p => Sys2Proof.Machine.execOpMirRole h p s
  | .opGangStatus h p => Sys2Proof.Machine.execOpGangStatus h p s
  | .opSnpTrigger h p => Sys2Proof.Machine.execOpSnpTrigger h p s
  | .opSnpRead h p => Sys2Proof.Machine.execOpSnpRead h p s
  | .opJnlRead h p => Sys2Proof.Machine.execOpJnlRead h p s
  | .opPwrSet h p => Sys2Proof.Machine.execOpPwrSet h p s
  | .opPwrStatus h p => Sys2Proof.Machine.execOpPwrStatus h p s
  | .opSvcChallenge h p => Sys2Proof.Machine.execOpSvcChallenge h p s
  | .opSvcResponse h p => Sys2Proof.Machine.execOpSvcResponse h p s
  | .opSvcOwner h p => Sys2Proof.Machine.execOpSvcOwner h p s
  | .opFwWrite h p => Sys2Proof.Machine.execOpFwWrite h p s
  | .opFwActivate h p => Sys2Proof.Machine.execOpFwActivate h p s
  | .nop core q => Sys2Proof.Machine.execNop core q s
  | .mpy core a x y neg q => Sys2Proof.Machine.execMpy core a x y neg q s
  | .mac core a x y neg q => Sys2Proof.Machine.execMac core a x y neg q s
  | .fir4 core x k neg clr q => Sys2Proof.Machine.execFir4 core x k neg clr q s
  | .dmac core half x0 y0 x1 y1 q => Sys2Proof.Machine.execDmac core half x0 y0 x1 y1 q s
  | .dmpy core half x0 y0 x1 y1 q => Sys2Proof.Machine.execDmpy core half x0 y0 x1 y1 q s
  | .cmac core u v half conj clr q => Sys2Proof.Machine.execCmac core u v half conj clr q s
  | .acs2 core ma mb bm k min q => Sys2Proof.Machine.execAcs2 core ma mb bm k min q s
  | .acs1 core dst s0 s1 bm min q => Sys2Proof.Machine.execAcs1 core dst s0 s1 bm min q s
  | .add core d x y q => Sys2Proof.Machine.execAdd core d x y q s
  | .sub core d x y q => Sys2Proof.Machine.execSub core d x y q s
  | .adds core d x y q => Sys2Proof.Machine.execAdds core d x y q s
  | .subs core d x y q => Sys2Proof.Machine.execSubs core d x y q s
  | .and core d x y q => Sys2Proof.Machine.execAnd core d x y q s
  | .or core d x y q => Sys2Proof.Machine.execOr core d x y q s
  | .xor core d x y q => Sys2Proof.Machine.execXor core d x y q s
  | .shift core kind d x amt q => Sys2Proof.Machine.execShift core kind d x amt q s
  | .min core d x y q => Sys2Proof.Machine.execMin core d x y q s
  | .max core d x y q => Sys2Proof.Machine.execMax core d x y q s
  | .abs core d x q => Sys2Proof.Machine.execAbs core d x q s
  | .neg core d x q => Sys2Proof.Machine.execNeg core d x q s
  | .cmp core x y q => Sys2Proof.Machine.execCmp core x y q s
  | .mov core d x q => Sys2Proof.Machine.execMov core d x q s
  | .aclr core mask q => Sys2Proof.Machine.execAclr core mask q s
  | .aadd core d x sub q => Sys2Proof.Machine.execAadd core d x sub q s
  | .ash core d x n q => Sys2Proof.Machine.execAsh core d x n q s
  | .arnd core d a sh q => Sys2Proof.Machine.execArnd core d a sh q s
  | .ald core a d q => Sys2Proof.Machine.execAld core a d q s
  | .ld core d p m1 u0 u1 => Sys2Proof.Machine.execLd core d p m1 u0 u1 s
  | .st core d p m1 u0 u1 => Sys2Proof.Machine.execSt core d p m1 u0 u1 s
  | .sta core a sh p m1 u0 u1 => Sys2Proof.Machine.execSta core a sh p m1 u0 u1 s
  | .addressUpdate core n op u1 => Sys2Proof.Machine.execAddressUpdate core n op u1 s
  | .br core cond target => Sys2Proof.Machine.execBr core cond target s
  | .call core cond target => Sys2Proof.Machine.execCall core cond target s
  | .ret core cond => Sys2Proof.Machine.execRet core cond s
  | .reti core => Sys2Proof.Machine.execReti core s
  | .rpt core n => Sys2Proof.Machine.execRpt core n s
  | .loop core stop n => Sys2Proof.Machine.execLoop core stop n s
  | .halt core => Sys2Proof.Machine.execHalt core s
  | .ldi core id v => Sys2Proof.Machine.execLdi core id v s
  | .movc core dst src => Sys2Proof.Machine.execMovc core dst src s
  | .xmov core d p out lines => Sys2Proof.Machine.execXmov core d p out lines s
  | .xwait core => Sys2Proof.Machine.execXwait core s
  | .signal core src => Sys2Proof.Machine.execSignal core src s
  | .clrf core mask => Sys2Proof.Machine.execClrf core mask s
  | .addi core d x v => Sys2Proof.Machine.execAddi core d x v s
  | .addsi core d x v => Sys2Proof.Machine.execAddsi core d x v s
  | .andi core d x v => Sys2Proof.Machine.execAndi core d x v s
  | .ori core d x v => Sys2Proof.Machine.execOri core d x v s
  | .xori core d x v => Sys2Proof.Machine.execXori core d x v s
  | .cmpi core x v => Sys2Proof.Machine.execCmpi core x v s
  | .mini core d x v => Sys2Proof.Machine.execMini core d x v s
  | .maxi core d x v => Sys2Proof.Machine.execMaxi core d x v s
  | .xmovComplete core => Sys2Proof.Machine.execXmovComplete core s
  | .xwaitComplete core => Sys2Proof.Machine.execXwaitComplete core s
  | .irqHandlerEntry core => Sys2Proof.Machine.execIrqHandlerEntry core s
  | .ecMemAccess master addr write data => Sys2Proof.Machine.execEcMemAccess master addr write data s
  | .sqDoorbell sq val => Sys2Proof.Machine.execSqDoorbell sq val s
  | .cqDoorbell cq val => Sys2Proof.Machine.execCqDoorbell cq val s
  | .ringEnable isCq ring val => Sys2Proof.Machine.execRingEnable isCq ring val s
  | .ringDisable isCq ring val => Sys2Proof.Machine.execRingDisable isCq ring val s
  | .netPathEnable val => Sys2Proof.Machine.execNetPathEnable val s
  | .netKeyWrite idx val => Sys2Proof.Machine.execNetKeyWrite idx val s
  | .netCommandDatagram d => Sys2Proof.Machine.execNetCommandDatagram d s
  | .hello d => Sys2Proof.Machine.execHello d s
  | .rweWrite addr val => Sys2Proof.Machine.execRweWrite addr val s
  | .glbRweClr val => Sys2Proof.Machine.execGlbRweClr val s
  | .registerWrite addr be val => Sys2Proof.Machine.execRegisterWrite addr be val s
  | .counterClear addr val => Sys2Proof.Machine.execCounterClear addr val s
  | .latchingRead req addr => Sys2Proof.Machine.execLatchingRead req addr s
  | .irqDoorbell val => Sys2Proof.Machine.execIrqDoorbell val s
  | .irqClaim target => Sys2Proof.Machine.execIrqClaim target s
  | .irqHostVclaim vec => Sys2Proof.Machine.execIrqHostVclaim vec s
  | .irqComplete target val => Sys2Proof.Machine.execIrqComplete target val s
  | .irqFaultClrResume target => Sys2Proof.Machine.execIrqFaultClrResume target s
  | .irqFaultClrDiscard target => Sys2Proof.Machine.execIrqFaultClrDiscard target s
  | .irqSrcCfgWrite src val => Sys2Proof.Machine.execIrqSrcCfgWrite src val s
  | .holdoffEnd group => Sys2Proof.Machine.execHoldoffEnd group s
  | .cisBankOwnWrite bank val => Sys2Proof.Machine.execCisBankOwnWrite bank val s
  | .drainComplete bank => Sys2Proof.Machine.execDrainComplete bank s
  | .drainTimeout bank => Sys2Proof.Machine.execDrainTimeout bank s
  | .busTransaction t => Sys2Proof.Machine.execBusTransaction t s
  | .busGrant port => Sys2Proof.Machine.execBusGrant port s
  | .windowAccess off write data collide => Sys2Proof.Machine.execWindowAccess off write data collide s
  | .scrubWriteback bank => Sys2Proof.Machine.execScrubWriteback bank s
  | .frameReceive port frame fcsOk => Sys2Proof.Machine.execFrameReceive port frame fcsOk s
  | .pfcFrame port frame => Sys2Proof.Machine.execPfcFrame port frame s
  | .pfcPauseEnd port cls => Sys2Proof.Machine.execPfcPauseEnd port cls s
  | .pfcRepeat port cls => Sys2Proof.Machine.execPfcRepeat port cls s
  | .frameTransmit port => Sys2Proof.Machine.execFrameTransmit port s
  | .linkChange port up => Sys2Proof.Machine.execLinkChange port up s
  | .streamPacket port d => Sys2Proof.Machine.execStreamPacket port d s
  | .syncReceive m => Sys2Proof.Machine.execSyncReceive m s
  | .followUpReceive m => Sys2Proof.Machine.execFollowUpReceive m s
  | .delayReqReceive m => Sys2Proof.Machine.execDelayReqReceive m s
  | .delayRespReceive m => Sys2Proof.Machine.execDelayRespReceive m s
  | .announceReceive m => Sys2Proof.Machine.execAnnounceReceive m s
  | .syncTransmit port => Sys2Proof.Machine.execSyncTransmit port s
  | .announceTransmit port => Sys2Proof.Machine.execAnnounceTransmit port s
  | .announceTimeout port => Sys2Proof.Machine.execAnnounceTimeout port s
  | .ppsInEdge t4 falling => Sys2Proof.Machine.execPpsInEdge t4 falling s
  | .ref10mGate ppbQ8 => Sys2Proof.Machine.execRef10mGate ppbQ8 s
  | .wclkInEdge t4 => Sys2Proof.Machine.execWclkInEdge t4 s
  | .timIncrWrite val => Sys2Proof.Machine.execTimIncrWrite val s
  | .timNowRead req => Sys2Proof.Machine.execTimNowRead req s
  | .trigFire pin => Sys2Proof.Machine.execTrigFire pin s
  | .trigPulseEnd pin => Sys2Proof.Machine.execTrigPulseEnd pin s
  | .trigInputEdge pin t4 falling => Sys2Proof.Machine.execTrigInputEdge pin t4 falling s
  | .timCapRead req pin => Sys2Proof.Machine.execTimCapRead req pin s
  | .snpTrig val => Sys2Proof.Machine.execSnpTrig val s
  | .snpTimeArm val => Sys2Proof.Machine.execSnpTimeArm val s
  | .snpRelease val => Sys2Proof.Machine.execSnpRelease val s
  | .meaCfFreeze val => Sys2Proof.Machine.execMeaCfFreeze val s
  | .meaLoudReset val => Sys2Proof.Machine.execMeaLoudReset val s
  | .lrclkEdge port samples => Sys2Proof.Machine.execLrclkEdge port samples s
  | .sapLost port => Sys2Proof.Machine.execSapLost port s
  | .sapRateWindow port => Sys2Proof.Machine.execSapRateWindow port s
  | .admStage frame => Sys2Proof.Machine.execAdmStage frame s
  | .phaseMessage m => Sys2Proof.Machine.execPhaseMessage m s
  | .presenceReport m => Sys2Proof.Machine.execPresenceReport m s
  | .fillPayload m => Sys2Proof.Machine.execFillPayload m s
  | .stagedCommand m => Sys2Proof.Machine.execStagedCommand m s
  | .admitMsg m => Sys2Proof.Machine.execAdmitMsg m s
  | .verdict m => Sys2Proof.Machine.execVerdict m s
  | .commit m => Sys2Proof.Machine.execCommit m s
  | .snapshotTriggerMessage m => Sys2Proof.Machine.execSnapshotTriggerMessage m s
  | .doorbellMessage m => Sys2Proof.Machine.execDoorbellMessage m s
  | .digest m => Sys2Proof.Machine.execDigest m s
  | .downNotice m => Sys2Proof.Machine.execDownNotice m s
  | .journalMessage m => Sys2Proof.Machine.execJournalMessage m s
  | .primeMessage m => Sys2Proof.Machine.execPrimeMessage m s
  | .bulkMessage m => Sys2Proof.Machine.execBulkMessage m s
  | .discovery m => Sys2Proof.Machine.execDiscovery m s
  | .discoveryAnswer m => Sys2Proof.Machine.execDiscoveryAnswer m s
  | .resendRequest m => Sys2Proof.Machine.execResendRequest m s
  | .laneLockLoss link => Sys2Proof.Machine.execLaneLockLoss link s
  | .linkTrained link => Sys2Proof.Machine.execLinkTrained link s
  | .thermalSample tj tstage tocxo => Sys2Proof.Machine.execThermalSample tj tstage tocxo s
  | .bootStageEnd r => Sys2Proof.Machine.execBootStageEnd r s
  | .driverFault pin isOpen => Sys2Proof.Machine.execDriverFault pin isOpen s
  | .driverRetry pin good => Sys2Proof.Machine.execDriverRetry pin good s
  | .micStuck mic => Sys2Proof.Machine.execMicStuck mic s
  | .micOpenProbe mic isOpen => Sys2Proof.Machine.execMicOpenProbe mic isOpen s
  | .smbusBlockRead cmd => Sys2Proof.Machine.execSmbusBlockRead cmd s
  | .svcClose val => Sys2Proof.Machine.execSvcClose val s
  | .illegalInstruction core => Sys2Proof.Machine.execIllegalInstruction core s
  | .micStuckClear mic => Sys2Proof.Machine.execMicStuckClear mic s
  | .firmwareQueueDrain port cls n => Sys2Proof.Machine.execFirmwareQueueDrain port cls n s
  | .pciePowerState d0 l0 => Sys2Proof.Machine.execPciePowerState d0 l0 s
  | .admissionPass => Sys2Proof.Machine.execAdmissionPass s
  | .fwTxnCommit => Sys2Proof.Machine.execFwTxnCommit s
  | .egressBlockComplete => Sys2Proof.Machine.execEgressBlockComplete s
  | .fineFloatUpdate => Sys2Proof.Machine.execFineFloatUpdate s
  | .subsetPublish => Sys2Proof.Machine.execSubsetPublish s
  | .exportComplete => Sys2Proof.Machine.execExportComplete s
  | .marginWindowEnd => Sys2Proof.Machine.execMarginWindowEnd s
  | .bankClearDone => Sys2Proof.Machine.execBankClearDone s
  | .deferredReset => Sys2Proof.Machine.execDeferredReset s
  | .pcieLinkDown => Sys2Proof.Machine.execPcieLinkDown s
  | .hostFallback => Sys2Proof.Machine.execHostFallback s
  | .pcieLinkUp => Sys2Proof.Machine.execPcieLinkUp s
  | .delayReqTransmit => Sys2Proof.Machine.execDelayReqTransmit s
  | .syncTimeout => Sys2Proof.Machine.execSyncTimeout s
  | .ppsWindowMiss => Sys2Proof.Machine.execPpsWindowMiss s
  | .ref10mLost => Sys2Proof.Machine.execRef10mLost s
  | .wclkLost => Sys2Proof.Machine.execWclkLost s
  | .holdStore => Sys2Proof.Machine.execHoldStore s
  | .verdictTimeout => Sys2Proof.Machine.execVerdictTimeout s
  | .commitMissing => Sys2Proof.Machine.execCommitMissing s
  | .digestTimeout => Sys2Proof.Machine.execDigestTimeout s
  | .pairLinksDown => Sys2Proof.Machine.execPairLinksDown s
  | .primeComplete => Sys2Proof.Machine.execPrimeComplete s
  | .verifyStall => Sys2Proof.Machine.execVerifyStall s
  | .supplyWarning => Sys2Proof.Machine.execSupplyWarning s
  | .journalSealed => Sys2Proof.Machine.execJournalSealed s
  | .warningClear => Sys2Proof.Machine.execWarningClear s
  | .brownOutReset => Sys2Proof.Machine.execBrownOutReset s
  | .restart => Sys2Proof.Machine.execRestart s
  | .ovClamp => Sys2Proof.Machine.execOvClamp s
  | .ovTrip => Sys2Proof.Machine.execOvTrip s
  | .inputReclose => Sys2Proof.Machine.execInputReclose s
  | .thermalPowerDown => Sys2Proof.Machine.execThermalPowerDown s
  | .thermalRestart => Sys2Proof.Machine.execThermalRestart s
  | .resetN => Sys2Proof.Machine.execResetN s
  | .ocxoWarm => Sys2Proof.Machine.execOcxoWarm s
  | .checkpointComplete => Sys2Proof.Machine.execCheckpointComplete s
  | .challengeExpiry => Sys2Proof.Machine.execChallengeExpiry s
  | .sessionExpiry => Sys2Proof.Machine.execSessionExpiry s
  | .backoffEnd => Sys2Proof.Machine.execBackoffEnd s
  | .completionPosted => Sys2Proof.Machine.execCompletionPosted s
  | .ovClampEnd => Sys2Proof.Machine.execOvClampEnd s
  | .allowanceRefill => Sys2Proof.Machine.execAllowanceRefill s
  | .retentionLoss => Sys2Proof.Machine.execRetentionLoss s
  | .resetNRelease => Sys2Proof.Machine.execResetNRelease s

end Sys2Proof.Machine
end

