-- ==== Sys2Proof/Machine/Idle.lean ====
section
/-! DEFINITION. A core cycle with no command waiting (R18, R199): the effect cores that run a program put the instruction at their PC
into the queue, and the pins are brought up to date. -/

namespace Sys2Proof.Machine

/-- The core issues by itself: it runs a tick program or a handler, and no XWAIT holds it. -/
def ecIssues (e : EcCore) : Bool := (e.mode == .running || e.mode == .handler) && !e.waiting

/-- Instructions that the cores are about to issue, by core. -/
def ecReady (s : State) : List Instr :=
  (s.ecs.filter fun x => decide (x.1 < 16) && ecIssues x.2).map fun x => ecDecode x.1 x.2.settle.fetch

/-- One cycle; the effect cores stand while the die is in reset. -/
def idleCycle (s : State) : State :=
  let s := { s with clk := s.clk + 1 }
  settle (if s.dieRuns then { s with pending := s.pending ++ ecReady s } else s)

end Sys2Proof.Machine
end

