-- ==== Sys2Proof/Safety.lean ====
section
/-! DEFINITION. What counts as a safe run: no step stops, and what the module reports on its pins and in its memories holds together. -/

namespace Sys2Proof

open Sys2Proof.Machine

/-- The management pins show what the state says (R322, R494). -/
def PinsTrue (s : State) : Prop := s.pins = pinsOf s

/-- The cistern's bytes are in their canonical form. -/
def MemWf (s : State) : Prop := memWf s.cis.mem = true

/-- The next state of a step, when it has one. -/
def nextOf : Host.Outcome State Fault Refusal → Option State
  | .next s => some s
  | _ => none

/-- States after `n` steps, while the steps go on. -/
def runFor : Nat → State → Option State
  | 0, s => some s
  | n + 1, s =>
    match nextOf (step s) with
    | some t => runFor n t
    | none => none

/-- A safe run of `n` steps: none stops, and the pins are true at its end. -/
def SafeRun (n : Nat) (s : State) : Prop := ∃ t, runFor n s = some t ∧ (n = 0 ∨ PinsTrue t)

end Sys2Proof
end

