-- ==== Sys2Proof/Claims.lean ====
section
/-! DEFINITION. Words the claims use: what the interrupt controller may do by itself after a command, and when a command finds
what it needs. -/

namespace Sys2Proof.Claims

open Sys2Proof.Machine

/-- Registers that the interrupt controller writes by itself after a command: pending bits, the fallback log, its position and
counter (R329), and the pending bits of the MSI-X structure (R522). -/
def ctlReg (a : Nat) : Prop :=
  (R.irqPend ≤ a ∧ a < R.irqPend + 0x40) ∨ (R.irqFbLog ≤ a ∧ a < R.irqFbLog + 0x200) ∨ a = R.irqFbPos ∨ a = R.irqCntFb ∨
    a = R.glbMsixPba

/-- `t` is `u` after the interrupt controller and the management pins have followed: releases, hold-offs, messages to the host and
the fallback log may differ, and the pins show what the state says; everything else is as in `u`. -/
structure Settled (u t : State) : Prop where
  pending : t.pending = u.pending
  clk : t.clk = u.clk
  tick : t.tick = u.tick
  tickClk : t.tickClk = u.tickClk
  freeCtr : t.freeCtr = u.freeCtr
  latch : t.latch = u.latch
  modId : t.modId = u.modId
  cm : t.cm = u.cm
  hist : t.hist = u.hist
  cmd : t.cmd = u.cmd
  jnl : t.jnl = u.jnl
  snp : t.snp = u.snp
  pwr : t.pwr = u.pwr
  svc : t.svc = u.svc
  ecs : t.ecs = u.ecs
  ecIo : t.ecIo = u.ecIo
  tim : t.tim = u.tim
  geo : t.geo = u.geo
  smp : t.smp = u.smp
  cors : t.cors = u.cors
  cis : t.cis = u.cis
  str : t.str = u.str
  sap : t.sap = u.sap
  nyl : t.nyl = u.nyl
  mir : t.mir = u.mir
  mea : t.mea = u.mea
  /-- registers the controller does not write -/
  reg : ∀ a, ¬ ctlReg a → t.reg a = u.reg a
  /-- while no redirection is in force it writes MSI-X pending bits alone -/
  regQuiet : u.fallbackAct = false → ∀ a, a ≠ R.glbMsixPba → t.reg a = u.reg a
  inServ : t.irq.inServ = u.irq.inServ
  frozen : t.irq.frozen = u.irq.frozen
  downAt : t.irq.downAt = u.irq.downAt
  d0 : t.irq.d0 = u.irq.d0
  l0 : t.irq.l0 = u.irq.l0
  /-- what left the device beyond the command's own output is messages to the host -/
  out : ∃ l, t.outbox = l ++ u.outbox ∧ ∀ o ∈ l, ∃ addr data, o = .msix addr data
  pins : PinsTrue t

/-- `i` completes from `s`, and leaves `u` but for what the controller and the pins do by themselves. -/
def Gives (i : Instr) (s u : State) : Prop := ∃ t, exec i s = .next t ∧ Settled u t

/-- `i` completes from `s`, in a state with `P`. -/
def Leaves (i : Instr) (s : State) (P : State → Prop) : Prop := ∃ t, exec i s = .next t ∧ P t

/-! ### Interrupts (R314 to R329) -/

/-- `x` is the target's candidate among sources with `f` (R320, R323): deliverable, the highest priority, the lowest number of
equals; the host never claims source 40 (R327). -/
def Candidate (s : State) (tgt : Nat) (f : Nat → Bool) (x : Nat) : Prop :=
  let ok := fun y => y < 512 ∧ deliverable s tgt y = true ∧ f y = true ∧ ¬ (y = 40 ∧ tgt = 0)
  ok x ∧ ∀ y, ok y → irqPrio s y < irqPrio s x ∨ (irqPrio s y = irqPrio s x ∧ x ≤ y)

/-- The target has no candidate. -/
def NoCandidate (s : State) (tgt : Nat) (f : Nat → Bool) : Prop :=
  ∀ y, y < 512 → f y = true → ¬ (y = 40 ∧ tgt = 0) → deliverable s tgt y = false

/-- Released and pending sources as R318 has them at the end of a cycle. -/
def ReleasesTrue (s : State) : Prop :=
  ∀ x, x < 512 →
    (s.irq.rel.contains x = true → s.isPend x = true) ∧
    (s.isPend x = true → s.irq.rel.contains x = true ∨ (tabGet s.irq.hold (x / 32)).isSome = true)

/-- Source `x` after a claim (R323): no longer pending or released, and on the target's stack. -/
def claimed (s : State) (tgt x : Nat) : State :=
  let s' := s.setPend x false
  { s' with irq := { s'.irq with
    rel := s'.irq.rel.filter (· != x)
    inServ := tabSet s'.irq.inServ tgt ((x, irqPrio s x) :: irqStack s tgt) } }

/-- A message to a group-15 or locked source (R315, R316). -/
def msgErr (s : State) : State := (s.inc R.irqCntMsgErr).evt R.irqEvtStatus 2

/-! ### Packets (R246, R249, R254) -/

/-- Network source of a packet. -/
def pktNet (h : Hdr) (s : State) : Option (Nat × Nat × Nat) := if h.net then some (netPeer s) else none

/-- Entries a packet reserves in its CQ (R249). -/
def pktNeed (op : Nat) (h : Hdr) (p : List Byte) : Nat := reserves (isEpochOp op) op (h.txn % 2 ^ 32) p

/-- CQ of a packet's ring. -/
def pktCq (h : Hdr) (s : State) : Nat := boundCq s (h.sq % 32)

/-- FENCE holds the packet: something of its ring is outstanding (R246). -/
def pktFenced (h : Hdr) (s : State) : Bool := h.fence && s.cmd.fetched.any fun g => g.reply.sq == h.sq % 32 && !g.dead

/-- The CQ has room for the packet's completions (R249). -/
def pktCredit (op : Nat) (h : Hdr) (p : List Byte) (s : State) : Bool :=
  !ringEn s true (pktCq h s) || decide (pktNeed op h p ≤ cqFree s (pktCq h s))

/-- The packet is taken from its ring: the die runs, and neither FENCE nor want of credit holds it. -/
def pktTaken (op : Nat) (h : Hdr) (p : List Byte) (s : State) : Bool := s.dieRuns && !pktFenced h s && pktCredit op h p s

/-- It passes the checks before its opcode's own (R254), and is executed by this module (R449). -/
def pktHere (op : Nat) (h : Hdr) (p : List Byte) (s : State) : Bool :=
  decide (p.length ≤ 4080) && !pathFault s (normHdr h) && !(h.net && netDenied op) &&
    (isEpochOp op || op / 256 == 2 || (pathMember h.depth h.path).isNone)

/-- The module as the opcode finds it: the packet is counted, and its completions are reserved. -/
def atFetch (op : Nat) (h : Hdr) (p : List Byte) (s : State) : State :=
  let cq := pktCq h s
  let s' := if ringEn s true cq then s.setCq cq { cqSt s cq with resv := (cqSt s cq).resv + pktNeed op h p } else s
  { s' with cmd := { s'.cmd with fetchNum := s'.cmd.fetchNum + 1 } }

/-- The packet with its first completion, as it waits to be posted (R250). -/
def entryOf (op : Nat) (h : Hdr) (p : List Byte) (s : State) (r : Res) : Fetched :=
  { num := s.cmd.fetchNum
    reply :=
      { cq := pktCq h s
        sq := h.sq % 32
        tag := h.tag % 65536
        op := op
        txn := h.txn % 2 ^ 32
        net := pktNet h s }
    resv := if ringEn s true (pktCq h s) then pktNeed op h p else 0
    due := s.clk + usClk (s.field R.cmdTimeout 19 0)
    cpl := if r.later then none else some (resCpl r)
    accepts := r.accepts
    rbuf := r.rbuf }

/-- `v` with the packet waiting for its completion to be posted. -/
def answered (op : Nat) (h : Hdr) (p : List Byte) (s : State) (r : Res) (v : State) : State :=
  { v with cmd := { v.cmd with fetched := v.cmd.fetched ++ [entryOf op h p s r] } }

/-- Commands that carry a packet, with its opcode. -/
def packetRows : List (Nat × (Hdr → List Byte → Instr)) := [
  (0x0101, .opNop), (0x0102, .opSysInfo), (0x0103, .opSysRate), (0x0104, .opRampSet),
  (0x0105, .opRecoverRelease), (0x0106, .opRegWrite), (0x0107, .opRegRead), (0x0108, .opSysReset),
  (0x0201, .opTxnOpen), (0x0202, .opTxnCommit), (0x0202, .opTxnCommitAt), (0x0202, .opTxnCommitCheck),
  (0x0203, .opTxnAbort), (0x0204, .opTxnStatus), (0x0301, .opObjSet), (0x0302, .opObjKeys),
  (0x0303, .opObjKeysClear), (0x0304, .opWellSize), (0x0305, .opObjState), (0x0306, .opDistTable),
  (0x0401, .opSpkSet), (0x0402, .opLayoutSet), (0x0403, .opArraySet), (0x0404, .opLayoutRead),
  (0x0501, .opDinSet), (0x0502, .opXpSet), (0x0503, .opOutSet), (0x0504, .opSpSet),
  (0x0505, .opRouteRead), (0x0601, .opCorCfg), (0x0602, .opCorLoad), (0x0603, .opCorSwap),
  (0x0604, .opCorStatus), (0x0701, .opMeaMetrics), (0x0702, .opMeaRefCapture), (0x0703, .opMeaExport),
  (0x0801, .opEcLoad), (0x0802, .opEcAttach), (0x0802, .opEcDetach), (0x0803, .opEcParam),
  (0x0804, .opEcStart), (0x0805, .opEcStop), (0x0806, .opEcRead), (0x0901, .opStrRxSet),
  (0x0902, .opStrTxSet), (0x0903, .opStrDelete), (0x0904, .opStrMask), (0x0905, .opNetPortSet),
  (0x0906, .opStrStatus), (0x0A01, .opTimPtpSet), (0x0A02, .opTimPathAccept), (0x0A03, .opTimTrigSet),
  (0x0A04, .opTimRefSet), (0x0A05, .opTimStatus), (0x0B01, .opSapSet), (0x0B02, .opAdmSet),
  (0x0B03, .opSapStatus), (0x0C01, .opGangForm), (0x0C02, .opGangLeave), (0x0C03, .opMirForm),
  (0x0C04, .opMirRole), (0x0C05, .opGangStatus), (0x0D01, .opSnpTrigger), (0x0D02, .opSnpRead),
  (0x0D03, .opJnlRead), (0x0E01, .opPwrSet), (0x0E02, .opPwrStatus), (0x0E10, .opSvcChallenge),
  (0x0E11, .opSvcResponse), (0x0E12, .opSvcOwner), (0x0E13, .opFwWrite), (0x0E14, .opFwActivate)]

/-- Epoch commands (R257), with opcode and payload check. -/
def epochRows : List (Nat × (Hdr → List Byte → Instr) × (State → List Packet → List Byte → Nat)) := [
  (0x0104, .opRampSet, chkRamp), (0x0105, .opRecoverRelease, chkNone), (0x0106, .opRegWrite, chkRegWrite),
  (0x0301, .opObjSet, chkObjSet), (0x0302, .opObjKeys, chkObjKeys), (0x0303, .opObjKeysClear, chkIds),
  (0x0304, .opWellSize, chkWellSize), (0x0306, .opDistTable, chkDist), (0x0401, .opSpkSet, chkSpk),
  (0x0402, .opLayoutSet, chkLayout), (0x0403, .opArraySet, chkArray), (0x0501, .opDinSet, chkDin),
  (0x0502, .opXpSet, chkXp), (0x0503, .opOutSet, chkOut), (0x0504, .opSpSet, chkSp),
  (0x0601, .opCorCfg, chkCorCfg), (0x0602, .opCorLoad, chkCorLoad), (0x0603, .opCorSwap, chkCorSwap),
  (0x0801, .opEcLoad, chkEcLoad), (0x0802, .opEcAttach, chkEcAttach), (0x0802, .opEcDetach, chkEcAttach),
  (0x0803, .opEcParam, chkEcParam), (0x0804, .opEcStart, chkEcMask), (0x0805, .opEcStop, chkEcMask),
  (0x0901, .opStrRxSet, chkRx), (0x0902, .opStrTxSet, chkTx), (0x0903, .opStrDelete, chkStrDelete),
  (0x0904, .opStrMask, chkStrMask), (0x0905, .opNetPortSet, chkNetPort), (0x0A01, .opTimPtpSet, chkPtp),
  (0x0A02, .opTimPathAccept, chkPathAccept), (0x0A03, .opTimTrigSet, chkTrig), (0x0A04, .opTimRefSet, chkRef),
  (0x0B01, .opSapSet, chkSap), (0x0B02, .opAdmSet, chkAdm), (0x0C01, .opGangForm, chkGangForm),
  (0x0C02, .opGangLeave, chkGangLeave), (0x0C03, .opMirForm, chkMirForm), (0x0C04, .opMirRole, chkMirRole)]

/-! ### Cistern and bus matrix (R286 to R304) -/

/-- Bytes `l` stand from `off` on, and every other byte is as it was. -/
def Wrote (s t : State) (off : Nat) (l : List Byte) : Prop :=
  ∀ a, memGet t.cis.mem a = if off ≤ a ∧ a < off + l.length then l.getD (a - off) 0 else memGet s.cis.mem a

/-- An access lies in one bank of the cistern. -/
def inOneBank (off n : Nat) : Bool := decide (0 < n) && decide (off + n ≤ 0x8000000) && decide (off % 0x80000 + n ≤ 0x80000)

/-- The owner with code `c` reaches the bank now: it owns it, no handover is under way, and no clearing. -/
def reaches (s : State) (c bank : Nat) : Bool :=
  bankOwner s bank == c && !bankPending s bank && !s.cis.clearing.contains bank

/-- A window flag (R293). -/
def winNoted (s : State) (b : Nat) : State := s.setBit R.cisWinStatus b true

/-- A transaction that is presented at a port of the bus matrix and waits for its grant. -/
def presented (n : Nat) (t : BusTxn) (port clk : Nat) : BusWait :=
  { num := n
    t := t
    aliased := false
    port := port
    stage := 2
    since := clk }

/-- `s` with no transaction left in the bus matrix, `m` the master that port `port` granted last. -/
def granted (s : State) (port m : Nat) : State :=
  { s with cis := { s.cis with bus := [], lastGrant := tabSet s.cis.lastGrant port m } }

/-! ### Power (R478 to R494) -/

/-- The die as a reset leaves it (R486): everything starts anew with cause `c` in the mode `m`, and the power stage, the journal, the
flash, the lock and the module's identity are as they were. -/
structure FreshDie (c : Nat) (m : BootReset) (s t : State) : Prop where
  mode : t.pwr.reset = m
  cause : t.pwr.cause = c
  causeReg : t.reg R.pwrResetCause = wd c
  clk : t.clk = s.clk
  tick : t.tick = 0
  committed : t.cm = {}
  hist : t.hist = []
  commands : t.cmd = {}
  cores : t.ecs = []
  correction : t.cors = []
  memory : t.cis = {}
  streams : t.str = {}
  journal : s.rate96 = s.jnl.store.rate96 → t.jnl = { s.jnl with bg := none }
  flash : t.svc.flash = s.svc.flash
  key : t.svc.key = s.svc.key
  identity : t.modId = s.modId
  waiting : t.pending = s.pending

/-- The warning's own registers (R481): WARN set, SEALED clear, PWR_CNT_WARN, EVT_PWR_WARN. -/
def warnMarked (s : State) : State :=
  (((s.setBit R.pwrStatus 3 true).setBit R.pwrStatus 5 false).inc R.pwrCntWarn).evt R.pwrEvtStatus 0

/-- An output driver switched off (R492): the cause and the state are shown, and a retry is due after 100 ms. -/
def driverOff (pin base : Nat) (s : State) : State :=
  let s' := (s.setBit (base + 4 * (pin / 32)) (pin % 32) true).setBit (R.pwrDrvOff + 4 * (pin / 32)) (pin % 32) true
  { s' with pwr := { s'.pwr with drv := tabSet s'.pwr.drv pin (s.clk + 125000000) } }.evt R.pwrEvtStatus 6

/-- The packet is taken, passes the checks before its opcode's own, and is executed by this module. -/
def pktRuns (op : Nat) (h : Hdr) (p : List Byte) (s : State) : Bool := pktTaken op h p s && pktHere op h p s

/-- `i`, the command of a packet that runs, leaves `v` with result `r` waiting to be posted. -/
def Answers (i : Instr) (op : Nat) (h : Hdr) (p : List Byte) (s : State) (r : Res) (v : State) : Prop :=
  Gives i s (answered op h p s r v)

/-- A register read with no effect of its own. -/
def plainRead (a : Nat) : Bool :=
  (claimTarget a).isNone && (claimVec a).isNone && a != R.timNowLo && capPart a == 0 && !isCompanion a && !latching a

/-- The packet as a transaction stages it. -/
def asStaged (op : Nat) (h : Hdr) (p : List Byte) : Packet :=
  { op := op
    payload := p
    depth := h.depth
    path := h.path }

/-- A follower keeps its leader's state: of the epoch commands it takes what concerns it alone (R449, R454). -/
def mayStage (op : Nat) (h : Hdr) (p : List Byte) (s : State) : Bool :=
  (!isFollower s || followerMay s op p) && !sceneDepthBad op h p

/-! ### Effect cores (R204 to R226) -/

/-- The core as its next instruction reads it: the writes that the cycle sees are in (R217). -/
def ecAt (core : Nat) (s : State) : EcCore := (s.ec core).settle

/-- The core runs a program or a handler, and no XWAIT holds it. -/
def ecUp (core : Nat) (s : State) : Bool := decide (core < 16) && (s.ec core).active && !(s.ec core).waiting

/-- `k` more issue cycles fit the declared budget (R231); a handler has its own quota. -/
def ecFits (core k : Nat) (s : State) : Bool :=
  (s.ec core).mode != .running || decide ((s.ec core).issue + k ≤ (ecEnvOf s core).decl)

/-- A P instruction can issue: budget, and its moves address data memory (R202). -/
def pReady (core : Nat) (q : Par) (s : State) : Bool :=
  ecUp core s && ecFits core (parCost q (ecAt core s)) s && !parBadAddr q (ecAt core s)

/-- An X instruction can issue. -/
def xReady (core : Nat) (s : State) : Bool := ecUp core s && ecFits core 1 s

/-- A C instruction other than a branch can issue: it is not repeated (R220). -/
def cReady (core k : Nat) (s : State) : Bool := ecUp core s && ecFits core k s && (s.ec core).rep.isNone

/-- An instruction that changes the flow can issue: it is also not in a delay slot (R219). -/
def flowReady (core k : Nat) (s : State) : Bool := cReady core k s && (s.ec core).slots.isNone

/-- `s` with core `core` holding `e`: what an instruction that asks nothing of the block leaves. -/
def coreNow (core : Nat) (e : EcCore) (s : State) : State := { s.setEc core e with freeCtr := s.freeCtr + 1 }

/-- A move of `q` stores at word address `a`. -/
def storesAt (q : Par) (c : EcCore) (a : Nat) : Bool :=
  [q.m0, q.m1].any fun m => match m with
    | .st _ p => c.pr p == a
    | .sta _ _ p => c.pr p == a
    | _ => false

/-- An update of `q` names pointer `j`. -/
def updates (q : Par) (j : Nat) : Bool :=
  [q.u0, q.u1].any fun u => match u with
    | .upd n _ => n == j
    | .none => false

/-- What a P instruction leaves alone whatever its slot A: memory but for its stores, pointers but for its updates, steps, wraps,
program, decision register unless slot A writes it, and everything an exception or a transfer uses. -/
structure PKeeps (q : Par) (c e : EcCore) : Prop where
  mem : ∀ a, storesAt q c a = false → e.word a = c.word a
  ptr : ∀ j, updates q j = false → e.pr j = c.pr j
  g : e.g = c.g
  w : e.w = c.w
  stack : e.stack = c.stack
  prog : e.prog = c.prog
  mode : e.mode = c.mode
  cause : e.cause = c.cause
  save : e.save = c.save
  queue : e.queue = c.queue
  params : e.params = c.params
  waiting : e.waiting = c.waiting
  /-- the sticky bits are not cleared (R215) -/
  sat : c.sat = true → e.sat = true
  gov : c.gov = true → e.gov = true
  /-- cycles: the issue, and one more when both moves address one bank (R218) -/
  cyc : e.cyc = c.cyc + parCost q c
  issue : c.mode = .running → e.issue = c.issue + parCost q c

/-- No accumulator is written. -/
def accKept (c e : EcCore) : Prop := e.a = c.a ∧ e.gov = c.gov

/-- No data register but `d` is written at once. -/
def dataKept (d : Nat) (c e : EcCore) : Prop := ∀ j, j ≠ d → e.dr j = c.dr j

/-- No data register and no condition flag is written at once. -/
def dataStays (c e : EcCore) : Prop := e.d = c.d ∧ e.z = c.z ∧ e.n = c.n ∧ e.v = c.v ∧ e.c = c.c ∧ e.dec = c.dec

/-- Z and N of a result (R215). -/
def zn (e : EcCore) (r : Word) : Prop := e.z = decide (r = 0) ∧ e.n = r.msb

/-- A result for an accumulator (R212): 72 bits, clamped or wrapped. -/
def accRes (clamp : Bool) (v : Int) : Int := if clamp then satS 72 v else signedOf 72 (bitsOf 72 v)

/-- The environment's ACC_CLAMP. -/
def clampOf (core : Nat) (s : State) : Bool := (ecEnvOf s core).clamp

/-- Slot-A instructions that write one data register from two and clear C and V. -/
def logicRows : List ((Nat → Nat → Nat → Nat → Par → Instr) × (Word → Word → Word)) := [
  (.and, fun x y => x &&& y), (.or, fun x y => x ||| y), (.xor, fun x y => x ^^^ y), (.min, ecMin), (.max, ecMax)]

/-- Their immediate counterparts (R210). -/
def logicImmRows : List ((Nat → Nat → Nat → Word → Instr) × (Word → Word → Word)) := [
  (.andi, fun x y => x &&& y), (.ori, fun x y => x ||| y), (.xori, fun x y => x ^^^ y), (.mini, ecMin), (.maxi, ecMax)]

/-- Slot-A instructions that write one data register, saturating (R215): of two operands, and of one. -/
def satRows : List ((Nat → Nat → Nat → Nat → Par → Instr) × (Int → Int → Int)) := [
  (.adds, fun x y => x + y), (.subs, fun x y => x - y)]

def satRows1 : List ((Nat → Nat → Nat → Par → Instr) × (Int → Int)) := [
  (.abs, fun x => if x < 0 then -x else x), (.neg, fun x => -x)]

/-- A saturating result and its flags (R215). -/
def satWrites (d : Nat) (i : Int) (c e : EcCore) : Prop :=
  e.dr d = wdI (sat32 i) ∧ zn e (wdI (sat32 i)) ∧ e.v = decide (sat32 i ≠ i) ∧ e.c = c.c ∧ (sat32 i ≠ i → e.sat = true)

/-- A value or its negative. -/
def signed (neg : Bool) (v : Int) : Int := if neg then -v else v

/-- R216: candidate `cb` beats `ca`, as the signed difference says. -/
def beats (min : Bool) (cb ca : Word) : Bool :=
  if min then decide ((cb - ca).toInt < 0) else decide (0 < (cb - ca).toInt)

/-- Step of an address update (R208). -/
def stepOf (c : EcCore) (n op : Nat) : Int :=
  if op = 0 then 1 else if op = 1 then -1 else if op = 2 then c.gr n else -(c.gr n)

/-- R223: a pointer moved by a step round the ring of a wrap word: length in the upper half, limited to the 32,768 words of memory,
base in the lower. -/
def ringStep (p : Nat) (step : Int) (w : Word) : Nat :=
  let len : Int := min (w.toNat / 65536) 32768
  let base : Int := w.toNat % 65536
  let t : Int := p + step
  ((if len = 0 then t else if base + len ≤ t then t - len else if t < base then t + len else t) % 65536).toNat

/-- `e` with `k` more cycles of core `c` counted: issue cycles of the tick program, or a handler's against its quota (R218, R226). -/
def spent (k : Nat) (c e : EcCore) : EcCore :=
  if c.mode = .running then { e with cyc := e.cyc + k, issue := e.issue + k } else { e with cyc := e.cyc + k, quota := e.quota + k }

/-- A branch issued: two delay slots follow, then its target, or the instruction after them (R217). -/
def branched (taken : Bool) (target : Nat) (c : EcCore) : EcCore :=
  { c with
    slots := some (if taken then target else (c.pc + 3) % 8192, 2)
    pc := (c.pc + 1) % 8192 }

/-- `e` is `c` gone on to its next instruction (R217, R220, R221): the target after the second delay slot, the start of a loop whose
body ends and has iterations left, else the next one; a loop with none left closes. -/
structure GoesOn (c e : EcCore) : Prop where
  slot : ∀ t n, c.slots = some (t, n) → 1 < n → e.slots = some (t, n - 1) ∧ e.pc = (c.pc + 1) % 8192
  target : ∀ t, c.slots = some (t, 1) → e.slots = none ∧ e.pc = t
  plain : c.slots = none → c.loops = [] → e.slots = none ∧ e.pc = (c.pc + 1) % 8192 ∧ e.loops = []
  inside : ∀ l r, c.slots = none → c.loops = l :: r → c.pc ≠ l.stop →
    e.slots = none ∧ e.pc = (c.pc + 1) % 8192 ∧ e.loops = c.loops
  again : ∀ l r, c.slots = none → c.loops = l :: r → c.pc = l.stop → 1 < l.count →
    e.slots = none ∧ e.pc = l.start ∧ e.loops = { l with count := l.count - 1 } :: r
  closes : ∀ l, c.slots = none → c.loops = [l] → c.pc = l.stop → l.count ≤ 1 →
    e.slots = none ∧ e.pc = (c.pc + 1) % 8192 ∧ e.loops = []

/-- What an instruction of the C format leaves alone when it only goes on: all but the place in the program and the cycle counts. -/
def onlyFlow (c e : EcCore) : Prop :=
  e = { c with
    pc := e.pc
    slots := e.slots
    loops := e.loops
    cyc := e.cyc
    issue := e.issue
    quota := e.quota }

/-- Core `core` has stopped (R231 to R234): state and cause, ECX_FAULT_PC, the event, and every register as it stood. -/
structure CoreStopped (core evt : Nat) (m : EcMode) (why place : Nat) (s t : State) : Prop where
  mode : (t.ec core).mode = m
  cause : (t.ec core).cause = why
  pc : (t.ec core).pc = place
  faultPc : t.reg (ecReg core 0x2C) = wd place
  event : t.bit (ecReg core 0x4C) evt = true
  regs : (t.ec core).d = (ecAt core s).d ∧ (t.ec core).a = (ecAt core s).a ∧ (t.ec core).p = (ecAt core s).p
  others : ∀ k, k ≠ core → (t.ec k).mode = (s.ec k).mode ∧ (t.ec k).pc = (s.ec k).pc ∧ (t.ec k).d = (s.ec k).d
  tick : t.tick = s.tick
  committed : t.cm = s.cm

/-! ### Links (R440 to R443) -/

/-- A message of `kind` is taken: its link is UP, its CRC holds, and on a resent class it is the next one (R442). -/
def taken (kind : Nat) (m : LinkMsg) (s : State) : Bool :=
  m.kind == kind && linkUp s m.link && m.crcOk &&
    (!isResent kind || m.seq % 65536 == tabGetD s.nyl.rx (8 * m.link + linkClass kind) 0)

/-- The link after a message was taken: on a resent class the next number is due. -/
def gotMsg (m : LinkMsg) (s : State) : State :=
  let k := 8 * m.link + linkClass m.kind
  if isResent m.kind then { s with nyl := { s.nyl with rx := tabSet s.nyl.rx k ((tabGetD s.nyl.rx k 0 + 1) % 65536) } } else s

/-- The message is for this module, and does not go on round the gang. -/
def forUs (m : LinkMsg) (s : State) : Bool := gangRole s == 0 || fromPartner s m || m.args.getD 0 0 == gangMe s

/-- Messages of the links, with their kinds. -/
def messageRows : List (Nat × (LinkMsg → Instr)) := [
  (mkPhase, .phaseMessage), (mkPresence, .presenceReport), (mkAsk, .presenceReport), (mkFill, .fillPayload),
  (mkSerial, .fillPayload), (mkStaged, .stagedCommand), (mkAdmit, .admitMsg), (mkVerdict, .verdict), (mkCommit, .commit),
  (mkSnapshot, .snapshotTriggerMessage), (mkDoorbell, .doorbellMessage), (mkDigest, .digest), (mkDown, .downNotice),
  (mkJournal, .journalMessage), (mkPrime, .primeMessage), (mkBulk, .bulkMessage), (mkDiscovery, .discovery),
  (mkAnswer, .discoveryAnswer), (mkResend, .resendRequest)]

end Sys2Proof.Claims
end

