-- ==== Sys2Proof/Machine/EcEncode.lean ====
section
/-! DEFINITION. The word of program memory that holds an effect-core instruction, from the encoding tables of R205 to R210. -/

namespace Sys2Proof.Machine

/-- A move field (R207). -/
def encMv : Mv → Nat
  | .none => 0
  | .ld d p => 1 * 2 ^ 9 + d * 2 ^ 5 + p * 2 ^ 2
  | .st d p => 2 * 2 ^ 9 + d * 2 ^ 5 + p * 2 ^ 2
  | .sta a sh p => 3 * 2 ^ 9 + a * 2 ^ 7 + sh * 2 ^ 5 + p * 2 ^ 2

/-- An address update (R208). -/
def encUpd : Upd → Nat
  | .none => 0
  | .upd n op => 2 ^ 7 + n * 2 ^ 4 + op * 2 ^ 2

/-- Format P (R205): slot A and what is issued beside it. -/
def encP (a : Nat) (q : Par) : Nat :=
  a * 2 ^ 40 + encMv q.m0 * 2 ^ 28 + encMv q.m1 * 2 ^ 16 + encUpd q.u0 * 2 ^ 8 + encUpd q.u1

/-- Slot A of three registers at [16:13], [12:9] and [8:5] (R206). -/
def slot3 (op d x y : Nat) : Nat := op * 2 ^ 17 + d * 2 ^ 13 + x * 2 ^ 9 + y * 2 ^ 5

/-- Format C (R209): op, condition, bits [51:32], immediate. -/
def encC (op cond mid imm : Nat) : Nat := 2 ^ 62 + op * 2 ^ 56 + cond * 2 ^ 52 + mid * 2 ^ 32 + imm

/-- Format X (R210). -/
def encX (op d x : Nat) (v : Word) : Nat := 2 ^ 63 + op * 2 ^ 56 + d * 2 ^ 52 + x * 2 ^ 48 + v.toNat

/-- Count of RPT and LOOP: bits [51:32] and the immediate's count. -/
def encCnt : Cnt → Nat × Nat
  | .imm n => (0, n)
  | .reg r => (r * 2 ^ 12 + 2 ^ 11, 0)

/-- Slot A and the parallel part of a P instruction. -/
def encPar : Instr → Option (Nat × Par)
  | .nop _ q => some (0, q)
  | .mpy _ a x y neg q => some (0x01 * 2 ^ 17 + a * 2 ^ 15 + x * 2 ^ 11 + y * 2 ^ 7 + b2n neg * 2 ^ 6, q)
  | .mac _ a x y neg q => some (0x02 * 2 ^ 17 + a * 2 ^ 15 + x * 2 ^ 11 + y * 2 ^ 7 + b2n neg * 2 ^ 6, q)
  | .fir4 _ x k neg clr q => some (0x03 * 2 ^ 17 + x * 2 ^ 13 + k * 2 ^ 11 + b2n neg * 2 ^ 10 + b2n clr * 2 ^ 9, q)
  | .dmac _ h x0 y0 x1 y1 q => some (0x04 * 2 ^ 17 + h * 2 ^ 16 + x0 * 2 ^ 12 + y0 * 2 ^ 8 + x1 * 2 ^ 4 + y1, q)
  | .dmpy _ h x0 y0 x1 y1 q => some (0x05 * 2 ^ 17 + h * 2 ^ 16 + x0 * 2 ^ 12 + y0 * 2 ^ 8 + x1 * 2 ^ 4 + y1, q)
  | .cmac _ u v h conj clr q =>
    some (0x06 * 2 ^ 17 + u * 2 ^ 14 + v * 2 ^ 11 + h * 2 ^ 10 + b2n conj * 2 ^ 9 + b2n clr * 2 ^ 8, q)
  | .acs2 _ ma mb bm k min q =>
    some (0x07 * 2 ^ 17 + ma * 2 ^ 13 + mb * 2 ^ 9 + bm * 2 ^ 5 + k * 2 ^ 2 + b2n min * 2, q)
  | .acs1 _ dst s0 s1 bm min q =>
    some (0x08 * 2 ^ 17 + dst * 2 ^ 13 + s0 * 2 ^ 9 + s1 * 2 ^ 5 + bm * 2 + b2n min, q)
  | .add _ d x y q => some (slot3 0x09 d x y, q)
  | .sub _ d x y q => some (slot3 0x0A d x y, q)
  | .adds _ d x y q => some (slot3 0x0B d x y, q)
  | .subs _ d x y q => some (slot3 0x0C d x y, q)
  | .and _ d x y q => some (slot3 0x0D d x y, q)
  | .or _ d x y q => some (slot3 0x0E d x y, q)
  | .xor _ d x y q => some (slot3 0x0F d x y, q)
  | .shift _ kind d x (.imm n) q => some (slot3 0x10 d x 0 + kind * 2 ^ 7 + n, q)
  | .shift _ kind d x (.reg r) q => some (slot3 0x10 d x 0 + kind * 2 ^ 7 + 2 ^ 6 + r, q)
  | .min _ d x y q => some (slot3 0x11 d x y, q)
  | .max _ d x y q => some (slot3 0x12 d x y, q)
  | .abs _ d x q => some (slot3 0x13 d x 0, q)
  | .neg _ d x q => some (slot3 0x14 d x 0, q)
  | .cmp _ x y q => some (slot3 0x15 0 x y, q)
  | .mov _ d x q => some (slot3 0x16 d x 0, q)
  | .aclr _ mask q => some (0x17 * 2 ^ 17 + mask * 2 ^ 13, q)
  | .aadd _ d x sub q => some (0x18 * 2 ^ 17 + d * 2 ^ 15 + x * 2 ^ 13 + b2n sub * 2 ^ 12, q)
  | .ash _ d x n q => some (0x19 * 2 ^ 17 + d * 2 ^ 15 + x * 2 ^ 13 + bitsOf 6 n * 2 ^ 7, q)
  | .arnd _ d a sh q => some (0x1A * 2 ^ 17 + d * 2 ^ 13 + a * 2 ^ 11 + sh * 2 ^ 9, q)
  | .ald _ a d q => some (0x1B * 2 ^ 17 + a * 2 ^ 15 + d * 2 ^ 11, q)
  | .ld _ d p m1 u0 u1 => some (0, { m0 := .ld d p, m1 := m1, u0 := u0, u1 := u1 })
  | .st _ d p m1 u0 u1 => some (0, { m0 := .st d p, m1 := m1, u0 := u0, u1 := u1 })
  | .sta _ a sh p m1 u0 u1 => some (0, { m0 := .sta a sh p, m1 := m1, u0 := u0, u1 := u1 })
  | .addressUpdate _ n op u1 => some (0, { u0 := .upd n op, u1 := u1 })
  | _ => none

/-- Control and immediate instructions. -/
def encWord : Instr → Option Nat
  | .br _ cond target => some (encC 0x01 cond 0 target)
  | .call _ cond target => some (encC 0x02 cond 0 target)
  | .ret _ cond => some (encC 0x03 cond 0 0)
  | .reti _ => some (encC 0x04 0 0 0)
  | .rpt _ n => some (encC 0x05 0 (encCnt n).1 (encCnt n).2)
  | .loop _ stop n => some (encC 0x06 0 (encCnt n).1 (stop * 2 ^ 16 + (encCnt n).2))
  | .halt _ => some (encC 0x07 0 0 0)
  | .ldi _ id v => some (encC 0x08 0 (id * 2 ^ 8) v.toNat)
  | .movc _ dst src => some (encC 0x09 0 (dst * 2 ^ 8 + src) 0)
  | .xmov _ d p out lines => some (encC 0x0A 0 (d * 2 ^ 12 + p * 2 ^ 8 + b2n out) lines)
  | .xwait _ => some (encC 0x0B 0 0 0)
  | .signal _ src => some (encC 0x0C 0 0 src)
  | .clrf _ mask => some (encC 0x0D 0 0 mask)
  | .addi _ d x v => some (encX 0x00 d x v)
  | .addsi _ d x v => some (encX 0x01 d x v)
  | .andi _ d x v => some (encX 0x02 d x v)
  | .ori _ d x v => some (encX 0x03 d x v)
  | .xori _ d x v => some (encX 0x04 d x v)
  | .cmpi _ x v => some (encX 0x05 0 x v)
  | .mini _ d x v => some (encX 0x06 d x v)
  | .maxi _ d x v => some (encX 0x07 d x v)
  | _ => none

/-- The word of an instruction; none for a command that is not one of a program. -/
def ecEncode (i : Instr) : Option (BitVec 64) :=
  match encPar i with
  | some (a, q) => some (BitVec.ofNat 64 (encP a q))
  | none => (encWord i).map (BitVec.ofNat 64)

/-- Core of an instruction of a program. -/
def instrCore : Instr → Nat
  | .nop c _ | .mpy c .. | .mac c .. | .fir4 c .. | .dmac c .. | .dmpy c .. | .cmac c .. | .acs2 c .. | .acs1 c .. => c
  | .add c .. | .sub c .. | .adds c .. | .subs c .. | .and c .. | .or c .. | .xor c .. | .shift c .. | .min c .. => c
  | .max c .. | .abs c .. | .neg c .. | .cmp c .. | .mov c .. | .aclr c .. | .aadd c .. | .ash c .. | .arnd c .. => c
  | .ald c .. | .ld c .. | .st c .. | .sta c .. | .addressUpdate c .. | .br c .. | .call c .. | .ret c .. | .reti c => c
  | .rpt c .. | .loop c .. | .halt c | .ldi c .. | .movc c .. | .xmov c .. | .xwait c | .signal c .. | .clrf c .. => c
  | .addi c .. | .addsi c .. | .andi c .. | .ori c .. | .xori c .. | .cmpi c .. | .mini c .. | .maxi c .. => c
  | _ => 0

end Sys2Proof.Machine
end

