-- ==== Sys2Proof/Certificates/Slice0/Obligations.lean ====
section
/-! DEFINITION. The statements about the model, by chapter of the spec. -/

open Sys2Proof Sys2Proof.Machine Sys2Proof.Claims
/-! ### The block as a whole -/

/-- A step takes the command at the front of the queue and runs it with the queue's rest. -/
def Obligations.StepRunsFrontCommand : Prop :=
  ∀ (c : Instr) (l : List Instr) (s : State), step { s with pending := c :: l } = exec c { s with pending := l }

/-- On an empty queue one core cycle passes, and each effect core that runs by itself puts the instruction at its PC into the queue,
once, unless the die is not running; nothing else changes (the model's choice, log entry 2). -/
def Obligations.EmptyQueueIdles : Prop :=
  ∀ s : State, s.pending = [] → ∃ t, step s = .next t ∧
    Settled { s with clk := s.clk + 1, pending := if s.dieRuns then ecReady s else [] } t

/-- No command of the block is turned away: every command in every state has a next state. -/
def Obligations.EveryCommandGoesOn : Prop := ∀ (c : Instr) (s : State), ∃ t, exec c s = .next t

/-- R322, R494: after every step the pins say what the state says: INT_N is low exactly when MODE is 1 and some source can be
delivered to the host, WAKE_N exactly when one that may wake can be and the function or the link sleeps, PG exactly when the die
runs, PWR_WARN_N exactly in a warning or in reset with HOLD above 12 V, FAULT_N exactly before READY or with an enabled condition. -/
def Obligations.PinsFollowEveryStep : Prop :=
  ∀ s t : State, step s = .next t →
    (t.pins.intN = false ↔ t.pwr.reset = .running ∧ t.bit R.irqHostCfg 0 = true ∧ ∃ x, x < 512 ∧ deliverable t 0 x = true) ∧
    (t.pins.wakeN = false ↔ t.pwr.reset = .running ∧ ¬ (t.irq.d0 = true ∧ t.irq.l0 = true) ∧
      ∃ x, x < 512 ∧ deliverable t 0 x = true ∧ t.bit (irqCfg x) 30 = true) ∧
    (t.pins.pg = true ↔ t.pwr.reset = .running) ∧
    (t.pins.pwrWarnN = false ↔
      (t.pwr.reset = .running ∧ t.bit R.pwrStatus 3 = true) ∨ (t.pwr.reset = .held ∧ t.pwr.retained = true)) ∧
    (t.pins.faultN = false ↔
      t.pwr.reset ≠ .running ∨ t.field R.pwrStatus 23 20 ≠ 5 ∨
      (t.bit R.pwrFaultMask 0 = true ∧ t.bit R.pwrStatus 3 = true) ∨
      (t.bit R.pwrFaultMask 1 = true ∧ t.bit R.pwrStatus 7 = true) ∨
      (t.bit R.pwrFaultMask 2 = true ∧ ∃ i, i < 4 ∧ t.reg (R.pwrDrvOff + 4 * i) ≠ 0) ∨
      (t.bit R.pwrFaultMask 3 = true ∧ (t.reg R.pwrMicStuck ≠ 0 ∨ t.reg R.pwrMicOpen ≠ 0)) ∨
      (t.bit R.pwrFaultMask 4 = true ∧ t.bit R.pwrStatus 6 = true))

/-- R318: after every step, from whatever state, a released source is pending, and a pending source is released unless its group's
hold-off runs. -/
def Obligations.ReleasesFollowEveryStep : Prop := ∀ s t : State, step s = .next t → ReleasesTrue t

/-- R322, R522: after every step with the link up in L0 and the function in D0, every message the host is still owed belongs to a
masked vector. -/
def Obligations.MessagesLeaveEveryStep : Prop :=
  ∀ s t : State, step s = .next t → t.linkUp = true → t.irq.d0 = true → t.irq.l0 = true →
    ∀ v, v < 32 → t.bit R.glbMsixPba v = true → t.bit (R.glbMsixTable + 16 * v + 12) 0 = true

/-- What every step keeps holds right after reset: the pins are true, releases are as R318 has them, no message is owed, the cistern's
bytes are in canonical form, nothing waits. -/
def Obligations.ResetMeetsTheInvariants : Prop :=
  PinsTrue State.reset ∧ ReleasesTrue State.reset ∧ State.reset.reg R.glbMsixPba = 0 ∧ MemWf State.reset ∧
    State.reset.pending = []

/-- R63, R330, R331, R332, R334: what the register tables of the geometry engine and the interrupt controller give for reset. -/
def Obligations.ResetValues : Prop :=
  let s := State.reset
  s.reg R.geoVersion = 0x00010000 ∧ s.reg R.geoSosNom = 0x55C00000 ∧ s.reg R.geoSosEff = 0x55C00000 ∧
  s.reg R.geoSosDelta = 0 ∧ s.reg R.geoPubEpoch = 0 ∧ s.reg R.geoEvtStatus = 0 ∧
  s.reg R.irqHostCfg = 0 ∧ s.reg R.irqHostFallbackMs = 20 ∧ s.reg R.irqStatus = 0 ∧ s.reg R.irqEvtStatus = 0 ∧
  s.reg (R.irqEvtStatus + 4) = 1 ∧ (∀ g, g < 16 → s.reg (R.irqPend + 4 * g) = 0 ∧ grpHoldRead s g = 0) ∧
  (∀ src, src < 512 → s.reg (irqCfg src) = 0) ∧ (∀ tgt, tgt ≤ 20 → stackStat s tgt = 0x0003FF00)

/-- R204 to R224: reading the word that the encoder writes for a well-formed effect-core instruction gives the instruction, every
operand at every value. -/
def Obligations.EcEncodeDecode : Prop :=
  ∀ (i : Instr) (w : BitVec 64), i.wellFormed = true → ecEncode i = some w → ecDecode (instrCore i) w = i

/-! ### Packets: chapter 08 -/

/-- R246, R249, R254, R256, R275, R449: before a packet's opcode acts: FENCE holds it while anything of its ring is outstanding, want of
credit holds it, a path to no unit and a payload above 4,080 bytes give ST_BAD_PARAM, a command the network path denies ST_DENIED, and
a query or immediate command for a member goes on to that member. -/
def Obligations.PacketsBeforeTheirOpcode : Prop :=
  ∀ row ∈ packetRows, ∀ (h : Hdr) (p : List Byte) (s : State), s.dieRuns = true →
    (pktFenced h s = true → Gives (row.2 h p) s (s.setSq (h.sq % 32) { sqSt s (h.sq % 32) with fenced := true })) ∧
    (pktFenced h s = false → pktCredit row.1 h p s = false →
      Gives (row.2 h p) s (s.setSq (h.sq % 32) { sqSt s (h.sq % 32) with blocked := true })) ∧
    (pktTaken row.1 h p s = true → 4080 < p.length ∨ pathFault s (normHdr h) = true →
      Answers (row.2 h p) row.1 h p s { status := stBadParam } (atFetch row.1 h p s)) ∧
    (pktTaken row.1 h p s = true → p.length ≤ 4080 → pathFault s (normHdr h) = false → h.net = true → netDenied row.1 = true →
      Answers (row.2 h p) row.1 h p s { status := stDenied } (atFetch row.1 h p s)) ∧
    (∀ m d path, pktTaken row.1 h p s = true → p.length ≤ 4080 → pathFault s (normHdr h) = false →
      (h.net && netDenied row.1) = false → isEpochOp row.1 = false → row.1 / 256 ≠ 2 → pathMember h.depth h.path = some (m, d, path) →
      Answers (row.2 h p) row.1 h p s { later := true } (relayRun s.cmd.fetchNum 1 row.1 (h.tag % 65536) (h.txn % 2 ^ 32) m d path p
        (atFetch row.1 h p s)))

/-- R97, R98, R253, R257, R263: an epoch command whose payload is valid joins the OPEN transaction its header names: the packet is the
last of its list, its bytes count, the idle time starts again, and it completes with ST_OK. -/
def Obligations.EpochCommandsStage : Prop :=
  ∀ row ∈ epochRows, ∀ (h : Hdr) (p : List Byte) (T : Txn) (s : State), pktRuns row.1 h p s = true →
    let F := atFetch row.1 h p s
    mayStage row.1 h p F = true → findTxn F (h.txn % 2 ^ 32) = some T → T.phase = .open_ →
    row.2.2 F T.packets p = stOk → T.bytes + 16 + p.length ≤ 0x100000 →
    Leaves (row.2.1 h p) s fun t =>
      (∃ u, findTxn t (h.txn % 2 ^ 32) = some u ∧ u.packets = T.packets ++ [asStaged row.1 h p] ∧
        u.bytes = T.bytes + 16 + p.length ∧ u.phase = .open_ ∧ u.used = s.clk) ∧
      t.cmd.fetched = s.cmd.fetched ++ [entryOf row.1 h p s {}] ∧ t.cm = s.cm ∧ t.tick = s.tick ∧ t.jnl = s.jnl

/-- R97, R98, R253: an epoch command with TXN_ID 0 makes a transaction of its own, accepted for the next pass: ST_ACCEPTED. -/
def Obligations.EpochCommandsOfTheirOwn : Prop :=
  ∀ row ∈ epochRows, ∀ (h : Hdr) (p : List Byte) (s : State), pktRuns row.1 h p s = true → h.txn % 2 ^ 32 = 0 →
    let F := atFetch row.1 h p s
    mayStage row.1 h p F = true → row.2.2 F [] p = stOk → heldCount F < 64 →
    Leaves (row.2.1 h p) s fun t =>
      (∃ u, t.cmd.txns = s.cmd.txns.map (fun x => if x.num == u.num then u else x) ++ [u] ∧ u.num = s.cmd.txnNum ∧
        u.packets = [asStaged row.1 h p] ∧ u.phase = .accepted ∧ u.mode1 = false ∧ u.bytes = 16 + p.length) ∧
      (∃ r, t.cmd.fetched = s.cmd.fetched ++ [entryOf row.1 h p s r] ∧ r.status = stAccepted ∧ r.accepts = some s.cmd.txnNum) ∧
      t.cm = s.cm ∧ t.tick = s.tick ∧ t.jnl = s.jnl

/-- R97, R257, R263: an epoch command whose payload fails its check leaves no trace but a failed transaction where one was named, and
completes with the check's status; one that a follower may not take completes with ST_BAD_STATE. -/
def Obligations.EpochCommandsRefused : Prop :=
  ∀ row ∈ epochRows, ∀ (h : Hdr) (p : List Byte) (s : State), pktRuns row.1 h p s = true →
    let F := atFetch row.1 h p s
    (isFollower F = true → followerMay F row.1 p = false →
      Answers (row.2.1 h p) row.1 h p s { status := stBadState } F) ∧
    (mayStage row.1 h p F = true → h.txn % 2 ^ 32 = 0 → row.2.2 F [] p ≠ stOk → row.2.2 F [] p ≠ stAccepted →
      Answers (row.2.1 h p) row.1 h p s { status := row.2.2 F [] p } F) ∧
    (∀ T, mayStage row.1 h p F = true → h.txn % 2 ^ 32 ≠ 0 → findTxn F (h.txn % 2 ^ 32) = some T → T.phase = .open_ →
      row.2.2 F T.packets p ≠ stOk → row.2.2 F T.packets p ≠ stBadState → row.2.2 F T.packets p ≠ stAccepted →
      Answers (row.2.1 h p) row.1 h p s { status := row.2.2 F T.packets p }
        (F.putTxn { T with used := s.clk, phase := .failed, err := row.2.2 F T.packets p }))

/-- R255, R258, R263, R265: queries complete with what they ask for, inline in RESULT or through their reply buffer, and change
nothing else: NOP, module information, registers in list order, objects, layouts, routing, correction, metrics, effect-core memory,
streams, time, serial ports, the gang, snapshots, the journal region, power. -/
def Obligations.QueriesAnswer : Prop :=
  (∀ h s, pktRuns 0x0101 h [] s = true → Answers (.opNop h []) 0x0101 h [] s {} (atFetch 0x0101 h [] s)) ∧
  (∀ h s, let F := atFetch 0x0102 h [] s
    pktRuns 0x0102 h [] s = true → Answers (.opSysInfo h []) 0x0102 h [] s
      (resWords [regValue F R.glbId, regValue F R.glbFwVer, wd F.svc.running, wd (b2n F.rate96), wd ((allMembers F).length + 1),
        wd F.unitOutputs, wd F.objects, wd (unitPairs F)]) F) ∧
  (∀ h p s, let F := atFetch 0x0107 h p s
    let l := (listOf 1 p).map fun w => (wAt w 0).toNat
    pktRuns 0x0107 h p s = true → listOk 1 p (fun w => fwReadable (wAt w 0).toNat) = stOk → l.length ≤ 10 → l.all plainRead = true →
    Answers (.opRegRead h p) 0x0107 h p s (resWords (l.map (regValue F))) F) ∧
  (∀ h p s, let F := atFetch 0x0305 h p s
    let o := (wAt (wordsOf p) 0).toNat
    pktRuns 0x0305 h p s = true → p.length = 16 → o < F.objects →
    Answers (.opObjState h p) 0x0305 h p s (resTo (p.drop 4) (objStateBytes F o)) F) ∧
  (∀ h p s, let F := atFetch 0x0404 h p s
    let w := wAt (wordsOf p) 0
    pktRuns 0x0404 h p s = true → p.length = 16 → fld w 7 6 = 0 → fld w 31 9 = 0 →
    (bit w 8 = true → Answers (.opLayoutRead h p) 0x0404 h p s (resTo (p.drop 4) (arrayPart F (fld w 5 0))) F) ∧
    (bit w 8 = false → fld w 5 0 < 32 → Answers (.opLayoutRead h p) 0x0404 h p s (resTo (p.drop 4) (layoutPart F (fld w 5 0))) F)) ∧
  (∀ h p s, let F := atFetch 0x0505 h p s
    pktRuns 0x0505 h p s = true → p.length = 12 → ∃ l, Answers (.opRouteRead h p) 0x0505 h p s (resTo p l) F ∧
      l.length = 2048 + 8 * (s.cm.xps.filter (·.en)).length) ∧
  (∀ h p s, let F := atFetch 0x0604 h p s
    let o := (wAt (wordsOf p) 0).toNat
    pktRuns 0x0604 h p s = true → p.length = 4 → o < F.outputs → Answers (.opCorStatus h p) 0x0604 h p s
      (resWords [corCfgAt F.cm o, corLenAt F.cm o, corPdAt F.cm o, corXfAt F.cm o, corStateRead F o, F.reg R.corBlkEpoch,
        F.reg R.corBlkTickLo, F.reg R.corBlkTickHi]) F) ∧
  (∀ h p l s, let F := atFetch 0x0701 h p s
    pktRuns 0x0701 h p s = true → askedKeys F p = some l →
    ∃ d, Answers (.opMeaMetrics h p) 0x0701 h p s (resTo ((p.drop 4).take 12) (pubHeader F ++ d)) F) ∧
  (∀ h p s, let F := atFetch 0x0806 h p s
    let w := wordsOf p
    let c := (wAt w 0).toNat
    let a := (wAt w 1).toNat
    let n := (wAt w 2).toNat
    pktRuns 0x0806 h p s = true → p.length = 12 → c < 16 → 1 ≤ n → n ≤ 10 → a + n ≤ 0x8000 →
    ((s.ec c).active = false → Answers (.opEcRead h p) 0x0806 h p s
      (resWords ((List.range n).map fun i => (s.ec c).word (a + i))) F) ∧
    ((s.ec c).active = true → Answers (.opEcRead h p) 0x0806 h p s { later := true }
      { F with ecIo := { F.ecIo with reads := F.ecIo.reads ++ [(c, a, n, s.cmd.fetchNum)] } })) ∧
  (∀ h p s, let F := atFetch 0x0906 h p s
    pktRuns 0x0906 h p s = true → p.length = 4 → fld (slotWord p) 31 9 = 0 →
    (bit (slotWord p) 8 = true → Answers (.opStrStatus h p) 0x0906 h p s
      (resWords (txStateRead F (slotOf p) :: (List.range 9).map fun i => F.reg (txReg (slotOf p) 4 + 4 * i))) F) ∧
    (bit (slotWord p) 8 = false → Answers (.opStrStatus h p) 0x0906 h p s
      (resWords (rxStateRead F (slotOf p) :: (List.range 9).map fun i => F.reg (rxReg (slotOf p) 4 + 4 * i))) F)) ∧
  (∀ h s, let F := atFetch 0x0A05 h [] s
    pktRuns 0x0A05 h [] s = true → Answers (.opTimStatus h []) 0x0A05 h [] s (resWords ([R.timState, R.timOffset, R.timMpd, R.timMpdNew,
      R.timAsym, R.timRefStatus, R.timGmIdLo, R.timGmIdHi, R.timHoldLo, R.timHoldHi].map F.reg)) F) ∧
  (∀ h p s, let F := atFetch 0x0B03 h p s
    let w := wAt (wordsOf p) 0
    pktRuns 0x0B03 h p s = true → p.length = 4 → fld w 31 5 = 0 →
    Answers (.opSapStatus h p) 0x0B03 h p s (resWords ((List.range 9).map fun i => F.reg (sapReg w.toNat (0x10 + 4 * i)))) F) ∧
  (∀ h p s, let F := atFetch 0x0C05 h p s
    pktRuns 0x0C05 h p s = true → p.length = 12 → Answers (.opGangStatus h p) 0x0C05 h p s
      (resTo p (bytesOfWords ((List.range 16).map (gangW F)) ++ memberRecord 0 (statusWords F) ++
        F.nyl.members.flatMap fun e => memberRecord e.1 e.2.words)) F) ∧
  (∀ h p s, let F := atFetch 0x0D02 h p s
    let w := wAt (wordsOf (p.take 4)) 0
    pktRuns 0x0D02 h p s = true → p.length = 16 → fld w 31 1 = 0 → Answers (.opSnpRead h p) 0x0D02 h p s
      (resTo (p.drop 4) (bytesOfWords ((List.range 6).map (fun i => F.reg (snpGroup (bit w 0) + 4 * i)) ++
        (List.range 4608).map fun i => F.reg (snpImage (bit w 0) + 4 * i)))) F) ∧
  (∀ h p s, let F := atFetch 0x0D03 h p s
    let off := (wAt (wordsOf p) 0).toNat
    let n := (wAt (wordsOf p) 1).toNat
    pktRuns 0x0D03 h p s = true → p.length = 20 → off + n ≤ mramSize →
    Answers (.opJnlRead h p) 0x0D03 h p s (resTo (p.drop 8) (mramRead F off n).2) (mramRead F off n).1) ∧
  (∀ h s, let F := atFetch 0x0E02 h [] s
    pktRuns 0x0E02 h [] s = true → ∃ b, Answers (.opPwrStatus h []) 0x0E02 h [] s (resWords [F.reg R.pwrStatus, telemetry F 2,
      telemetry F 4, F.reg R.pwrTj, F.reg R.pwrResetCause, b]) F ∧ (b = 0 ↔ (∀ i, i < 4 → F.reg (R.pwrDrvOff + 4 * i) = 0) ∧
      F.reg R.pwrMicStuck = 0 ∧ F.reg R.pwrMicOpen = 0))

/-- R125, R182, R191, R264, R483, R486, R500 to R507: the immediate commands: the stored rate, the ordered reset after 10 ms with what
a warning does, reference captures, an export that completes later, a snapshot trigger, shedding, the challenge and its response, the
owner key, and firmware images. -/
def Obligations.ImmediateCommandsAct : Prop :=
  (∀ h p s, let F := atFetch 0x0103 h p s
    let w := wAt (wordsOf p) 0
    pktRuns 0x0103 h p s = true → p.length = 4 → fld w 31 1 = 0 → Answers (.opSysRate h p) 0x0103 h p s {}
      (({ F with jnl := { F.jnl with store := { F.jnl.store with rate96 := bit w 0 } } } : State).setBit R.glbRate 4 (bit w 0))) ∧
  (∀ h s, let F := atFetch 0x0108 h [] s
    pktRuns 0x0108 h [] s = true →
    (s.cmd.resetDue = none → Answers (.opSysReset h []) 0x0108 h [] s {}
      (warn { F with cmd := { F.cmd with resetDue := some (s.clk + 12500000) } })) ∧
    (s.cmd.resetDue.isSome = true → Answers (.opSysReset h []) 0x0108 h [] s {} F)) ∧
  (∀ h p s, let F := atFetch 0x0702 h p s
    pktRuns 0x0702 h p s = true → p.length = 128 → ∃ refs n, Answers (.opMeaRefCapture h p) 0x0702 h p s (resWords [wd n])
      { F with jnl := { F.jnl with store := { F.jnl.store with refs := refs } } } ∧
      n = (s.mea.records.filter fun e => bit (wAt (wordsOf p) (e.1 / 1024)) (e.1 / 32 % 32) && decide (confMin s ≤ e.2.conf)).length) ∧
  (∀ h p l s, let F := atFetch 0x0703 h p s
    let rb := (p.drop 4).take 12
    pktRuns 0x0703 h p s = true → askedKeys F p = some l → rb.length = 12 → leNat (rb.take 8) % 4 = 0 →
    20 + l.length * 4160 ≤ leNat (rb.drop 8) → Answers (.opMeaExport h p) 0x0703 h p s { later := true }
      { F with mea := { F.mea with exports := F.mea.exports ++ [{
        num := s.cmd.fetchNum, addr := leNat (rb.take 8), len := 20 + l.length * 4160, pairs := l }] } }) ∧
  (∀ h s, let F := atFetch 0x0D01 h [] s
    pktRuns 0x0D01 h [] s = true → s.bit R.snpCtrl 0 = true → s.bit R.snpCtrl 1 = false →
    Answers (.opSnpTrigger h []) 0x0D01 h [] s {} { F with snp := { F.snp with cmd := true } }) ∧
  (∀ h p s, let F := atFetch 0x0E01 h p s
    let w := wAt (wordsOf p) 0
    pktRuns 0x0E01 h p s = true → p.length = 4 → fld w 31 1 = 0 → (bit w 0 && warned s) = false →
    Answers (.opPwrSet h p) 0x0E01 h p s {} (F.setBit R.pwrCtrl 0 (bit w 0))) ∧
  (∀ h s, let F := atFetch 0x0E10 h [] s
    pktRuns 0x0E10 h [] s = true → s.svc.backoff = none → ∃ c, Answers (.opSvcChallenge h []) 0x0E10 h [] s
      { result := c ++ devIdBytes F, rlen := 24 } { F with
        freeCtr := F.freeCtr + 1
        svc := { F.svc with chal := some (c, s.clk + s.field R.svcChalTo 15 0 * 1250000000) } } ∧ c.length = 16) ∧
  (∀ h p s, let F := atFetch 0x0E11 h p s
    pktRuns 0x0E11 h p s = true → p.length = 64 →
    (responseOk F p = true → Answers (.opSvcResponse h p) 0x0E11 h p s {}
      ({ F with svc := { F.svc with state := 2, chal := none, fails := 0, period := 0, backoff := none, opened := s.clk } }.evt
        R.svcEvtStatus 0)) ∧
    (responseOk F p = false → Answers (.opSvcResponse h p) 0x0E11 h p s { status := stDenied } (svcFail F))) ∧
  (∀ h p s, let F := atFetch 0x0E12 h p s
    pktRuns 0x0E12 h p s = true → p.length = 128 → s.svc.state = 0 →
    ecdsaOk (p.take 64) (sha256 (p.take 64 ++ devIdBytes F)) (p.drop 64) = true →
    Answers (.opSvcOwner h p) 0x0E12 h p s {} ({ F with svc := { F.svc with key := p.take 64, state := 1 } }.evt R.svcEvtStatus 3)) ∧
  (∀ h p s, let F := atFetch 0x0E13 h p s
    let i := (wAt (wordsOf (p.take 12)) 0).toNat
    let off := (wAt (wordsOf (p.take 12)) 1).toNat
    let n := (wAt (wordsOf (p.take 12)) 2).toNat
    pktRuns 0x0E13 h p s = true → s.svc.state = 2 → p.length = 12 + n → 1 ≤ n → n ≤ 4064 → i ≤ 1 → off + n ≤ 0x2000000 →
    i ≠ s.svc.running → off = 0 ∨ imageNext s i = some off →
    Answers (.opFwWrite h p) 0x0E13 h p s {} (fwPut F i off (p.drop 12))) ∧
  (∀ h p x s, let F := atFetch 0x0E14 h p s
    let i := (wAt (wordsOf p) 0).toNat
    pktRuns 0x0E14 h p s = true → s.svc.state = 2 → p.length = 4 → i ≤ 1 →
    (i = s.svc.running → Answers (.opFwActivate h p) 0x0E14 h p s {} { F with svc := { F.svc with select := i } }) ∧
    (i ≠ s.svc.running → imageInfo s i = some x → Answers (.opFwActivate h p) 0x0E14 h p s {}
      (({ F with svc := { F.svc with select := i } }.setNat (fwVerReg i) x.1).evt R.svcEvtStatus 4)))

/-! ### Transactions: chapter 04 -/

/-- R96, R98, R99, R101, R103, R105, R116, R259: the transaction group: opening takes a free ID and a place among 64; a commit accepts
the OPEN transaction as it stands, at a pass or at a time; MODE 2 tells the verdict and stages nothing; an abort closes it; its state
can be asked. -/
def Obligations.TransactionGroup : Prop :=
  (∀ h s, let F := atFetch 0x0201 h [] s
    let id := h.txn % 2 ^ 32
    pktRuns 0x0201 h [] s = true → id ≠ 0 → id ≠ fwId → findTxn F id = none → heldCount F < 64 →
    Answers (.opTxnOpen h []) 0x0201 h [] s {} { F with cmd := { F.cmd with
      txnNum := F.cmd.txnNum + 1
      txns := F.cmd.txns ++ [{ num := F.cmd.txnNum, id := id, used := s.clk }] } }) ∧
  (∀ row ∈ [Instr.opTxnCommit, Instr.opTxnCommitAt], ∀ h p T s, let F := atFetch 0x0202 h p s
    let w := wordsOf p
    let mode := fld (wAt w 0) 1 0
    let id := h.txn % 2 ^ 32
    let tm := (wAt w 1).toNat + 2 ^ 32 * (wAt w 2).toNat
    pktRuns 0x0202 h p s = true → id ≠ 0 → id ≠ fwId → p.length = 16 → fld (wAt w 0) 31 2 = 0 → mode ≤ 1 →
    findTxn F id = some T → T.phase = .open_ →
    Answers (row h p) 0x0202 h p s
      { status := stAccepted
        result := leBytes 8 (if mode = 1 then ceilDiv tm s.blockLen else 0)
        rlen := 8
        accepts := some T.num }
      (F.putTxn { T with
        phase := .accepted
        mode1 := mode == 1
        t := tm
        lateMax := (wAt w 3).toNat
        used := s.clk
        reply := some (replyOf F (normHdr h) 0x0202 (pktNet h s)) })) ∧
  (∀ h p T s, let F := atFetch 0x0202 h p s
    let w := wordsOf p
    let id := h.txn % 2 ^ 32
    pktRuns 0x0202 h p s = true → id ≠ 0 → id ≠ fwId → p.length = 16 → fld (wAt w 0) 31 2 = 0 → fld (wAt w 0) 1 0 = 2 →
    findTxn F id = some T → T.phase = .open_ → ∃ v c, Answers (.opTxnCommitCheck h p) 0x0202 h p s
      { status := v.status, result := finalResult c v, rlen := 40 } (F.putTxn { T with used := s.clk, regs := [] }) ∧
      c = (if s.cmd.passDone then s.tick + 2 else s.tick + 1) ∧ (passBlocked F = true → v.status = stBadState)) ∧
  (∀ h T s, let F := atFetch 0x0203 h [] s
    let id := h.txn % 2 ^ 32
    pktRuns 0x0203 h [] s = true → id ≠ 0 → id ≠ fwId → findTxn F id = some T →
    (T.phase = .open_ ∨ T.phase = .failed → Answers (.opTxnAbort h []) 0x0203 h [] s {} (closeTxn F T stOk F.cm.epoch)) ∧
    (T.phase = .accepted → Answers (.opTxnAbort h []) 0x0203 h [] s {}
      (closeTxn (postFinal F T { status := stSuperseded } s.tick s.cm.epoch) T stSuperseded
        (postFinal F T { status := stSuperseded } s.tick s.cm.epoch).cm.epoch)) ∧
    (T.phase = .admitted ∨ T.phase = .refused → Answers (.opTxnAbort h []) 0x0203 h [] s { status := stBadState } F)) ∧
  (∀ h T s, let F := atFetch 0x0204 h [] s
    let id := h.txn % 2 ^ 32
    pktRuns 0x0204 h [] s = true → id ≠ 0 → id ≠ fwId → findTxn F id = some T → T.phase = .open_ →
    Answers (.opTxnStatus h []) 0x0204 h [] s { result := List.replicate 24 0, rlen := 24 } F)

/-- R99, R100, R260: an idle OPEN or FAILED transaction closes with ST_TIMEOUT; a packet without completion in time completes with
ST_TIMEOUT, counts and raises EVT_CMD_TIMEOUT, and what completes later is dropped; the next completion is posted, and an ST_ACCEPTED
puts its transaction in order; the firmware's transaction is accepted at once. -/
def Obligations.TransactionTimersAndCompletions : Prop :=
  (∀ id T (s : State), let due := T.used + s.field R.cmdTxnIdle 15 0 * 1250000
    findTxn s id = some T → T.phase = .open_ ∨ T.phase = .failed → s.dueOk due = true →
    Gives (.txnIdleTimeout id) s (closeTxn { s with clk := max s.clk due } T stTimeout s.cm.epoch)) ∧
  (∀ num f (s : State), s.cmd.fetched.find? (fun f => f.num == num && !f.dead && decide (f.reply.cq < 32)) = some f →
    s.dueOk f.due = true → ∃ v : State, Gives (.cmdTimeout num) s ((v.inc R.cmdCntTimeout).evt R.cmdEvtStatus 3) ∧
      ∀ g ∈ v.cmd.fetched, g.num = num → g.dead = true) ∧
  (∀ f (s : State), nextPost s.cmd.fetched = some f → f.dead = true →
    Gives .completionPosted s ((unfence (dropFetched s f.num) f.reply.sq).inc R.cmdCntLateCpl)) ∧
  (∀ f c (s : State), nextPost s.cmd.fetched = some f → f.dead = false → f.cpl = some c → f.reply.cq < 32 →
    let v := unfence (dropFetched s f.num) f.reply.sq
    let w := match f.rbuf with
      | some (a, d) => v.emit (.host a d)
      | none => v
    let x := postEntry w f.reply c (if c.final then f.resv else 1)
    Gives .completionPosted s (match f.accepts with
      | some n => orderAccepted x n
      | none => x)) ∧
  (∀ T (s : State), fwOpen s = some T → T.packets ≠ [] →
    Gives .fwTxnCommit s (orderAccepted (s.putTxn { T with phase := .accepted }) T.num))

/-! ### Rings and the network path: chapter 08 -/

/-- R240, R241, R243, R245, R248: a doorbell below the ring's size moves the tail of an enabled submission ring, or the head of a
completion ring within its used entries; another is ignored, counted, and raises EVT_CMD_DB. Enabling a ring that meets the conditions
stores its configuration and starts it empty; one that does not leaves it disabled and raises EVT_CMD_CFG; disabling a ring stops it
where it stands, but a completion ring with entries reserved stays enabled. -/
def Obligations.RingRegisters : Prop :=
  (∀ n (val : Word) (s : State), n < 32 → ringEn s false n = true → val.toNat % 4096 < ringSize s false n →
    val.toNat % 4096 ≠ ringTail s false n → Gives (.sqDoorbell n val) s
      ((s.setNat (sqReg n 0x10) (val.toNat % 4096)).setSq n { sqSt s n with partPkt := false })) ∧
  (∀ n (val : Word) (s : State), n < 32 → ringEn s false n = true → ringSize s false n ≤ val.toNat % 4096 →
    Gives (.sqDoorbell n val) s ((s.inc R.cmdCntBadDb).evt R.cmdEvtStatus 0)) ∧
  (∀ n (val : Word) (s : State), n < 32 → ringEn s false n = false → Gives (.sqDoorbell n val) s s) ∧
  (∀ n (val : Word) (s : State), n < 32 → ringEn s true n = true → val.toNat % 4096 < ringSize s true n →
    (val.toNat % 4096 + ringSize s true n - ringHead s true n) % ringSize s true n ≤ ringUsed s true n →
    Gives (.cqDoorbell n val) s (unblock (s.setNat (cqReg n 0xC) (val.toNat % 4096)) n)) ∧
  (∀ n (val : Word) (s : State), n < 32 → ringEn s true n = true → ringSize s true n ≤ val.toNat % 4096 →
    Gives (.cqDoorbell n val) s ((s.inc R.cmdCntBadDb).evt R.cmdEvtStatus 0)) ∧
  (∀ isCq n (val : Word) (s : State), n < 32 → ringEn s isCq n = false → bit val 0 = true → ringOk s isCq n val = true →
    let v := ((s.setReg (ringReg isCq n 8) (val &&& (if isCq then 0xF07 else 0x1F3F03))).setReg (ringReg isCq n 0xC) 0).setReg
      (ringReg isCq n 0x10) 0
    Gives (.ringEnable isCq n val) s (if isCq then v.setCq n {} else v.setSq n {})) ∧
  (∀ isCq n (val : Word) (s : State), n < 32 → ringEn s isCq n = false → bit val 0 = true → ringOk s isCq n val = false →
    Leaves (.ringEnable isCq n val) s fun t => ringEn t isCq n = false ∧ t.bit R.cmdEvtStatus 1 = true ∧ t.cmd = s.cmd) ∧
  (∀ isCq n (val : Word) (s : State), n < 32 → ringEn s isCq n = true → bit val 0 = false →
    (isCq = true → (cqSt s n).resv = 0) → Gives (.ringDisable isCq n val) s (s.setBit (ringReg isCq n 8) 0 false)) ∧
  (∀ n (val : Word) (s : State), n < 32 → ringEn s true n = true → bit val 0 = false → (cqSt s n).resv ≠ 0 →
    Gives (.ringDisable true n val) s (s.evt R.cmdEvtStatus 1))

/-- R271, R272, R273: the network path is not enabled without a key; writing a key word ends the session; a hello that verifies opens
a new session under the next number and is answered; a datagram that fails its size or its tag, or repeats a sequence number, is
counted and dropped, and one that is accepted raises the last sequence number. -/
def Obligations.NetworkPath : Prop :=
  (∀ (val : Word) (s : State), bit val 0 = false ∨ netKeyZero s = false →
    Gives (.netPathEnable val) s (s.setReg R.cmdNetCtrl (val &&& 0x0FFFFF81))) ∧
  (∀ (val : Word) (s : State), bit val 0 = true → netKeyZero s = true →
    Gives (.netPathEnable val) s (s.evt R.cmdEvtStatus 1)) ∧
  (∀ i (val : Word) (s : State), i < 8 → Gives (.netKeyWrite i val) s (({ s with cmd := { s.cmd with
    key := s.cmd.key.setIfInBounds i val, netTx := 0 } } : State).setReg R.cmdNetSession 0)) ∧
  (∀ (d : Dgram) (s : State), onNetPath s d = true → d.ok = true →
    let len := leNat ((d.payload.drop 14).take 2)
    let good := (d.payload.drop (24 + len)).take 16 =
      (hmac (bytesOfWords s.cmd.key.toList) (d.payload.take (24 + len))).take 16
    let ses := leNat (d.payload.take 4)
    let seq := leNat ((d.payload.drop 4).take 4)
    let pkt := (d.payload.drop 8).take (16 + len)
    (d.udpLen ≠ 48 + len → Gives (.netCommandDatagram d) s (s.inc R.cmdNetCntDrop)) ∧
    (d.udpLen = 48 + len → d.payload.length = 40 + len → ¬ good →
      Gives (.netCommandDatagram d) s ((s.inc R.cmdNetCntAuth).evt R.cmdEvtStatus 4)) ∧
    (d.udpLen = 48 + len → d.payload.length = 40 + len → good → ses ≠ 0 → ses ≠ s.regNat R.cmdNetSession ∨
        seq ≤ s.regNat R.cmdNetSeq → Gives (.netCommandDatagram d) s (s.inc R.cmdNetCntReplay)) ∧
    (d.udpLen = 48 + len → d.payload.length = 40 + len → good → ses ≠ 0 → ses = s.regNat R.cmdNetSession →
        s.regNat R.cmdNetSeq < seq →
      Gives (.netCommandDatagram d) s (netSubmit (s.setNat R.cmdNetSeq seq) d pkt)) ∧
    (d.udpLen = 48 + len → d.payload.length = 40 + len → good → ses = 0 → leNat ((pkt.drop 2).take 2) = 0x0101 →
      Leaves (.hello d) s fun t => t.jnl.store.session = s.jnl.store.session + 1 ∧
        t.reg R.cmdNetSession = wd (s.jnl.store.session + 1) ∧ t.reg R.cmdNetSeq = wd seq ∧ t.reg R.cmdNetPeer = wd d.srcIp ∧
        t.cmd.netPort = d.srcUdp ∧ t.cmd.netTx = 1 ∧ t.cmd.netOut.length = s.cmd.netOut.length + 1))

/-- R242, R246, R249, R251, R254, R279: a fetch from a ring whose turn it is: a failed read stops the ring with EVT_CMD_FETCH; a packet
that is not complete in the ring, or does not fit what is left of the tick's fetch budget, waits; one of another format version takes
its slots and completes with ST_BAD_OPCODE. -/
def Obligations.PacketFetch : Prop :=
  (∀ n (s : State), s.dieRuns = true → n < 32 → nextRing s = some n → ringLoc s false n = false →
    Gives (.packetFetch n []) s (((s.setBit (sqReg n 8) 0 false).setSq n { sqSt s n with fetchErr := true }).evt R.cmdEvtStatus 2)) ∧
  (∀ n bytes (s : State), s.dieRuns = true → n < 32 → nextRing s = some n → ringLoc s false n = false → bytes ≠ [] →
    ringUsed s false n < packetSlots (fld (wAt (wordsOf (bytes.take 16)) 1) 31 16) →
    Gives (.packetFetch n bytes) s (s.setSq n { sqSt s n with partPkt := true })) ∧
  (∀ n bytes (s : State), s.dieRuns = true → n < 32 → nextRing s = some n → ringLoc s false n = false → bytes ≠ [] →
    let slots := packetSlots (fld (wAt (wordsOf (bytes.take 16)) 1) 31 16)
    slots ≤ ringUsed s false n → s.cmd.slots ≠ 0 → s.field R.cmdFetchBudget 12 0 < s.cmd.slots + slots →
    Gives (.packetFetch n bytes) s (s.setSq n { sqSt s n with noFit := true })) ∧
  (∀ n bytes (s : State), s.dieRuns = true → n < 32 → nextRing s = some n → ringLoc s false n = false → bytes ≠ [] →
    let w := wordsOf (bytes.take 16)
    let slots := packetSlots (fld (wAt w 1) 31 16)
    slots ≤ ringUsed s false n → s.cmd.slots = 0 → fld (wAt w 0) 7 0 ≠ 1 → bit (wAt w 0) 8 = false →
    ringEn s true (boundCq s n) = true → 2 ≤ cqFree s (boundCq s n) →
    Leaves (.packetFetch n bytes) s fun t =>
      t.cmd.slots = slots ∧ ringHead t false n = (ringHead s false n + slots) % ringSize s false n ∧
      ∃ f, t.cmd.fetched = s.cmd.fetched ++ [f] ∧ f.num = s.cmd.fetchNum ∧ f.reply.sq = n ∧
        f.reply.tag = fld (wAt w 1) 15 0 ∧ f.cpl = some { status := stBadOpcode })


/-! ### Effect cores: chapter 07 -/

/-- R206, R210, R215: AND, OR, XOR, MIN, MAX and MOV, and the immediate forms of the first five, write their result, set Z and N
from it and clear C and V; nothing else of the core changes but what the moves and updates beside them write. -/
def Obligations.EcLogicResults : Prop :=
  (∀ row ∈ logicRows, ∀ core d x y q s, d < 16 → pReady core q s = true →
    ∃ e t, exec (row.1 core d x y q) s = .next t ∧ Settled (coreNow core e s) t ∧
      let c := ecAt core s
      let r := row.2 (c.dr x) (c.dr y)
      e.dr d = r ∧ zn e r ∧ e.c = false ∧ e.v = false ∧ dataKept d c e ∧ accKept c e ∧ e.dec = c.dec ∧ PKeeps q c e) ∧
  (∀ core d x q s, d < 16 → pReady core q s = true →
    ∃ e t, exec (.mov core d x q) s = .next t ∧ Settled (coreNow core e s) t ∧
      let c := ecAt core s
      let r := c.dr x
      e.dr d = r ∧ zn e r ∧ e.c = false ∧ e.v = false ∧ dataKept d c e ∧ accKept c e ∧ e.dec = c.dec ∧ PKeeps q c e) ∧
  (∀ row ∈ logicImmRows, ∀ core d x v s, d < 16 → xReady core s = true →
    ∃ e t, exec (row.1 core d x v) s = .next t ∧ Settled (coreNow core e s) t ∧
      let c := ecAt core s
      let r := row.2 (c.dr x) v
      e.dr d = r ∧ zn e r ∧ e.c = false ∧ e.v = false ∧ dataKept d c e ∧ accKept c e ∧ e.dec = c.dec ∧ PKeeps {} c e)

/-- R206, R210, R215: ADD and SUB write the 32-bit sum or difference, CMP and CMPI only set flags; Z and N come from the result,
V tells that the signed result does not fit, and C of an addition is the carry out of bit 31. C of a subtraction is the borrow or
its complement: the spec does not say which (`Config.subCarryIsBorrow`, open). -/
def Obligations.EcAddAndCompare : Prop :=
  (∀ core d x y q s, d < 16 → pReady core q s = true →
    ∃ e t, exec (.add core d x y q) s = .next t ∧ Settled (coreNow core e s) t ∧
      let c := ecAt core s
      let r := c.dr x + c.dr y
      e.dr d = r ∧ zn e r ∧ e.c = decide (2 ^ 32 ≤ (c.dr x).toNat + (c.dr y).toNat) ∧
      e.v = decide ((c.dr x).toInt + (c.dr y).toInt ≠ r.toInt) ∧ dataKept d c e ∧ accKept c e ∧ e.dec = c.dec ∧ PKeeps q c e) ∧
  (∀ core d x y q s, d < 16 → pReady core q s = true →
    ∃ e t, exec (.sub core d x y q) s = .next t ∧ Settled (coreNow core e s) t ∧
      let c := ecAt core s
      let r := c.dr x - c.dr y
      e.dr d = r ∧ zn e r ∧ e.c = (decide ((c.dr x).toNat < (c.dr y).toNat) == Config.subCarryIsBorrow) ∧
      e.v = decide ((c.dr x).toInt - (c.dr y).toInt ≠ r.toInt) ∧ dataKept d c e ∧ accKept c e ∧ e.dec = c.dec ∧ PKeeps q c e) ∧
  (∀ core x y q s, pReady core q s = true →
    ∃ e t, exec (.cmp core x y q) s = .next t ∧ Settled (coreNow core e s) t ∧
      let c := ecAt core s
      let r := c.dr x - c.dr y
      e.d = c.d ∧ zn e r ∧ e.c = (decide ((c.dr x).toNat < (c.dr y).toNat) == Config.subCarryIsBorrow) ∧
      e.v = decide ((c.dr x).toInt - (c.dr y).toInt ≠ r.toInt) ∧ accKept c e ∧ e.dec = c.dec ∧ PKeeps q c e) ∧
  (∀ core d x v s, d < 16 → xReady core s = true →
    ∃ e t, exec (.addi core d x v) s = .next t ∧ Settled (coreNow core e s) t ∧
      let c := ecAt core s
      let r := c.dr x + v
      e.dr d = r ∧ zn e r ∧ e.c = decide (2 ^ 32 ≤ (c.dr x).toNat + v.toNat) ∧
      e.v = decide ((c.dr x).toInt + v.toInt ≠ r.toInt) ∧ dataKept d c e ∧ accKept c e ∧ e.dec = c.dec ∧ PKeeps {} c e) ∧
  (∀ core x v s, xReady core s = true →
    ∃ e t, exec (.cmpi core x v) s = .next t ∧ Settled (coreNow core e s) t ∧
      let c := ecAt core s
      let r := c.dr x - v
      e.d = c.d ∧ zn e r ∧ e.c = (decide ((c.dr x).toNat < v.toNat) == Config.subCarryIsBorrow) ∧
      e.v = decide ((c.dr x).toInt - v.toInt ≠ r.toInt) ∧ accKept c e ∧ e.dec = c.dec ∧ PKeeps {} c e)

/-- R206, R215: ADDS, SUBS, ABS, NEG and ADDSI write the exact result limited to 32 bits; when it had to be limited V is 1 and SAT sets;
C keeps its value. SHIFT by an amount n below 32, from the immediate or from the low bits of a register: LSL, LSR and ASR write the
shifted word, clear V and leave in C the last bit shifted out (nothing is said here of C for n = 0); ASLS saturates. -/
def Obligations.EcSaturatingAndShiftResults : Prop :=
  (∀ row ∈ satRows, ∀ core d x y q s, d < 16 → pReady core q s = true →
    ∃ e t, exec (row.1 core d x y q) s = .next t ∧ Settled (coreNow core e s) t ∧
      let c := ecAt core s
      let i := row.2 (c.dr x).toInt (c.dr y).toInt
      satWrites d i c e ∧ dataKept d c e ∧ accKept c e ∧ e.dec = c.dec ∧ PKeeps q c e) ∧
  (∀ row ∈ satRows1, ∀ core d x q s, d < 16 → pReady core q s = true →
    ∃ e t, exec (row.1 core d x q) s = .next t ∧ Settled (coreNow core e s) t ∧
      let c := ecAt core s
      let i := row.2 (c.dr x).toInt
      satWrites d i c e ∧ dataKept d c e ∧ accKept c e ∧ e.dec = c.dec ∧ PKeeps q c e) ∧
  (∀ core d x v s, d < 16 → xReady core s = true →
    ∃ e t, exec (.addsi core d x v) s = .next t ∧ Settled (coreNow core e s) t ∧
      let c := ecAt core s
      let i := (c.dr x).toInt + v.toInt
      satWrites d i c e ∧ dataKept d c e ∧ accKept c e ∧ e.dec = c.dec ∧ PKeeps {} c e) ∧
  (∀ core kind d x amt q s, kind < 4 → d < 16 → pReady core q s = true →
    ∃ e t, exec (.shift core kind d x amt q) s = .next t ∧ Settled (coreNow core e s) t ∧
      let c := ecAt core s
      let n := match amt with
        | .imm k => k % 32
        | .reg r => (c.dr r).toNat % 32
      let w := c.dr x
      (kind = 0 → e.dr d = w <<< n ∧ zn e (w <<< n) ∧ e.v = false ∧ (0 < n → e.c = w.toNat.testBit (32 - n))) ∧
      (kind = 1 → e.dr d = w >>> n ∧ zn e (w >>> n) ∧ e.v = false ∧ (0 < n → e.c = w.toNat.testBit (n - 1))) ∧
      (kind = 2 → e.dr d = w.sshiftRight n ∧ zn e (w.sshiftRight n) ∧ e.v = false ∧ (0 < n → e.c = w.toNat.testBit (n - 1))) ∧
      (kind = 3 → satWrites d (w.toInt * 2 ^ n) c e) ∧
      dataKept d c e ∧ accKept c e ∧ e.dec = c.dec ∧ PKeeps q c e)

/-- R206, R211, R212: what MPY, MAC, DMPY, DMAC, CMAC and FIR4 leave in the accumulators they name: the exact sum of exact products,
clamped or wrapped at 72 bits as ACC_CLAMP says; the other accumulators, the data registers and the flags keep their values. -/
def Obligations.EcProductsAccumulate : Prop :=
  (∀ core a x y neg q s, a < 4 → pReady core q s = true →
    ∃ e t, exec (.mpy core a x y neg q) s = .next t ∧ Settled (coreNow core e s) t ∧
      let c := ecAt core s
      e.ac a = accRes (clampOf core s) (signed neg (c.di x * c.di y)) ∧ (∀ j, j ≠ a → e.ac j = c.ac j) ∧
      dataStays c e ∧ PKeeps q c e) ∧
  (∀ core a x y neg q s, a < 4 → pReady core q s = true →
    ∃ e t, exec (.mac core a x y neg q) s = .next t ∧ Settled (coreNow core e s) t ∧
      let c := ecAt core s
      e.ac a = accRes (clampOf core s) (c.ac a + signed neg (c.di x * c.di y)) ∧ (∀ j, j ≠ a → e.ac j = c.ac j) ∧
      dataStays c e ∧ PKeeps q c e) ∧
  (∀ core h x0 y0 x1 y1 q s, h < 2 → pReady core q s = true →
    ∃ e t, exec (.dmpy core h x0 y0 x1 y1 q) s = .next t ∧ Settled (coreNow core e s) t ∧
      let c := ecAt core s
      e.ac (2 * h) = accRes (clampOf core s) (c.di x0 * c.di y0) ∧
      e.ac (2 * h + 1) = accRes (clampOf core s) (c.di x1 * c.di y1) ∧
      (∀ j, j ≠ 2 * h → j ≠ 2 * h + 1 → e.ac j = c.ac j) ∧ dataStays c e ∧ PKeeps q c e) ∧
  (∀ core h x0 y0 x1 y1 q s, h < 2 → pReady core q s = true →
    ∃ e t, exec (.dmac core h x0 y0 x1 y1 q) s = .next t ∧ Settled (coreNow core e s) t ∧
      let c := ecAt core s
      e.ac (2 * h) = accRes (clampOf core s) (c.ac (2 * h) + c.di x0 * c.di y0) ∧
      e.ac (2 * h + 1) = accRes (clampOf core s) (c.ac (2 * h + 1) + c.di x1 * c.di y1) ∧
      (∀ j, j ≠ 2 * h → j ≠ 2 * h + 1 → e.ac j = c.ac j) ∧ dataStays c e ∧ PKeeps q c e) ∧
  (∀ core u v h conj clr q s, h < 2 → pReady core q s = true →
    ∃ e t, exec (.cmac core u v h conj clr q) s = .next t ∧ Settled (coreNow core e s) t ∧
      let c := ecAt core s
      let yi := signed conj (c.di (2 * v + 1))
      e.ac (2 * h) = accRes (clampOf core s)
        ((if clr then 0 else c.ac (2 * h)) + (c.di (2 * u) * c.di (2 * v) - c.di (2 * u + 1) * yi)) ∧
      e.ac (2 * h + 1) = accRes (clampOf core s)
        ((if clr then 0 else c.ac (2 * h + 1)) + (c.di (2 * u) * yi + c.di (2 * u + 1) * c.di (2 * v))) ∧
      (∀ j, j ≠ 2 * h → j ≠ 2 * h + 1 → e.ac j = c.ac j) ∧ dataStays c e ∧ PKeeps q c e) ∧
  (∀ core x k neg clr q s, pReady core q s = true →
    ∃ e t, exec (.fir4 core x k neg clr q) s = .next t ∧ Settled (coreNow core e s) t ∧
      let c := ecAt core s
      (∀ j, j < 4 → e.ac j = accRes (clampOf core s) ((if clr then 0 else c.ac j) + signed neg (c.di x * c.di (4 * k + j)))) ∧
      dataStays c e ∧ PKeeps q c e)

/-- R206, R212, R214: ACLR clears the accumulators of its mask, AADD adds or subtracts, ASH shifts, ALD loads a data register, and
ARND writes a data register with the conversion of an accumulator as the last cycle but one left it. -/
def Obligations.EcAccumulatorOps : Prop :=
  (∀ core mask q s, pReady core q s = true →
    ∃ e t, exec (.aclr core mask q) s = .next t ∧ Settled (coreNow core e s) t ∧
      let c := ecAt core s
      (∀ j, j < 4 → e.ac j = if mask.testBit j then 0 else c.ac j) ∧ dataStays c e ∧ PKeeps q c e) ∧
  (∀ core d x sub q s, d < 4 → pReady core q s = true →
    ∃ e t, exec (.aadd core d x sub q) s = .next t ∧ Settled (coreNow core e s) t ∧
      let c := ecAt core s
      e.ac d = accRes (clampOf core s) (c.ac d + signed sub (c.ac x)) ∧ (∀ j, j ≠ d → e.ac j = c.ac j) ∧
      dataStays c e ∧ PKeeps q c e) ∧
  (∀ core d x n q s, d < 4 → pReady core q s = true →
    ∃ e t, exec (.ash core d x n q) s = .next t ∧ Settled (coreNow core e s) t ∧
      let c := ecAt core s
      (0 ≤ n → e.ac d = accRes (clampOf core s) (c.ac x * 2 ^ n.toNat)) ∧
      (n < 0 → e.ac d = accRes (clampOf core s) ((c.ac x).fdiv (2 ^ (-n).toNat))) ∧ (∀ j, j ≠ d → e.ac j = c.ac j) ∧
      dataStays c e ∧ PKeeps q c e) ∧
  (∀ core a d q s, a < 4 → pReady core q s = true →
    ∃ e t, exec (.ald core a d q) s = .next t ∧ Settled (coreNow core e s) t ∧
      let c := ecAt core s
      e.ac a = accRes (clampOf core s) (c.di d * 2 ^ 31) ∧ (∀ j, j ≠ a → e.ac j = c.ac j) ∧ dataStays c e ∧ PKeeps q c e) ∧
  (∀ core d a sh q s, d < 16 → pReady core q s = true →
    ∃ e t, exec (.arnd core d a sh q) s = .next t ∧ Settled (coreNow core e s) t ∧
      let c := ecAt core s
      let r := rne (c.aS.toList.getD a 0 * 2 ^ sh) 31
      e.dr d = wdI (sat32 r) ∧ (sat32 r ≠ r → e.sat = true) ∧ dataKept d c e ∧ accKept c e ∧ e.dec = c.dec ∧
      e.z = c.z ∧ e.n = c.n ∧ e.v = c.v ∧ e.c = c.c ∧ PKeeps q c e)

/-- R216: one trellis butterfly, and a single select; a tie keeps the first candidate, and the decisions shift into DEC. -/
def Obligations.EcAddCompareSelect : Prop :=
  (∀ core ma mb bm k min q s, k < 8 → pReady core q s = true →
    ∃ e t, exec (.acs2 core ma mb bm k min q) s = .next t ∧ Settled (coreNow core e s) t ∧
      let c := ecAt core s
      let c00 := c.dr ma + c.dr bm
      let c01 := c.dr mb - c.dr bm
      let c10 := c.dr ma - c.dr bm
      let c11 := c.dr mb + c.dr bm
      let s0 := beats min c01 c00
      let s1 := beats min c11 c10
      e.dr (2 * k) = (if s0 then c01 else c00) ∧ e.dr (2 * k + 1) = (if s1 then c11 else c10) ∧
      e.dec = ((c.dec <<< 2) ||| wd (2 * b2n s0 + b2n s1)) ∧ (∀ j, j ≠ 2 * k → j ≠ 2 * k + 1 → e.dr j = c.dr j) ∧
      accKept c e ∧ e.z = c.z ∧ e.n = c.n ∧ e.v = c.v ∧ e.c = c.c ∧ PKeeps q c e) ∧
  (∀ core dst s0 s1 bm min q s, dst < 16 → pReady core q s = true →
    ∃ e t, exec (.acs1 core dst s0 s1 bm min q) s = .next t ∧ Settled (coreNow core e s) t ∧
      let c := ecAt core s
      let c0 := c.dr s0 + c.dr bm
      let c1 := c.dr s1
      e.dr dst = (if beats min c1 c0 then c1 else c0) ∧ e.dec = ((c.dec <<< 1) ||| wd (b2n (beats min c1 c0))) ∧
      dataKept dst c e ∧ accKept c e ∧ e.z = c.z ∧ e.n = c.n ∧ e.v = c.v ∧ e.c = c.c ∧ PKeeps q c e)

/-- R207, R208, R217, R223: a NOP and the four rows of an empty slot A: a load is on its way to its register, seen from the second
cycle after; a store is in data memory, the store of an accumulator after conversion; an update moves its pointer round the ring of
its wrap register. -/
def Obligations.EcMovesAndUpdates : Prop :=
  (∀ core q s, pReady core q s = true →
    ∃ e t, exec (.nop core q) s = .next t ∧ Settled (coreNow core e s) t ∧
      dataStays (ecAt core s) e ∧ accKept (ecAt core s) e ∧ PKeeps q (ecAt core s) e) ∧
  (∀ core d p m1 u0 u1 s, pReady core { m0 := .ld d p, m1 := m1, u0 := u0, u1 := u1 } s = true →
    ∃ e t, exec (.ld core d p m1 u0 u1) s = .next t ∧ Settled (coreNow core e s) t ∧
      let c := ecAt core s
      (c.covered (c.pr p) = false → (c.cyc + 2, c.cyc, EcWrite.d d (c.word (c.pr p))) ∈ e.late) ∧
      dataStays c e ∧ accKept c e ∧ PKeeps { m0 := .ld d p, m1 := m1, u0 := u0, u1 := u1 } c e) ∧
  (∀ core d p m1 u0 u1 s, pReady core { m0 := .st d p, m1 := m1, u0 := u0, u1 := u1 } s = true →
    ∃ e t, exec (.st core d p m1 u0 u1) s = .next t ∧ Settled (coreNow core e s) t ∧
      let c := ecAt core s
      (storesAt { m0 := m1 } c (c.pr p) = false → e.word (c.pr p) = c.dr d) ∧
      dataStays c e ∧ accKept c e ∧ PKeeps { m0 := .st d p, m1 := m1, u0 := u0, u1 := u1 } c e) ∧
  (∀ core a sh p m1 u0 u1 s, pReady core { m0 := .sta a sh p, m1 := m1, u0 := u0, u1 := u1 } s = true →
    ∃ e t, exec (.sta core a sh p m1 u0 u1) s = .next t ∧ Settled (coreNow core e s) t ∧
      let c := ecAt core s
      let r := rne (c.aS.toList.getD a 0 * 2 ^ sh) 31
      (storesAt { m0 := m1 } c (c.pr p) = false → e.word (c.pr p) = wdI (sat32 r)) ∧ (sat32 r ≠ r → e.sat = true) ∧
      dataStays c e ∧ accKept c e ∧ PKeeps { m0 := .sta a sh p, m1 := m1, u0 := u0, u1 := u1 } c e) ∧
  (∀ core n op u1 s, n < 8 → pReady core { u0 := .upd n op, u1 := u1 } s = true →
    ∃ e t, exec (.addressUpdate core n op u1) s = .next t ∧ Settled (coreNow core e s) t ∧
      let c := ecAt core s
      (updates { u0 := u1 } n = false → e.pr n = ringStep (c.pr n) (stepOf c n op) (c.wr n)) ∧
      dataStays c e ∧ accKept c e ∧ PKeeps { u0 := .upd n op, u1 := u1 } c e)

/-- R209, R217, R219 to R222: BR, CALL and RET take the branch when the condition holds, after two delay slots; CALL pushes the index
after the second, RET pops. RPT repeats the next instruction and LOOP opens a loop; with a count of 0 each skips what it would
repeat. -/
def Obligations.EcControlFlow : Prop :=
  (∀ core cond target s, flowReady core 1 s = true →
    let c := ecAt core s
    Gives (.br core cond target) s (coreNow core (spent 1 c (branched (c.cond cond) target c)) s)) ∧
  (∀ core cond target s, flowReady core 1 s = true → (ecAt core s).cond cond = false ∨ (ecAt core s).stack.length < 8 →
    let c := ecAt core s
    let e := branched (c.cond cond) target c
    Gives (.call core cond target) s (coreNow core (spent 1 c
      (if c.cond cond then { e with stack := (c.pc + 3) % 8192 :: c.stack } else e)) s)) ∧
  (∀ core cond s, flowReady core 1 s = true → (ecAt core s).cond cond = false →
    let c := ecAt core s
    Gives (.ret core cond) s (coreNow core (spent 1 c (branched false 0 c)) s)) ∧
  (∀ core cond x r s, flowReady core 1 s = true → (ecAt core s).cond cond = true → (ecAt core s).stack = x :: r →
    let c := ecAt core s
    Gives (.ret core cond) s (coreNow core (spent 1 c { branched true x c with stack := r }) s)) ∧
  (∀ core n s, flowReady core 2 s = true → let k := cntVal (ecAt core s) n
    0 < k → k ≤ 4096 →
    ∃ e, Gives (.rpt core n) s (coreNow core { e with rep := some k } s) ∧ GoesOn (ecAt core s) e ∧ e.rep = none ∧
      onlyFlow (ecAt core s) e) ∧
  (∀ core n s, flowReady core 2 s = true → cntVal (ecAt core s) n = 0 → (ecAt core s).loops = [] →
    let c := ecAt core s
    Gives (.rpt core n) s (coreNow core (spent 2 c { c with pc := ((c.pc + 1) % 8192 + 1) % 8192 }) s)) ∧
  (∀ core stop n s, flowReady core 1 s = true → let c := ecAt core s
    let k := cntVal c n % 65536
    k ≠ 0 → ecBodyOk c (c.pc + 1) stop = true → c.loops.length < 2 →
    Gives (.loop core stop n) s (coreNow core (spent 1 c { c with
      pc := (c.pc + 1) % 8192
      loops := { start := c.pc + 1, stop := stop, count := k } :: c.loops }) s)) ∧
  (∀ core stop n s, flowReady core 3 s = true → let c := ecAt core s
    cntVal c n % 65536 = 0 → ecBodyOk c (c.pc + 1) stop = true → c.loops = [] →
    Gives (.loop core stop n) s (coreNow core (spent 3 c { c with pc := (stop + 1) % 8192 }) s))

/-- R200, R204, R209, R215, R217: LDI and MOVC write the register they name: data registers, STATUS and DEC at once, p, g and w for
the second instruction after; CLRF clears GOV and SAT; SIGNAL rings the doorbell; XMOV joins a queue that has room; XWAIT waits for
the queue, and goes on when it is empty. -/
def Obligations.EcRegistersAndTransfers : Prop :=
  (∀ core id v s, id < 16 → cReady core 1 s = true →
    ∃ e, Gives (.ldi core id v) s (coreNow core e s) ∧ GoesOn (ecAt core s) e ∧ e.dr id = v ∧ dataKept id (ecAt core s) e ∧
      e.a = (ecAt core s).a ∧ e.p = (ecAt core s).p ∧ e.mem = (ecAt core s).mem) ∧
  (∀ core i v s, i < 8 → cReady core 1 s = true →
    ∃ e x, Gives (.ldi core (0x10 + i) v) s (coreNow core e s) ∧ GoesOn (ecAt core s) e ∧
      onlyFlow { ecAt core s with late := (ecAt core s).late ++ [x] } e ∧
      x = ((ecAt core s).cyc + 2, (ecAt core s).cyc, EcWrite.p i (v.toNat % 65536))) ∧
  (∀ core i v s, i < 8 → cReady core 1 s = true →
    ∃ e x, Gives (.ldi core (0x18 + i) v) s (coreNow core e s) ∧ GoesOn (ecAt core s) e ∧
      onlyFlow { ecAt core s with late := (ecAt core s).late ++ [x] } e ∧
      x = ((ecAt core s).cyc + 2, (ecAt core s).cyc, EcWrite.g i (signedOf 16 v.toNat))) ∧
  (∀ core i v s, i < 8 → cReady core 1 s = true →
    ∃ e x, Gives (.ldi core (0x20 + i) v) s (coreNow core e s) ∧ GoesOn (ecAt core s) e ∧
      onlyFlow { ecAt core s with late := (ecAt core s).late ++ [x] } e ∧
      x = ((ecAt core s).cyc + 2, (ecAt core s).cyc, EcWrite.w i v)) ∧
  (∀ core v s, cReady core 1 s = true →
    ∃ e, Gives (.ldi core 0x30 v) s (coreNow core e s) ∧ GoesOn (ecAt core s) e ∧
      e.z = v.getLsbD 0 ∧ e.n = v.getLsbD 1 ∧ e.v = v.getLsbD 2 ∧ e.c = v.getLsbD 3 ∧ e.sat = (ecAt core s).sat ∧
      e.gov = (ecAt core s).gov ∧ e.d = (ecAt core s).d ∧ e.dec = (ecAt core s).dec) ∧
  (∀ core v s, cReady core 1 s = true →
    ∃ e, Gives (.ldi core 0x31 v) s (coreNow core e s) ∧ GoesOn (ecAt core s) e ∧ onlyFlow { ecAt core s with dec := v } e) ∧
  (∀ core d x s, d < 16 → x < 16 → cReady core 1 s = true →
    ∃ e, Gives (.movc core d x) s (coreNow core e s) ∧ GoesOn (ecAt core s) e ∧ e.dr d = (ecAt core s).dr x ∧
      dataKept d (ecAt core s) e ∧ dataStays { ecAt core s with d := e.d } e ∧ accKept (ecAt core s) e) ∧
  (∀ core d i s, d < 16 → i < 8 → cReady core 1 s = true →
    ∃ e, Gives (.movc core d (0x10 + i)) s (coreNow core e s) ∧ GoesOn (ecAt core s) e ∧
      e.dr d = BitVec.ofNat 32 ((ecAt core s).pr i) ∧ dataKept d (ecAt core s) e) ∧
  (∀ core m s, cReady core 1 s = true →
    ∃ e, Gives (.clrf core m) s (coreNow core e s) ∧ GoesOn (ecAt core s) e ∧
      onlyFlow { ecAt core s with
        gov := (ecAt core s).gov && !m.testBit 0
        sat := (ecAt core s).sat && !m.testBit 1 } e) ∧
  (∀ core src s, cReady core 1 s = true →
    ∃ e, Gives (.signal core src) s (ringDoorbell (coreNow core e s) src) ∧ GoesOn (ecAt core s) e ∧
      onlyFlow (ecAt core s) e) ∧
  (∀ core d p out lines s, cReady core 1 s = true → let c := ecAt core s
    let cis := (c.dr d).toNat
    c.queue.length < 4 → 1 ≤ lines → lines ≤ 4096 → cis % 32 = 0 → c.pr p % 8 = 0 → c.pr p + 8 * lines ≤ 0x8000 →
    ∃ e, Gives (.xmov core d p out lines) s (coreNow core e s) ∧ GoesOn c e ∧
      onlyFlow { c with queue := c.queue ++ [{ out := out, cis := cis, loc := c.pr p, lines := lines }] } e) ∧
  (∀ core s, cReady core 1 s = true → (ecAt core s).queue = [] →
    ∃ e, Gives (.xwait core) s (coreNow core e s) ∧ GoesOn (ecAt core s) e ∧ onlyFlow (ecAt core s) e) ∧
  (∀ core s, cReady core 1 s = true → (ecAt core s).queue ≠ [] →
    Gives (.xwait core) s (coreNow core (spent 1 (ecAt core s) { ecAt core s with waiting := true }) s)) ∧
  (∀ core s, (s.ec core).active = true → (s.ec core).waiting = true → (s.ec core).queue = [] → (s.ec core).rep = none →
    ∃ e, Gives (.xwaitComplete core) s (s.setEc core { e with waiting := false }) ∧ GoesOn (s.ec core) e ∧ onlyFlow (s.ec core) e)

/-- R222, R226, R231 to R235: HALT ends the tick program and ECX_LAST_ISSUE shows its issue cycles; an illegal word faults with cause
1, a CALL with a full return stack with cause 4, a budget that the next instruction would pass is an overrun, a program still open at
the tick's end a late halt; each records the PC and raises its event. A handler is entered with PC, STATUS, DEC and loops saved,
and RETI restores them. A stop takes hold at the next boundary after its ramp. A transfer that completes leaves the queue. -/
def Obligations.EcEnds : Prop :=
  (∀ core s, flowReady core 1 s = true → (s.ec core).mode = .running → Leaves (.halt core) s fun t =>
    (t.ec core).mode = .halted ∧ (t.ec core).pc = (s.ec core).pc ∧ (t.ec core).issue = (s.ec core).issue + 1 ∧
    (t.ec core).d = (ecAt core s).d ∧ t.reg (ecReg core 0x1C) = BitVec.ofNat 32 ((s.ec core).issue + 1) ∧ t.tick = s.tick ∧ t.cm = s.cm) ∧
  (∀ core s, ecUp core s = true → ecFits core 1 s = true →
    Leaves (.illegalInstruction core) s (CoreStopped core 1 .fault 1 (s.ec core).pc s)) ∧
  (∀ core cond target s, flowReady core 1 s = true → (ecAt core s).cond cond = true → (ecAt core s).stack.length = 8 →
    Leaves (.call core cond target) s (CoreStopped core 1 .fault 4 (s.ec core).pc s)) ∧
  (∀ core s, core < 16 → (s.ec core).mode = .running → (s.ec core).waiting = false →
    (ecEnvOf s core).decl < (s.ec core).issue + ecNextCost (s.ec core) →
    Leaves (.ecOverrun core) s (CoreStopped core 0 .overrun (s.ec core).cause (s.ec core).pc s)) ∧
  (∀ core s, s.tickRuns = true → core < 16 → (s.ec core).mode = .running → Leaves (.lateHalt core) s fun t =>
    (t.ec core).mode = .fault ∧ (t.ec core).cause = 6 ∧ (t.ec core).pc = (s.ec core).pc ∧
    t.reg (ecReg core 0x2C) = BitVec.ofNat 32 (s.ec core).pc ∧ t.bit (ecReg core 0x4C) 0 = true ∧ t.cis.selfOk = false) ∧
  (∀ core d s, (s.ec core).stopDue = some d → d ≤ s.tick + 1 → (s.ec core).stopAt = none →
    Gives (.ecStopRampEnd core) s (s.setEc core { s.ec core with stopAt := some (s.tick + 1) })) ∧
  (∀ core x s, core < 16 → ecOpen (s.ec core) = true → (s.ec core).quota < s.field (ecReg core 0x18) 15 0 →
    irqCandidate s (core + 5) (fun _ => true) = some x →
    Leaves (.irqHandlerEntry core) s fun t =>
      (t.ec core).mode = .handler ∧ (t.ec core).quota = (s.ec core).quota + 2 ∧ (t.ec core).loops = [] ∧
      (t.ec core).word 0x7FFF = BitVec.ofNat 32 x ∧ irqStack t (core + 5) = (x, irqPrio s x) :: irqStack s (core + 5) ∧
      ∃ v, (t.ec core).save = some v ∧ v.pc = (s.ec core).pc ∧ v.status = (s.ec core).status ∧ v.dec = (s.ec core).dec ∧
        v.loops = (s.ec core).loops ∧ v.halted = decide ((s.ec core).mode = .halted)) ∧
  (∀ core v s, ecUp core s = true → (s.ec core).rep = none → (s.ec core).mode = .handler → (s.ec core).save = some v →
    Leaves (.reti core) s fun t =>
      (t.ec core).pc = v.pc ∧ (t.ec core).dec = v.dec ∧ (t.ec core).loops = v.loops ∧ (t.ec core).save = none ∧
      (t.ec core).mode = (if v.halted then .halted else .running) ∧ (t.ec core).z = v.status.getLsbD 0 ∧
      (t.ec core).quota = (s.ec core).quota + 3 ∧ (t.ec core).d = (ecAt core s).d ∧
      irqStack t (core + 5) = (irqStack s (core + 5)).tail) ∧
  (∀ core s, (s.ec core).queue = [] → Gives (.xmovComplete core) s s) ∧
  (∀ core x rest s, core < 16 → (s.ec core).queue = x :: rest → x.out = true → x.lines = 1 → x.inFlight = false →
    0x10000000 ≤ x.cis → x.cis < 0x18000000 → x.cis % 32 = 0 →
    reaches s (0x10 + core) ((x.cis - 0x10000000) / 0x80000) = true →
    MemWf s → Leaves (.xmovComplete core) s fun t => (t.ec core).queue = rest ∧ (t.ec core).d = (s.ec core).d ∧
      (t.ec core).mode = (s.ec core).mode ∧
      Wrote s t (x.cis - 0x10000000) (bytesOfWords ((List.range 8).map fun j => (s.ec core).word (x.loc + j))))
/-! ### Registers: chapters 00 and 17 -/

/-- R14, R516, R520, R522: one DWORD of a host write, by the register's access code: RW fields take the value, W1C bits written 1
clear, RO and WO registers without an effect of their own do not change, an RWE write waits for the commit; a write with a byte
missing is ignored and sets PARTIAL, one that reaches no register sets UNMAPPED, both with the offset; the MSI-X table takes every
enabled byte. -/
def Obligations.RegisterWrites : Prop :=
  (∀ a (val : Word) r (s : State), s.dieRuns = true → a % 4 = 0 → inMsix a = false → hostUnmapped a = false →
    rowAt a = some r → pokeSpecial a val s = none →
    (r.acc = .rw → Gives (.registerWrite a 15 val) s (s.setReg a ((s.reg a &&& ~~~(wd r.mask)) ||| (val &&& wd r.mask)))) ∧
    (r.acc = .w1c → Gives (.registerWrite a 15 val) s (s.setReg a (s.reg a &&& ~~~(val &&& wd r.mask)))) ∧
    (r.acc = .ro ∨ r.acc = .wo → Gives (.registerWrite a 15 val) s s) ∧
    (r.acc = .rwe → isFollower s = false → s.cmd.rwe.length < 4096 →
      Gives (.registerWrite a 15 val) s { s with cmd := { s.cmd with rwe := s.cmd.rwe ++ [(a, val, s.clk)] } })) ∧
  (∀ a be (val : Word) (s : State), s.dieRuns = true → a % 4 = 0 → inMsix a = false → hostUnmapped a = false → be % 16 ≠ 15 →
    Gives (.registerWrite a be val) s ((s.setBit R.glbErr 0 true).setNat R.glbErrAddr (a % 2 ^ 24))) ∧
  (∀ a (val : Word) (s : State), s.dieRuns = true → a % 4 = 0 → inMsix a = false → hostUnmapped a = true →
    Gives (.registerWrite a 15 val) s ((s.setBit R.glbErr 1 true).setNat R.glbErrAddr (a % 2 ^ 24))) ∧
  (∀ a (val : Word) (s : State), s.dieRuns = true → a % 4 = 0 → 0x8000 ≤ a → a < 0x8200 →
    Gives (.registerWrite a 15 val) s (s.setReg a val))

/-- R14, R102, R521: a host write to an RWE register joins the pending writes, at most 4,096; on a full list it sets PEND_FULL, on a
PARTNER or gang member FOLLOWER, and is ignored; GLB_RWE_CLR discards what waits and counts it. The committed value, which a read
returns, does not change. -/
def Obligations.PendingRegisterWrites : Prop :=
  (∀ a (val : Word) (s : State), s.dieRuns = true → isRwe a = true → isFollower s = false → s.cmd.rwe.length < 4096 →
    Gives (.rweWrite a val) s { s with cmd := { s.cmd with rwe := s.cmd.rwe ++ [(a, val, s.clk)] } }) ∧
  (∀ a (val : Word) (s : State), s.dieRuns = true → isRwe a = true → isFollower s = false → 4096 ≤ s.cmd.rwe.length →
    Gives (.rweWrite a val) s ((s.setBit R.glbErr 2 true).setNat R.glbErrAddr (a % 2 ^ 24))) ∧
  (∀ a (val : Word) (s : State), s.dieRuns = true → isRwe a = true → isFollower s = true → a / 2 ^ 16 ≠ 0xB →
    Gives (.rweWrite a val) s ((s.setBit R.glbErr 3 true).setNat R.glbErrAddr (a % 2 ^ 24))) ∧
  (∀ (val : Word) (s : State), s.dieRuns = true → val.toNat.testBit 0 = true →
    Gives (.glbRweClr val) s ({ s with cmd := { s.cmd with rwe := [] } }.inc R.glbCntRweDiscard s.cmd.rwe.length))

/-- R63 and the other tables of counters: a 1 in bit 0 of a clear register sets every counter of its list to zero and leaves every
other register; a 0 does nothing. -/
def Obligations.CounterClears : Prop :=
  (∀ a (val : Word) l (s : State), s.dieRuns = true → cntClears a = some l → val.toNat.testBit 0 = true →
    ∃ u, Gives (.counterClear a val) s u ∧ (∀ x ∈ l, u.reg x = 0) ∧ (∀ x, x ∉ l → u.reg x = s.reg x) ∧
      u = { s with regs := u.regs }) ∧
  (∀ a (val : Word) l (s : State), s.dieRuns = true → cntClears a = some l → val.toNat.testBit 0 = false →
    Gives (.counterClear a val) s s) ∧
  cntClears R.geoCntClr = some [R.geoCntKfLate, R.geoCntKfPassed, R.geoCntGap, R.geoCntExcl, R.geoCntGclamp, R.geoCntSlew,
    R.geoCntZone, R.geoCntFocus]

/-- R14, R381, R405, R517: a read returns the register's value, an RWE register's committed one; a latching register puts its
companion's value by for its requester, a companion returns what that requester last latched, TIM_NOW_LO latches the eight time
views, and TIM_CAP_LO takes the oldest capture, or returns all ones and leaves INFO's valid bit at zero when there is none. -/
def Obligations.RegisterReads : Prop :=
  (∀ req a (s : State), s.dieRuns = true → hostUnmapped a = false → claimTarget a = none → claimVec a = none → a ≠ R.timNowLo →
    capPart a = 0 → isCompanion a = false → latching a = false →
    Gives (.latchingRead req a) s (s.emit (.read req a (regValue s a)))) ∧
  (∀ req a (s : State), s.dieRuns = true → hostUnmapped a = false → claimTarget a = none → claimVec a = none → a ≠ R.timNowLo →
    capPart a = 0 → isCompanion a = false → latching a = true →
    Gives (.latchingRead req a) s ((setLatch s (min req fwReq) (a + 4) (s.reg (a + 4))).emit (.read req a (regValue s a)))) ∧
  (∀ req a (s : State), s.dieRuns = true → hostUnmapped a = false → claimTarget a = none → claimVec a = none → a ≠ R.timNowLo →
    capPart a ≠ 1 → isCompanion a = true →
    Gives (.latchingRead req a) s (s.emit (.read req a (latched s (min req fwReq) a)))) ∧
  (∀ req (s : State), s.dieRuns = true → ∃ u, Gives (.timNowRead req) s u ∧
    u = { s with latch := u.latch, outbox := .read req R.timNowLo s.stamp :: s.outbox } ∧
    timeViewRegs.map (latched u (min req fwReq)) = timeViews s ∧
    (∀ q a, q ≠ min req fwReq → a < 0x1000000 → latched u q a = latched s q a)) ∧
  (∀ req pin (s : State), s.dieRuns = true → pin < 16 → s.caps pin = [] →
    Gives (.timCapRead req pin) s ((setLatch s (min req fwReq) (capReg pin 0xC) 0).emit (.read req (capReg pin 4) 0xFFFFFFFF))) ∧
  (∀ req pin e rest (s : State), s.dieRuns = true → pin < 16 → s.caps pin = e :: rest →
    ∃ u, Gives (.timCapRead req pin) s u ∧ u.caps pin = rest ∧
      u = { s with latch := u.latch, tim := u.tim, outbox := .read req (capReg pin 4) (wd (e.t4 / 4)) :: s.outbox } ∧
      latched u (min req fwReq) (capReg pin 8) = wd (e.t4 / 4 / 2 ^ 32) ∧
      latched u (min req fwReq) (capReg pin 0xC) = wd (2 ^ 31 + (if e.falling then 16 else 0) + e.t4 % 4))

/-- R544: while HOLD is at least 12 V the SMBus target answers the thirteen codes: die values read all ones in reset and in boot
stages 1 and 2, the power stage's values always; every other code is not acknowledged. -/
def Obligations.SmbusAnswers : Prop :=
  (∀ code (s : State), s.pwr.retained = true → 0x0C < code → Gives (.smbusBlockRead code) s (s.emit (.smbusNak code))) ∧
  (∀ code (s : State), s.pwr.retained = true → code = 0 ∨ code = 1 ∨ code = 10 ∨ code = 11 ∨ code = 12 →
    (s.dieRuns = false ∨ bootStage s = 1 ∨ bootStage s = 2 →
      Gives (.smbusBlockRead code) s (s.emit (.smbus code 0xFFFFFFFF))) ∧
    (s.dieRuns = true → bootStage s ≠ 1 → bootStage s ≠ 2 →
      Gives (.smbusBlockRead code) s (s.emit (.smbus code (regValue s (if code = 0 then R.glbId else if code = 1 then R.pwrStatus
        else if code = 10 then R.svcDevidLo else if code = 11 then R.svcDevidHi else R.glbFwVer)))))) ∧
  (∀ s : State, s.pwr.retained = true →
    Gives (.smbusBlockRead 2) s (s.emit (.smbus 2 (wd s.pwr.cause))) ∧
    Gives (.smbusBlockRead 7) s (s.emit (.smbus 7 (s.reg R.pwrTj))) ∧
    Gives (.smbusBlockRead 8) s (s.emit (.smbus 8 (s.reg R.pwrTstage))) ∧
    Gives (.smbusBlockRead 9) s (s.emit (.smbus 9 (s.reg R.pwrTocxo))) ∧
    ∀ i, 3 ≤ i → i ≤ 6 → Leaves (.smbusBlockRead i) s fun t => ∃ v, t.outbox.contains (.smbus i v) = true ∧ t.pwr = s.pwr)

/-! ### Interrupts: chapter 10 -/

/-- R315, R316: a doorbell sets an enabled source's pending bit, counts a merge on one already pending, and does nothing to a disabled
one; a doorbell to group 15 and a write to a locked entry are ignored, counted, and set MSG_ERR; a write to another entry sets the
fields of IRQ_SRC_CFG. -/
def Obligations.IrqMessagesAndRouting : Prop :=
  (∀ (val : Word) (s : State), let src := val.toNat % 512
    src < 480 → s.isPend src = false → s.srcEn src = true → Gives (.irqDoorbell val) s (s.setPend src true)) ∧
  (∀ (val : Word) (s : State), let src := val.toNat % 512
    src < 480 → s.isPend src = false → s.srcEn src = false → Gives (.irqDoorbell val) s s) ∧
  (∀ (val : Word) (s : State), let src := val.toNat % 512
    src < 480 → s.isPend src = true → Gives (.irqDoorbell val) s (s.inc R.irqCntDbMerge)) ∧
  (∀ (val : Word) (s : State), 480 ≤ val.toNat % 512 → Gives (.irqDoorbell val) s (msgErr s)) ∧
  (∀ src (val : Word) (s : State), src < 480 → src ≠ 40 →
    Gives (.irqSrcCfgWrite src val) s (s.setReg (irqCfg src) (val &&& 0xC01F0F1F))) ∧
  (∀ src (val : Word) (s : State), src < 512 → src = 40 ∨ 480 ≤ src → Gives (.irqSrcCfgWrite src val) s (msgErr s))

/-- R320, R321, R323, R327: a pending, enabled and released source can be delivered when its priority exceeds the top of its target's
stack and a frozen stack's FREEZE_PRI, and the target takes it; a claim takes the target's candidate: its pending bit clears, it and its priority go on the stack, and the read
returns both; without a candidate it returns 1023, counts, and changes nothing else. IRQ_HOST_VCLAIM does the same among the host's
sources of one vector. -/
def Obligations.IrqClaims : Prop :=
  (∀ tgt src (s : State), ¬ (src = 40 ∧ tgt = 0) → (deliverable s tgt src = true ↔
    s.isPend src = true ∧ s.srcEn src = true ∧ s.irq.rel.contains src = true ∧ irqRoute s src = tgt ∧
    (∀ e ∈ (irqStack s tgt).head?, e.2 < irqPrio s src) ∧ (∀ e ∈ tabGet s.irq.frozen tgt, e.1 < irqPrio s src) ∧
    (5 ≤ tgt → ecTakes s (tgt - 5) (irqWake s src) = true))) ∧
  (∀ tgt x (s : State), tgt ≤ 20 → Candidate s tgt (fun _ => true) x →
    Gives (.irqClaim tgt) s ((claimed s tgt x).emit (.read 0 (R.irqClaim + 0x20 * tgt) (wd (irqPrio s x * 65536 + x))))) ∧
  (∀ tgt (s : State), tgt ≤ 20 → NoCandidate s tgt (fun _ => true) →
    Gives (.irqClaim tgt) s ((s.inc R.irqCntEmpty).emit (.read 0 (R.irqClaim + 0x20 * tgt) 0x3FF))) ∧
  (∀ vec x (s : State), vec < 32 → Candidate s 0 (fun y => irqVec s y == vec) x →
    Gives (.irqHostVclaim vec) s ((claimed s 0 x).emit (.read 0 (R.irqHostVclaim + 4 * vec) (wd (irqPrio s x * 65536 + x))))) ∧
  (∀ vec (s : State), vec < 32 → NoCandidate s 0 (fun y => irqVec s y == vec) →
    Gives (.irqHostVclaim vec) s ((s.inc R.irqCntEmpty).emit (.read 0 (R.irqHostVclaim + 4 * vec) 0x3FF)))

/-- R324, R325, R326, R327: completing the top entry pops it, unless it is frozen; naming a frozen entry, or 1023, does nothing; any
other number is an order fault: the stack stays, freezes at its top priority, IRQ_FAULT_INFO records it and ORDER sets; a source at
or below a frozen stack's priority is not delivered. RESUME
unfreezes the stack as it stands, DISCARD empties it, and source 40 stops pending when no target is frozen. -/
def Obligations.IrqCompletion : Prop :=
  (∀ tgt (val : Word) x p rest (s : State), tgt ≤ 20 → irqStack s tgt = (x, p) :: rest → tabGet s.irq.frozen tgt = none →
    val.toNat % 1024 = x → x ≠ 1023 → Gives (.irqComplete tgt val) s (s.setStack tgt rest)) ∧
  (∀ tgt (val : Word) (s : State), val.toNat % 1024 = 1023 → Gives (.irqComplete tgt val) s s) ∧
  (∀ tgt (val : Word) x p rest (s : State), tgt ≤ 20 → irqStack s tgt = (x, p) :: rest → tabGet s.irq.frozen tgt = none →
    val.toNat % 1024 ≠ x → val.toNat % 1024 ≠ 1023 →
    Gives (.irqComplete tgt val) s ((({ s with irq := { s.irq with frozen := tabSet s.irq.frozen tgt (p, rest.length + 1) } } :
      State).setNat (R.irqFaultInfo + 0x20 * tgt) (0x80000000 + (rest.length + 1) * 65536 + val.toNat % 1024)).evt R.irqEvtStatus 0)) ∧
  (∀ tgt (val : Word) (s : State), tgt ≤ 20 → irqStack s tgt = [] → val.toNat % 1024 ≠ 1023 →
    Gives (.irqComplete tgt val) s ((({ s with irq := { s.irq with frozen := tabSet s.irq.frozen tgt (0, 0) } } :
      State).setNat (R.irqFaultInfo + 0x20 * tgt) (0x80000000 + val.toNat % 1024)).evt R.irqEvtStatus 0)) ∧
  (∀ tgt (val : Word) f n e (s : State), tgt ≤ 20 → tabGet s.irq.frozen tgt = some (f, n) → n ≤ (irqStack s tgt).length →
    e ∈ (irqStack s tgt).drop ((irqStack s tgt).length - n) → val.toNat % 1024 = e.1 →
    (∀ y ∈ (irqStack s tgt).take ((irqStack s tgt).length - n), y.1 ≠ e.1) → Gives (.irqComplete tgt val) s s) ∧
  (∀ tgt (val : Word) f n x p rest (s : State), tgt ≤ 20 → tabGet s.irq.frozen tgt = some (f, n) →
    irqStack s tgt = (x, p) :: rest → n ≤ rest.length → val.toNat % 1024 = x → x ≠ 1023 →
    Gives (.irqComplete tgt val) s (s.setStack tgt rest)) ∧
  (∀ tgt (val : Word) f n x p rest (s : State), tgt ≤ 20 → tabGet s.irq.frozen tgt = some (f, n) →
    irqStack s tgt = (x, p) :: rest → n ≤ rest.length + 1 → val.toNat % 1024 ≠ 1023 → val.toNat % 1024 ≠ x →
    (∀ y ∈ (irqStack s tgt).drop (rest.length + 1 - n), y.1 ≠ val.toNat % 1024) →
    Gives (.irqComplete tgt val) s ((({ s with irq := { s.irq with frozen := tabSet s.irq.frozen tgt (p, rest.length + 1) } } :
      State).setNat (R.irqFaultInfo + 0x20 * tgt) (0x80000000 + (rest.length + 1) * 65536 + val.toNat % 1024)).evt R.irqEvtStatus 0)) ∧
  (∀ tgt f n src (s : State), tabGet s.irq.frozen tgt = some (f, n) → ¬ (src = 40 ∧ tgt = 0) → irqPrio s src ≤ f →
    deliverable s tgt src = false) ∧
  (∀ tgt f (s : State), tabGet s.irq.frozen tgt = some f →
    let u : State := { s with irq := { s.irq with frozen := tabDel s.irq.frozen tgt } }
    Gives (.irqFaultClrResume tgt) s (if tabDel s.irq.frozen tgt = [] then u.setPend 40 false else u)) ∧
  (∀ tgt f (s : State), tabGet s.irq.frozen tgt = some f →
    let u : State := { s with irq := { s.irq with inServ := tabDel s.irq.inServ tgt, frozen := tabDel s.irq.frozen tgt } }
    Gives (.irqFaultClrDiscard tgt) s (if tabDel s.irq.frozen tgt = [] then u.setPend 40 false else u))

/-- R318, R319, R322, R329: a hold-off in microseconds ends at its cycle, one in ticks at its boundary; the PCIe link's state is
shown; when it has been down for IRQ_HOST_FALLBACK_MS redirection begins and EVT_IRQ_FALLBACK rises, and it ends when the link is
up; D0 and L0 follow the host. -/
def Obligations.IrqTimersAndHostLink : Prop :=
  (∀ g c (s : State), tabGet s.irq.hold g = some (.clk c) → s.dueOk c = true →
    Leaves (.holdoffEnd g) s fun t => t.clk = max s.clk c ∧ t.tick = s.tick ∧ t.irq.inServ = s.irq.inServ ∧
      (g < 16 → ∀ x, x / 32 = g → t.isPend x = true → t.irq.rel.contains x = true)) ∧
  (∀ g n (s : State), tabGet s.irq.hold g = some (.tick n) → n ≤ s.tick →
    Leaves (.holdoffEnd g) s fun t => t.clk = s.clk ∧ t.tick = s.tick ∧ t.irq.inServ = s.irq.inServ ∧
      (g < 16 → ∀ x, x / 32 = g → t.isPend x = true → t.irq.rel.contains x = true)) ∧
  (∀ s : State, s.linkUp = true →
    Gives .pcieLinkDown s { s.setBit R.irqStatus 0 false with irq := { s.irq with downAt := some s.clk } }) ∧
  (∀ c (s : State), s.irq.downAt = some c → s.linkUp = false → s.fallbackAct = false →
    let due := c + s.field R.irqHostFallbackMs 15 0 * 1250000
    s.dueOk due = true →
    Gives .hostFallback s ((({ s with clk := max s.clk due } : State).setBit R.irqStatus 1 true).evt R.irqEvtStatus 1)) ∧
  (∀ s : State, Leaves .pcieLinkUp s fun t => t.linkUp = true ∧ t.fallbackAct = false ∧ t.irq.downAt = none ∧
    t.clk = s.clk ∧ t.irq.inServ = s.irq.inServ) ∧
  (∀ d0 l0 (s : State), Gives (.pciePowerState d0 l0) s { s with irq := { s.irq with d0 := d0, l0 := l0 } })

/-! ### Cistern and bus matrix: chapters 09 and 17 -/

/-- R290, R291, R292: what a write to CIS_BANK_OWN does: refused for a bank outside region 4 and for a code software may not write; a
new target while a handover is under way; nothing for the present owner; otherwise PENDING and TARGET, with the drain's time limit
where an accepted transfer of the old owner is in flight, and OWNER at once where none is. The drain's end hands over; its timeout
drops what is left, counts, and raises EVT_BANK_DRAIN. -/
def Obligations.BankHandover : Prop :=
  (∀ n (val : Word) (s : State), n < 256 → bankRegion s.mapCm n ≠ 4 ∨ ownerOk (val.toNat % 32) = false →
    Gives (.cisBankOwnWrite n val) s (s.evt R.cisEvtStatus 4)) ∧
  (∀ n (val : Word) (s : State), n < 256 → bankRegion s.mapCm n = 4 → ownerOk (val.toNat % 32) = true → bankPending s n = true →
    Gives (.cisBankOwnWrite n val) s (s.setField (R.cisBankOwn + 4 * n) 20 16 (val.toNat % 32))) ∧
  (∀ n (val : Word) (s : State), n < 256 → bankRegion s.mapCm n = 4 → ownerOk (val.toNat % 32) = true → bankPending s n = false →
    val.toNat % 32 = bankOwner s n → Gives (.cisBankOwnWrite n val) s s) ∧
  (∀ n (val : Word) (s : State), n < 256 → bankRegion s.mapCm n = 4 → ownerOk (val.toNat % 32) = true → bankPending s n = false →
    val.toNat % 32 ≠ bankOwner s n →
    let v := markInFlight ((s.setField (R.cisBankOwn + 4 * n) 20 16 (val.toNat % 32)).setBit (R.cisBankOwn + 4 * n) 31 true) n
    (bankBusy v n = true → Gives (.cisBankOwnWrite n val) s { v with cis := { v.cis with
      drains := tabSet v.cis.drains n (s.clk + 1 + s.field R.cisDrainTo 15 0) } }) ∧
    (bankBusy v n = false → Gives (.cisBankOwnWrite n val) s (handOver v n))) ∧
  (∀ n (s : State), n < 256 → bankPending s n = true → bankBusy s n = false → Gives (.drainComplete n) s (handOver s n)) ∧
  (∀ n due (s : State), tabGet s.cis.drains n = some due → bankPending s n = true → bankBusy s n = true → s.dueOk due = true →
    Gives (.drainTimeout n) s (((handOver { s with
      clk := max s.clk due
      ecs := s.ecs.map fun e => (e.1, dropInFlight n e.2) } n).inc R.cisCntDrainTo).evt R.cisEvtStatus 3)) ∧
  (∀ n (s : State), n < 256 → s.cis.waits = [] →
    handOver s n = ({ s with cis := { s.cis with drains := tabDel s.cis.drains n } } : State).setNat (R.cisBankOwn + 4 * n)
      (bankTarget s n))

/-- R286, R289, R293, R296: a host access to a bank of its own reads its bytes, or writes them and leaves every other byte alone; to
another's bank it reads zeros or writes nothing, with FOREIGN set and the access recorded; an uncorrectable word reads zeros with UE;
a read that meets a write in a word-mode bank sets BUSY and returns as many bytes that nothing determines; beyond the cistern it reads
zeros. It waits for clearing and for a handover to the host, and the end of clearing serves it. -/
def Obligations.WindowAccesses : Prop :=
  (∀ off data c (s : State), MemWf s → inOneBank off data.length = true → reaches s 5 (bankOf off) = true →
    ∃ u, Gives (.windowAccess off true data c) s u ∧ Wrote s u off data ∧ MemWf u ∧ u = { s with cis := u.cis } ∧
      u.cis = { s.cis with mem := u.cis.mem, upsets := u.cis.upsets }) ∧
  (∀ off data (s : State), inOneBank off data.length = true → reaches s 5 (bankOf off) = true →
    (∀ e ∈ s.cis.upsets, off + data.length + 8 ≤ e.1 ∨ e.1 + 8 ≤ off) →
    Gives (.windowAccess off false data false) s (s.emit (.window (memBytes s.cis.mem off data.length)))) ∧
  (∀ off w data c (s : State), inOneBank off data.length = true → bankOwner s (bankOf off) ≠ 5 →
    s.cis.clearing.contains (bankOf off) = false → (bankPending s (bankOf off) = true → bankTarget s (bankOf off) ≠ 5) →
    let v := winNoted (logForeign s off 2 0 w) 1
    Gives (.windowAccess off w data c) s (if w then v else v.emit (.window (List.replicate data.length 0)))) ∧
  (∀ off data (s : State), inOneBank off data.length = true → reaches s 5 (bankOf off) = true → bankLine s (bankOf off) = false →
    Leaves (.windowAccess off false data true) s fun t => t.bit R.cisWinStatus 0 = true ∧ t.bit R.cisEvtStatus 2 = true ∧
      t.cis = s.cis ∧ ∃ l, t.outbox.contains (.window l) = true ∧ l.length = data.length) ∧
  (∀ off w data c (s : State), 0x8000000 < off + data.length →
    Gives (.windowAccess off w data c) s (if w then s else s.emit (.window (List.replicate data.length 0)))) ∧
  (∀ off w data c (s : State), inOneBank off data.length = true → s.cis.clearing.contains (bankOf off) = true →
    Gives (.windowAccess off w data c) s { s with cis := { s.cis with
      waits := s.cis.waits ++ [{ off := off, write := w, data := data, collide := c }] } }) ∧
  (∀ s : State, s.cis.clearing ≠ [] → s.dueOk (s.tickClk + 16384) = true →
    Gives .bankClearDone s (winRelease { s with
      clk := max s.clk (s.tickClk + 16384)
      cis := { s.cis with clearing := [] } })) ∧
  (∀ bank (s : State), let mine := s.cis.fixes.filter fun o => bankOf o == bank
    Gives (.scrubWriteback bank) s { s with cis := { s.cis with
      upsets := s.cis.upsets.filter fun e => !(mine.contains e.1 && !e.2)
      fixes := s.cis.fixes.filter fun o => !mine.contains o } })

/-- R298, R300: a transaction of a master on an idle bus matrix is presented at the port of its address; one that no target decodes
is answered at once with ERR_DECODE, recorded, counted and raised, a read with zeros. On a busy matrix it takes its number and its
place behind the others. -/
def Obligations.BusTransactionsArrive : Prop :=
  (∀ (t : BusTxn) (s : State), s.dieRuns = true → t.master < 25 → s.cis.bus = [] → isAlias s t.addr = false →
    t.write = false → portFor s { t with id := t.id % 32 } < 21 →
    Gives (.busTransaction t) s { s with cis := { s.cis with
      bus := [presented s.cis.busNum { t with id := t.id % 32 } (portFor s { t with id := t.id % 32 }) s.clk]
      busNum := s.cis.busNum + 1 } }) ∧
  (∀ (t : BusTxn) (s : State), s.dieRuns = true → t.master < 25 → s.cis.bus = [] → isAlias s t.addr = false →
    t.write = false → portFor s { t with id := t.id % 32 } = 99 →
    Gives (.busTransaction t) s ((logDecode t { s with cis := { s.cis with busNum := s.cis.busNum + 1 } }).emit
      (.bus t.master (t.id % 32) 2 false (List.replicate t.len 0)))) ∧
  (∀ (t : BusTxn) (s : State), s.dieRuns = true → t.master < 25 →
    let t' : BusTxn := { t with id := t.id % 32, len := if t.write then t.data.length else t.len }
    Gives (.busTransaction t) s (busMove { s with cis := { s.cis with
      bus := s.cis.bus ++ [{ num := s.cis.busNum, t := t', aliased := isAlias s t.addr, port := portFor s t' }]
      busNum := s.cis.busNum + 1 } }))

/-- R290, R293, R299, R514: a grant serves the port's winner. Alone on the matrix, a write by the bank's owner stores its bytes and
no others and is answered OKAY; a foreign one stores nothing and is answered ERR_FOREIGN; a host-memory write goes out. -/
def Obligations.BusGrantsServe : Prop :=
  (∀ port w (s : State), s.dieRuns = true → port < 21 → busWinner s port = some w → busQos s w = agedQos s w →
    Gives (.busGrant port) s (busMove (busServe w { s with cis := { s.cis with
      bus := s.cis.bus.map fun v => if v.num == w.num then { v with granted := true } else v
      lastGrant := tabSet s.cis.lastGrant port w.t.master } }))) ∧
  (∀ port num clk (t : BusTxn) (s : State), MemWf s → s.dieRuns = true → port < 16 → s.cis.bus = [presented num t port clk] →
    s.clk < clk + 128 → t.write = true → t.len = t.data.length → t.collide = false → t.addr / 0x8000000 = 2 →
    inOneBank (t.addr % 0x8000000) t.len = true →
    (∃ o, masterOwner t.master = some o ∧ reaches s o (bankOf (t.addr % 0x8000000)) = true) →
    ∃ u, Gives (.busGrant port) s u ∧ Wrote s u (t.addr % 0x8000000) t.data ∧ MemWf u ∧ u.regs = s.regs ∧
      u.cis.bus = [] ∧ u.outbox = .bus t.master t.id 0 false [] :: s.outbox) ∧
  (∀ port num clk (t : BusTxn) (s : State), s.dieRuns = true → port < 16 → s.cis.bus = [presented num t port clk] →
    s.clk < clk + 128 → t.write = true → t.len = t.data.length → inOneBank (t.addr % 0x8000000) t.len = true →
    masterOwner t.master ≠ some (bankOwner s (bankOf (t.addr % 0x8000000))) →
    bankPending s (bankOf (t.addr % 0x8000000)) = false → s.cis.clearing = [] →
    Gives (.busGrant port) s ((logForeign (granted s port t.master) (t.addr % 0x8000000) 1 t.master true).emit
      (.bus t.master t.id 1 false []))) ∧
  (∀ num clk (t : BusTxn) (s : State), s.dieRuns = true → s.cis.bus = [presented num t 20 clk] → s.clk < clk + 128 →
    t.write = true → Gives (.busGrant 20) s (((granted s 20 t.master).emit (.host t.addr t.data)).emit
      (.bus t.master t.id 0 false [])))

/-- R201, R203: an access to an effect core's memory: data memory is read or written at once while the core runs no program, and waits
while it does; program memory is read at any time and not written; other offsets answer ERR_DECODE. -/
def Obligations.EcMemoryAccesses : Prop :=
  (∀ m addr v (s : State), 0x30000000 ≤ addr → addr < 0x31000000 → addr % 4 = 0 →
    let c := addr / 0x100000 % 16
    let off := addr % 0x100000
    (0x40000 ≤ off → off < 0x60000 → (s.ec c).active = true →
      Gives (.ecMemAccess m addr true v) s { s with ecIo := { s.ecIo with
        waits := s.ecIo.waits ++ [(c, none, { master := m, addr := addr, write := true, len := 4, data := bytesOfWord v })] } }) ∧
    (0x40000 ≤ off → off < 0x60000 → (s.ec c).active = false →
      ∃ e, Gives (.ecMemAccess m addr true v) s ((s.setEc c e).emit (.bus m 0 0 false [])) ∧
        e.word ((off - 0x40000) / 4) = v ∧ (∀ a, a ≠ (off - 0x40000) / 4 → e.word a = (s.ec c).word a) ∧
        e = { s.ec c with mem := e.mem }) ∧
    (0x40000 ≤ off → off < 0x60000 → (s.ec c).active = false →
      Gives (.ecMemAccess m addr false v) s (s.emit (.bus m 0 0 false (bytesOfWord ((s.ec c).word ((off - 0x40000) / 4)))))) ∧
    (off < 0x10000 → Gives (.ecMemAccess m addr false v) s
      (s.emit (.bus m 0 0 false ((List.range 4).map fun i => ecByte (s.ec c) (off + i))))) ∧
    (off < 0x10000 → Leaves (.ecMemAccess m addr true v) s fun t =>
      t.bit R.busEvtStatus 0 = true ∧ t.ecs = s.ecs ∧ t.outbox.contains (.bus m 0 2 false []) = true))

/-- Every command that may write the cistern for a host access or a handover keeps its bytes in canonical form. -/
def Obligations.CisternKeepsItsForm : Prop :=
  ∀ s : State, MemWf s → ∀ c : Instr,
    ((∃ off w data x, c = .windowAccess off w data x) ∨ c = .bankClearDone ∨ (∃ n, c = .drainComplete n) ∨
      (∃ n, c = .drainTimeout n) ∨ (∃ n v, c = .cisBankOwnWrite n v) ∨ (∃ n, c = .scrubWriteback n)) →
    Leaves c s MemWf


/-! ### Network: chapter 11 -/

/-- R337 to R344, R373: a frame that arrives on an up and enabled port is counted: as a CRC error, too short, too long, refused by its
tags or its VLAN, or good; one of an unknown type counts besides. A PAUSE frame is only counted. A class paused by PFC is served
again when its time has passed, and its own PFC is repeated while its queue stays long. The transmitter sends the first frame of the
highest class that is not paused, padded to 60 octets, and drops one that is too long. A link that changes shows it, raises its event
and pauses nothing. -/
def Obligations.NetworkFrames : Prop :=
  (∀ port f ok s, (portUp s port && portEn s port) = false → Gives (.frameReceive port f ok) s s) ∧
  (∀ port f s, (portUp s port && portEn s port) = true → Gives (.frameReceive port f false) s (s.inc (portReg port 0x50))) ∧
  (∀ port f s, (portUp s port && portEn s port) = true → f.length + 4 < 64 →
    Gives (.frameReceive port f true) s (s.inc (portReg port 0x48))) ∧
  (∀ port f s, (portUp s port && portEn s port) = true → 64 ≤ f.length + 4 → portMax s port < f.length + 4 →
    Gives (.frameReceive port f true) s ((s.inc (portReg port 0x4C)).evt R.netEvtStatus 4)) ∧
  (∀ port f s, (portUp s port && portEn s port) = true → 64 ≤ f.length + 4 → f.length + 4 ≤ portMax s port → untag f = none →
    Gives (.frameReceive port f true) s (s.inc (portReg port 0x54))) ∧
  (∀ port f x s, (portUp s port && portEn s port) = true → 64 ≤ f.length + 4 → f.length + 4 ≤ portMax s port → untag f = some x →
    vlanOk s port x.2.1 = false → Gives (.frameReceive port f true) s (s.inc (portReg port 0x54))) ∧
  (∀ port f x s, (portUp s port && portEn s port) = true → 64 ≤ f.length + 4 → f.length + 4 ≤ portMax s port → untag f = some x →
    vlanOk s port x.2.1 = true → x.2.2.1 ∉ ([0x8808, 0x0800, 0x0806, 0x88F7] : List Nat) →
    Gives (.frameReceive port f true) s ((s.inc (portReg port 0x44)).inc (portReg port 0x58))) ∧
  (∀ port f s, (portUp s port && portEn s port) = true → beNat ((f.drop 12).take 2) = 0x8808 → beNat ((f.drop 14).take 2) = 1 →
    Gives (.pfcFrame port f) s (s.inc (portReg port 0x5C))) ∧
  (∀ port f c s, (portUp s port && portEn s port) = true → beNat ((f.drop 12).take 2) = 0x8808 →
    beNat ((f.drop 14).take 2) = 0x0101 → c < 8 → beNat ((f.drop 16).take 2) = 2 ^ c → (fld (portPfc s port) 7 0).testBit c = false →
    let q := beNat ((f.drop (18 + 2 * c)).take 2)
    q ≠ 0 → Leaves (.pfcFrame port f) s fun t => tabGet (t.np port).paused c = some (s.clk + quanta s port q) ∧
      (t.np port).queues = (s.np port).queues ∧ t.clk = s.clk) ∧
  (∀ port c due s, tabGet (s.np port).paused c = some due → s.dueOk due = true → Leaves (.pfcPauseEnd port c) s fun t =>
    (t.np port).paused = tabDel (s.np port).paused c ∧ t.clk = max s.clk due ∧ t.tick = s.tick) ∧
  (∀ port c s, tabGet (s.np port).paused c = none → Gives (.pfcPauseEnd port c) s s) ∧
  (∀ port c due s, tabGet (s.np port).pfc c = some due → fwqLow < tabGetD (s.np port).rxq c 0 → s.dueOk due = true →
    Leaves (.pfcRepeat port c) s fun t =>
      tabGet (t.np port).pfc c = some (max s.clk due + quanta s port (pfcTime s port) / 2) ∧ t.clk = max s.clk due) ∧
  (∀ port c s, tabGet (s.np port).pfc c = none → Gives (.pfcRepeat port c) s s) ∧
  (∀ port c n s, tabGet (s.np port).pfc c = none → let left := tabGetD (s.np port).rxq c 0 - n
    Gives (.firmwareQueueDrain port c n) s (s.setNp port { s.np port with
      rxq := if left = 0 then tabDel (s.np port).rxq c else tabSet (s.np port).rxq c left })) ∧
  (∀ port c d n s, tabGet (s.np port).pfc c = some d → tabGetD (s.np port).rxq c 0 - n < fwqLow →
    Leaves (.firmwareQueueDrain port c n) s fun t => (t.np port).pfc = tabDel (s.np port).pfc c ∧ t.clk = s.clk) ∧
  (∀ port c f rest s, (portUp s port && portEn s port) = true → (∀ x ∈ s.cmd.netOut, x.1 ≠ port) → txClass (s.np port) = some c →
    tabGetD (s.np port).queues c [] = f :: rest →
    let u := s.setNp port { s.np port with queues := if rest.isEmpty then tabDel (s.np port).queues c else tabSet (s.np port).queues c rest }
    let g := f ++ List.replicate (60 - f.length) 0
    (g.length + 4 ≤ portMax s port → Gives (.frameTransmit port) s ((u.inc (portReg port 0x68)).emit (.frame port g))) ∧
    (portMax s port < g.length + 4 → Gives (.frameTransmit port) s ((u.inc (portReg port 0x6C)).evt R.netEvtStatus 4))) ∧
  (∀ port s, (portUp s port && portEn s port) = false → Gives (.frameTransmit port) s s) ∧
  (∀ port up s, port < 4 → up = false ∨ portEn s port = true → s.bit (portReg port 0x40) 0 ≠ up →
    Leaves (.linkChange port up) s fun t => t.bit (portReg port 0x40) 0 = up ∧ t.bit R.netEvtStatus port = true ∧
      (t.np port).paused = [] ∧ (t.np port).queues = (s.np port).queues) ∧
  (∀ port up s, 4 ≤ port ∨ s.bit (portReg port 0x40) 0 = up → Gives (.linkChange port up) s s)


/-! ### Time: chapter 12 -/

/-- R379, R385, R386, R389, R390, R391: messages of the port's master alone count; a one-step Sync and a Follow_Up give an offset
sample, a Delay_Resp that answers the last request a path sample, a better master's Announce takes the place of the one held. Where
the device serves time it answers Delay_Req and sends Sync, Follow_Up and Announce; as a slave it sends Delay_Req. A master not heard
in its time is forgotten, and a Sync not heard leads to HOLDOVER. R396, R397, R398, R400: a PPS edge of the chosen polarity is
measured, and one missed is counted; the 10 MHz input is shown as measured, and its loss shown; the word clock's phase and loss are
shown; HOLDOVER's rate is kept in LOCKED; TIM_INCR takes a value in range while host software owns it. R403, R405: a trigger drives
its pin when due and counts its firing, its pulse ends, and an edge on an input is captured, unless the queue is full. -/
def Obligations.TimeAndTriggers : Prop :=
  (∀ m s, fromMaster s m = false → Gives (.syncReceive m) s (timView s)) ∧
  (∀ m s, fromMaster s m = true → m.twoStep = true → Gives (.syncReceive m) s (timView { s with tim := { s.tim with
    syncDue := some (s.clk + syncClk s.mapCm)
    follow := some (m.port, m.seq, m.srcId * 65536 + m.srcPort, m.rxT4 * 16384 - m.corr) } })) ∧
  (∀ m s, fromMaster s m = true → m.twoStep = false → let d := diff8 m.rxT4 m.t4 m.corr
    Gives (.syncReceive m) s (timView (offsetSample (d - (mpdNow s + asymNow s)) { s with tim := { s.tim with
      syncDue := some (s.clk + syncClk s.mapCm)
      syncD := some d } }))) ∧
  (∀ m s, s.tim.follow = none ∨ fromMaster s m = false → Gives (.followUpReceive m) s (timView s)) ∧
  (∀ m t2 s, s.tim.follow = some (m.port, m.seq, m.srcId * 65536 + m.srcPort, t2) → fromMaster s m = true →
    let d := rneDiv (t2 - m.t4 * 16384 - m.corr) 256
    Gives (.followUpReceive m) s (timView (offsetSample (d - (mpdNow s + asymNow s)) { s with tim := { s.tim with
      follow := none
      syncD := some d } }))) ∧
  (∀ m s, servesTime s m.port = true → m.domain = ptpDomain s.mapCm → Gives (.delayReqReceive m) s (s.emit (.ptp m.port ptpDelayResp
    { port := m.port
      seq := m.seq
      t4 := m.rxT4
      corr := m.corr
      srcId := clockId s
      srcPort := m.port + 1
      reqId := m.srcId
      reqPort := m.srcPort
      domain := m.domain }))) ∧
  (∀ m s, servesTime s m.port = false ∨ m.domain ≠ ptpDomain s.mapCm → Gives (.delayReqReceive m) s s) ∧
  (∀ m t3 d s, s.tim.dreq = some (m.port, m.seq, t3) → s.tim.syncD = some d → fromMaster s m = true → m.reqId = clockId s →
    m.reqPort = m.port + 1 → tSt s = 1 ∨ s.tim.path = [] →
    let l := (rneDiv (d + diff8 m.t4 t3 m.corr) 2 :: s.tim.path).take 16
    Gives (.delayRespReceive m) s (timView (({ s with tim := { s.tim with dreq := none, path := l } } : State).setReg R.timMpd
      (BitVec.ofInt 32 (meanOf l))))) ∧
  (∀ m s, fromMaster s m = false → Gives (.delayRespReceive m) s (timView s)) ∧
  (∀ m s, (ptpPortEn s m.port && m.domain == ptpDomain s.mapCm && portUp s m.port) = true → timSource s = 1 →
    (∀ q, tabGet s.tim.masters m.port = some q → q.1.srcId = m.srcId ∧ q.1.srcPort = m.srcPort ∨ ptpBetter m q.1 = true) →
    Leaves (.announceReceive m) s fun t =>
      t.tim.masters = tabSet s.tim.masters m.port (m, s.clk + annClk s.mapCm) ∧ t.tim.dreq = s.tim.dreq ∧ t.clk = s.clk) ∧
  (∀ m s, timSource s = 3 → Gives (.announceReceive m) s (timView s)) ∧
  (∀ p s, servesTime s p = true → Leaves (.syncTransmit p) s fun t => t.tim.seqOut = s.tim.seqOut + 1 ∧ t.tick = s.tick ∧
    ∃ m, m.seq = s.tim.seqOut % 65536 ∧ m.twoStep = bit (ptpCfg s.mapCm 0) 8 ∧ Out.ptp p ptpSync m ∈ t.outbox ∧
      (m.twoStep = true → Out.ptp p ptpFollowUp { m with t4 := s.t4, twoStep := false } ∈ t.outbox)) ∧
  (∀ p s, servesTime s p = false → Gives (.syncTransmit p) s s ∧ Gives (.announceTransmit p) s s) ∧
  (∀ p s, servesTime s p = true → Gives (.announceTransmit p) s
    (({ s with tim := { s.tim with seqOut := s.tim.seqOut + 1 } } : State).emit
      (.ptp p ptpAnnounce { ownDataset s with port := p, seq := s.tim.seqOut % 65536, t4 := s.t4, srcPort := p + 1 }))) ∧
  (∀ p m s, bestMaster s = some (p, m) → timSource s = 1 → portUp s p = true → Gives .delayReqTransmit s
    (({ s with tim := { s.tim with seqOut := s.tim.seqOut + 1, dreq := some (p, s.tim.seqOut % 65536, (s.t4 : Int)) } } : State).emit
      (.ptp p ptpDelayReq
        { port := p
          seq := s.tim.seqOut % 65536
          t4 := s.t4
          srcId := clockId s
          srcPort := p + 1
          domain := ptpDomain s.mapCm }))) ∧
  (∀ s, bestMaster s = none → Gives .delayReqTransmit s s) ∧
  (∀ p m due s, tabGet s.tim.masters p = some (m, due) → s.dueOk (due + 1) = true → Leaves (.announceTimeout p) s fun t =>
    t.tim.masters = tabDel s.tim.masters p ∧ t.bit R.timEvtStatus 5 = true ∧ t.clk = max s.clk (due + 1)) ∧
  (∀ p s, tabGet s.tim.masters p = none → Gives (.announceTimeout p) s (timView s)) ∧
  (∀ due s, s.tim.syncDue = some due → timSource s = 1 → s.dueOk (due + 1) = true → Leaves .syncTimeout s fun t =>
    t.tim.syncDue = none ∧ t.bit R.timEvtStatus 6 = true ∧ (tSt s = 2 ∨ tSt s = 3 → tSt t = 4)) ∧
  (∀ s, s.tim.syncDue = none → Gives .syncTimeout s (timView s)) ∧
  (∀ t4 falling s, falling ≠ bit (refCfg s.mapCm 0) 10 → Gives (.ppsInEdge t4 falling) s (timView s)) ∧
  (∀ (t4 : Nat) s, refUsed s true = false → let err : Int := (t4 : Int) - (ppsSecond s t4 * q4 : Nat)
    Leaves (.ppsInEdge t4 (bit (refCfg s.mapCm 0) 10)) s fun t =>
      t.reg R.timPpsErr = BitVec.ofInt 32 (err * 64) ∧ t.tim.ppsSec = some (ppsSecond s t4) ∧ t.bit R.timRefStatus 4 = true ∧
      t.bit R.timRefStatus 5 = absLe err (ppsWin s)) ∧
  (∀ n s, s.tim.ppsSec = some n → refUsed s true = true → 2 ≤ tSt s →
    s.dueOk (s.clkOf (((n + 1) * q4 + (ppsWin s).toNat) * 320) + 1) = true → Leaves .ppsWindowMiss s fun t =>
      t.tim.ppsSec = some (n + 1) ∧ t.tim.ppsBad = s.tim.ppsBad + 1 ∧
      (s.tim.ppsBad = 2 → tSt s ≤ 3 → tSt t = 4 ∧ t.bit R.timEvtStatus 8 = true)) ∧
  (∀ s, s.tim.ppsSec = none → Gives .ppsWindowMiss s (timView s)) ∧
  (∀ q s, timSource s ≠ 2 → let ok := absLe q (fld (refCfg s.mapCm 0) 23 16 * 25600 : Nat)
    let u := ((s.setReg R.timRef10mErr (BitVec.ofInt 32 q)).setBit R.timRefStatus 0 true).setBit R.timRefStatus 1 ok
    Gives (.ref10mGate q) s (timView (if s.bit R.timRefStatus 1 && !ok then u.evt R.timEvtStatus 7 else u))) ∧
  (∀ q s, refUsed s false = true → s.bit R.timRefStatus 1 = true → tSt s = 2 ∨ tSt s = 3 →
    absLe q (fld (refCfg s.mapCm 0) 23 16 * 25600 : Nat) = false → Leaves (.ref10mGate q) s fun t =>
      tSt t = 4 ∧ t.bit R.timEvtStatus 7 = true ∧ t.bit R.timRefStatus 1 = false) ∧
  (∀ s, s.bit R.timRefStatus 0 = true → Leaves .ref10mLost s fun t => t.bit R.timRefStatus 0 = false ∧ t.bit R.timRefStatus 1 = false ∧
    t.bit R.timEvtStatus 7 = true ∧ (refUsed s false = true → tSt s = 2 ∨ tSt s = 3 → tSt t = 4)) ∧
  (∀ s, s.bit R.timRefStatus 0 = false → Gives .ref10mLost s (timView s)) ∧
  (∀ t4 s, let n := (t4 * s.fs + q4 / 2) / q4
    let phase := rneDiv ((t4 * s.fs : Nat) * 64 - (n * q4 : Nat) * 64) s.fs
    Leaves (.wclkInEdge t4) s fun t => t.reg R.timWclkPhase = BitVec.ofInt 32 phase ∧ t.bit R.timRefStatus 8 = true ∧
      t.tim.wclkLast = some t4) ∧
  (∀ p s, s.tim.wclkLast = some p → s.bit R.timRefStatus 8 = true → let due := s.clkOf ((p + 4 * q4 / s.fs) * 320) + 1
    s.dueOk due = true → Leaves .wclkLost s fun t => t.bit R.timRefStatus 8 = false ∧ t.tim.wclkLast = none ∧
      t.bit R.timEvtStatus 9 = true ∧ t.clk = max s.clk due) ∧
  (∀ s, s.tim.wclkLast = none → Gives .wclkLost s s) ∧
  (∀ s, tSt s = 3 → s.dueOk (s.tim.holdAt + 75000000000) = true → Gives .holdStore s
    { s with
      clk := max s.clk (s.tim.holdAt + 75000000000)
      tim := { s.tim with holdAt := s.tim.holdAt + 75000000000 }
      jnl := { s.jnl with store := { s.jnl.store with holdIncr := some (timHold s) } } }) ∧
  (∀ s, tSt s ≠ 3 → Gives .holdStore s s) ∧
  (∀ val s, let v := val.toNat + s.field R.timIncrHi 15 0 * 2 ^ 32
    Gives (.timIncrWrite val) s
      (if s.bit R.timCtrl 0 = true ∧ 0xCCCCB1F4DA ≤ v ∧ v ≤ 0xCCCCE7A4C0 then s.setReg R.timIncrLo val else s.evt R.timEvtStatus 12)) ∧
  (∀ pin a s, tabGet s.tim.trigs pin = some a → a.mode ≠ 0 → a.spent = false → s.tickRuns = true → isLate s pin a = false →
    s.dueOk (trigClk s pin (trigTime s a a.k)) = true → Leaves (.trigFire pin) s fun t =>
      (∃ b, tabGet t.tim.trigs pin = some b ∧ b.k = a.k + 1 ∧ b.mode = a.mode ∧ Out.trig pin b.high ∈ t.outbox) ∧
      t.clk = max s.clk (trigClk s pin (trigTime s a a.k))) ∧
  (∀ pin a q s, tabGet s.tim.trigs pin = some a → a.pulseEnd = some q → s.dueOk (s.clkOf (q * 320)) = true →
    Leaves (.trigPulseEnd pin) s fun t =>
      tabGet t.tim.trigs pin = some { a with pulseEnd := none, high := !a.high } ∧ Out.trig pin (!a.high) ∈ t.outbox) ∧
  (∀ pin s, tabGet s.tim.trigs pin = none → Gives (.trigFire pin) s s ∧ Gives (.trigPulseEnd pin) s s) ∧
  (∀ pin t4 falling e s, tabGet s.tim.inputs pin = some e → e = 2 ∨ e = b2n falling → tabGet s.tim.lastEdge pin = none →
    (s.caps pin).length < 16 → Leaves (.trigInputEdge pin t4 falling) s fun t =>
      t.caps pin = s.caps pin ++ [{ t4 := ((t4 : Int) - pinSkew s pin).toNat, falling := falling }] ∧
      tabGet t.tim.lastEdge pin = some t4) ∧
  (∀ pin t4 falling e s, tabGet s.tim.inputs pin = some e → e = 2 ∨ e = b2n falling → tabGet s.tim.lastEdge pin = none →
    16 ≤ (s.caps pin).length → Leaves (.trigInputEdge pin t4 falling) s fun t =>
      t.caps pin = s.caps pin ∧ t.bit R.timEvtStatus 11 = true) ∧
  (∀ pin t4 falling s, tabGet s.tim.inputs pin = none → Gives (.trigInputEdge pin t4 falling) s (snapPin pin falling s))

/-! ### The tick and the render path: chapters 01 to 05, 11 -/

/-- R19, R20, R104, R362: a tick boundary starts the next tick, with its admission pass still to come; while the tick is stopped or the
die does not run it does nothing. The pass comes at cycle 500,000 of the tick, once: with nothing due it only marks itself done; under
a supply warning, a trip or a pending reset it refuses what is due. A completed egress block shows its epoch and tick. A sample release
moves on by one sample. -/
def Obligations.TickWork : Prop :=
  (∀ x s, s.dieRuns = true → s.tickRuns = true → Leaves (.tickBoundary x) s fun t => t.tick = s.tick + 1 ∧ t.cmd.passDone = false) ∧
  (∀ x s, s.dieRuns = false → Gives (.tickBoundary x) s s) ∧
  (∀ x s, s.dieRuns = true → s.tickRuns = false → s.tim.restart = false → Gives (.tickBoundary x) s s) ∧
  (∀ s, s.tickRuns = true → s.cmd.passDone = false → s.dueOk (s.tickClk + 500000) = true → isFollower s = false →
    dueTxns s (s.tick + 1) = [] →
    Gives .admissionPass s { s with clk := max s.clk (s.tickClk + 500000), cmd := { s.cmd with passDone := true } }) ∧
  (∀ s a, s.tickRuns = true → s.cmd.passDone = false → s.dueOk (s.tickClk + 500000) = true → isFollower s = false →
    dueTxns s (s.tick + 1) = [a] → passBlocked s = true →
    let u := (s.atClk (s.tickClk + 500000)).putTxn
      { a with phase := .refused, boundary := s.tick + 1, verdict := { status := stBadState } }
    Gives .admissionPass s { u with cmd := { u.cmd with passDone := true } }) ∧
  (∀ s, s.cmd.passDone = true → Gives .admissionPass s s) ∧
  (∀ s, s.dieRuns = true → s.tickRuns = true → 1 ≤ s.tick → egressDone s = false →
    s.dueOk (sampleClk s (s.tick * s.blockLen + egressSamples s : Nat)).toNat = true → Leaves .egressBlockComplete s fun t =>
      t.reg R.strBlkEpoch = BitVec.ofNat 32 (t.cmAt (s.tick - 1)).epoch ∧
      t.reg R.strBlkTickLo = BitVec.ofNat 32 (s.tick - 1) ∧
      t.reg (R.strBlkTickLo + 4) = BitVec.ofNat 32 ((s.tick - 1) / 2 ^ 32)) ∧
  (∀ s, egressDone s = true → Gives .egressBlockComplete s s) ∧
  (∀ sap s, s.tickRuns = true → s.str.relT < (s.tick + 1) * s.blockLen →
    Leaves (.sampleRelease sap) s fun t => t.str.relT = s.str.relT + 1) ∧
  (∀ sap s, (s.tick + 1) * s.blockLen ≤ s.str.relT → Gives (.sampleRelease sap) s s)

/-- R351, R352, R354, R355, R358, R359, R426, R457: at its cut-off a packet is decided once: received ones and lost ones are counted in
their slot, and the loss map marks the lost. An exchange with the partner still open at its deadline is closed and counted. The margin
window of a boundary divisible by 150 publishes a slot's least and mean margin and warns of one below STR_MARGIN_WARN. The mute after
a burst ends, and a deleted stream whose fade is over leaves its slot. A stream packet no leg of which matches does nothing; a
malformed one counts in its slot; one that comes after its cut-off or too early for the buffer counts as late or early; a new one in
time is kept, and a changed SSRC is shown and counted. -/
def Obligations.StreamPacketsAndDeadlines : Prop :=
  (∀ slot seq r due (s : State), rxNewest s slot s.tick = some r → cutDue s r seq = some due → r.stop = none → seq < 65536 →
    r.decided.contains seq = false → s.dueOk due = true → (inPair s && partnerUp s) = false →
    let u := (s.atClk due).putRx slot { r with decided := (seq :: r.decided).take 256 }
    (∀ p, r.pkts.find? (fun p => p.seq == seq && !p.late) = some p → Gives (.packetCutoff slot seq) s (u.inc (rxReg slot 4))) ∧
    (r.pkts.find? (fun p => p.seq == seq && !p.late) = none → Gives (.packetCutoff slot seq) s
      ((((u.inc (rxReg slot 0x10)).evt R.strEvtStatus 0).inc R.strCntLost).setBit (R.strRxLossMap + 4 * (slot / 32)) (slot % 32) true))) ∧
  (∀ slot seq r (s : State), rxNewest s slot s.tick = some r → r.decided.contains seq = true → Gives (.packetCutoff slot seq) s s) ∧
  (∀ slot seq r p (s : State), rxNewest s slot s.tick = some r → r.waits.contains seq = true →
    r.pkts.find? (fun p => p.seq == seq) = some p → let due := (sampleClk s (p.t + rxLo r.d0)).toNat
    s.dueOk due = true →
    Gives (.fillDeadline slot seq) s
      (((s.atClk due).putRx slot { r with waits := r.waits.filter (· != seq) }).inc R.mirCntFillTo)) ∧
  (∀ slot seq r (s : State), rxNewest s slot s.tick = some r → r.waits.contains seq = false → Gives (.fillDeadline slot seq) s s) ∧
  (∀ s, s.tick % 150 = 0 → s.str.winTick < s.tick → Leaves .marginWindowEnd s fun t => t.str.winTick = s.tick ∧ t.tick = s.tick) ∧
  (∀ slot r s, s.tick % 150 = 0 → s.str.winTick < s.tick → slot < 256 → s.str.rx = [(slot, [r])] → r.mCnt ≠ 0 →
    Leaves .marginWindowEnd s fun t => t.reg (rxReg slot 0x2C) = BitVec.ofInt 32 r.mMin ∧
      t.reg (rxReg slot 0x30) = BitVec.ofInt 32 (rneDiv r.mSum r.mCnt) ∧
      (r.mMin < (s.regNat R.strMarginWarn : Int) → t.bit R.strEvtStatus 6 = true)) ∧
  (∀ s, s.tick % 150 ≠ 0 ∨ s.tick ≤ s.str.winTick → Gives .marginWindowEnd s s) ∧
  (∀ ch b (s : State), burstOf s ch = some b → b.muted = true → b.want = 0 → b.last + 8193 < s.str.relT →
    Gives (.burstMuteEnd ch) s (putBurst s ch { b with muted := false, w := 0 })) ∧
  (∀ ch b (s : State), burstOf s ch = some b → b.muted = false → Gives (.burstMuteEnd ch) s s) ∧
  (∀ slot s, (s.rxs slot).any (rxFaded s) = true → Leaves (.strRxFadeEnd slot) s fun t =>
    t.rxs slot = (s.rxs slot).filter fun r => !rxFaded s r) ∧
  (∀ slot s, (s.rxs slot).any (rxFaded s) = false → Gives (.strRxFadeEnd slot) s s) ∧
  (∀ port d s, (portUp s port && portEn s port && d.ok) = false → Gives (.streamPacket port d) s s) ∧
  (∀ port d s, legMatch s port d.srcIp d.dstIp d.dstUdp = none → Gives (.streamPacket port d) s s) ∧
  (∀ port d slot start red r s, (portUp s port && portEn s port && d.ok) = true →
    legMatch s port d.srcIp d.dstIp d.dstUdp = some (slot, start, red) → s.rxAt slot start = some r →
    (rtpOf d.payload).ver ≠ 2 ∨ (rtpOf d.payload).pt ≠ fld (wAt r.d0 1) 6 0 ∨ d.payload.length < 12 ∨
      (rtpOf d.payload).body.length ≠ descCh r.d0 * descS s r.d0 * fmtBytes (descFmt r.d0) →
    Gives (.streamPacket port d) s ((s.inc (rxReg slot 0x18)).evt R.strEvtStatus 3)) ∧
  (∀ port d slot start red r s, (portUp s port && portEn s port && d.ok) = true →
    legMatch s port d.srcIp d.dstIp d.dstUdp = some (slot, start, red) → s.rxAt slot start = some r →
    let x := rtpOf d.payload
    let t := extendTs (sampleNow s) x.ts
    x.ver = 2 → x.pt = fld (wAt r.d0 1) 6 0 → 12 ≤ d.payload.length → x.body.length = descCh r.d0 * descS s r.d0 * fmtBytes (descFmt r.d0) →
    (sampleClk s (cutOff s r.d0 t) < (s.clk : Int) → ∃ r', Gives (.streamPacket port d) s
      ((((s.putRx slot r').inc (rxReg slot 0xC)).evt R.strEvtStatus 1).inc R.strCntLate)) ∧
    ((s.clk : Int) ≤ sampleClk s (cutOff s r.d0 t) →
      (s.t1280 * s.fs : Int) + (rxBuf s r.d0 - descS s r.d0 : Nat) * 1280000000000 < (t + rxLo r.d0) * 1280000000000 →
      ∃ r', Gives (.streamPacket port d) s (((s.putRx slot r').inc (rxReg slot 0x14)).evt R.strEvtStatus 2)) ∧
    ((s.clk : Int) ≤ sampleClk s (cutOff s r.d0 t) →
      (t + rxLo r.d0) * 1280000000000 ≤ (s.t1280 * s.fs : Int) + (rxBuf s r.d0 - descS s r.d0 : Nat) * 1280000000000 →
      r.pkts.find? (fun p => p.seq == x.seq) = none → ∃ r',
        r'.ssrc = some x.ssrc ∧ r'.mCnt = r.mCnt + 1 ∧ (r.ssrc = none ∨ r.ssrc = some x.ssrc →
          Gives (.streamPacket port d) s ((s.putRx slot r').setReg (rxReg slot 0x28) (BitVec.ofNat 32 x.ssrc))) ∧
        (∀ v, r.ssrc = some v → v ≠ x.ssrc → Gives (.streamPacket port d) s
          ((((s.putRx slot r').setReg (rxReg slot 0x28) (BitVec.ofNat 32 x.ssrc)).inc (rxReg slot 0x24)).evt R.strEvtStatus 4))))

/-- R69, R84, R113, R149, R152, R554: a well whose taps all lie after its birth is primed and raises EVT_WELL_PRIMED; a path's fade that is over
leaves no outgoing path and plain incoming ones; an object whose off ramp is over holds its paths; an output's mode switches at the
next block; a correction fade that is over leaves the other bank active, or starts the queued return; at the switch block a new
configuration takes over and the output is held, and at the release block it ramps in and EVT_COR_SETTLED rises. -/
def Obligations.RenderEvents : Prop :=
  (∀ obj w s, tabGet (s.cmAt s.tick).wells obj = some w → w.birth ≤ s.tick → primedAt (s.rt obj) w.birth = none →
    clearOfBirth s obj s.tick w = true → Leaves (.wellPrimed obj) s fun t =>
      (t.rt obj).primed = ((w.birth, s.tick) :: (s.rt obj).primed).take 3 ∧ t.bit R.pmpEvtStatus 1 = true ∧ t.tick = s.tick) ∧
  (∀ obj s, tabGet (s.cmAt s.tick).wells obj = none → Gives (.wellPrimed obj) s s) ∧
  (∀ obj out s, let done := fun l : Leg => l.obj == obj && l.out == out && l.kind != .plain && decide (l.start + l.len ≤ s.tick + 3)
    s.geo.legs.any done = true →
    Gives (.routeFadeEnd obj out) s (s.setLegs ((s.geo.legs.filter fun l => !(done l && l.kind == .xfOut)).map fun l =>
      if done l then { l with kind := .plain } else l))) ∧
  (∀ obj out s, (∀ l ∈ s.geo.legs, l.obj = obj → l.out = out → l.kind = .plain) → Gives (.routeFadeEnd obj out) s s) ∧
  (∀ obj rule r s, (s.rt obj).rule ≠ 0 → (s.rt obj).held = false → tabGet s.geo.rules (s.rt obj).rule = some rule →
    rule.off = some r → r.start + r.len ≤ s.tick + 3 → Leaves (.objOffRampEnd obj) s fun t =>
      (t.rt obj).held = true ∧ ∀ l ∈ t.geo.legs, l.obj = obj → l.rule = (s.rt obj).rule → l.hold ≠ none) ∧
  (∀ obj s, (s.rt obj).rule = 0 ∨ (s.rt obj).held = true → Gives (.objOffRampEnd obj) s s) ∧
  (∀ out c s, (s.outRt out).change = some c → c.sw = none → c.due ≤ s.tick + 3 →
    Gives (.outputModeSwitch out) s (s.setOut out { s.outRt out with change := some { c with sw := some (s.tick + 3) } })) ∧
  (∀ out s, (s.outRt out).change = none → Gives (.outputModeSwitch out) s s) ∧
  (∀ out f s, (s.cor out).fade = some f → f.start + f.len ≤ s.tick → (s.cor out).queued = none →
    Gives (.corFadeEnd out) s (s.setCor out { s.cor out with fade := none })) ∧
  (∀ out f len lin s, (s.cor out).fade = some f → f.start + f.len ≤ s.tick → (s.cor out).queued = some (len, lin) →
    Gives (.corFadeEnd out) s (s.setCor out { s.cor out with
      fade := some { start := s.tick, len := len, lin := lin }
      queued := none
      active := !(s.cor out).active })) ∧
  (∀ out s, (s.cor out).fade = none → Gives (.corFadeEnd out) s s) ∧
  (∀ out c s, (s.cor out).supp = .down → (s.cor out).pend = some c → (s.cor out).w ≤ s.tick → (s.cor out).loads = [] →
    Leaves (.corSwitch out) s fun t => (t.cor out).supp = .hold ∧ (t.cor out).cfg = c.1 ∧ (t.cor out).len = c.2.1 ∧
      (t.cor out).pd = c.2.2 ∧ (t.cor out).fade = none ∧ (t.cor out).queued = none ∧ (t.cor out).hist = [] ∧ (t.cor out).w = s.tick ∧
      (t.cor out).j = s.tick + ceilDiv (corSettle s.blockLen c.1 c.2.1 c.2.2) s.blockLen) ∧
  (∀ out s, (s.cor out).pend = none → Gives (.corSwitch out) s s) ∧
  (∀ out s, (s.cor out).supp = .hold → (s.cor out).j ≤ nextOut s →
    Gives (.corSettled out) s ((s.setCor out { s.cor out with supp := .rampIn, j := nextOut s }).evt R.corEvtStatus 1)) ∧
  (∀ out s, (s.cor out).supp ≠ .hold → Gives (.corSettled out) s s)

/-! ### Measurement, serial ports, dynamic metadata: chapters 06, 13 -/

/-- R170, R174, R175, R177, R179, R191: a microphone that has become valid shows it and raises EVT_MIC_VALID; the fine float values are
written once for each boundary divisible by 150, MEA_FF_TICK naming the tick they belong to; a finished subset is published, which
ends exports under way; an export that completes writes host memory and its completion; MEA_CF_CTRL freezes the log; a loudness reset
is kept for the next block. R419 to R421, R428: a serial port's first edge is accepted; an edge too early is discarded and counted,
and EVT_SAP_GLITCH rises; four periods without an edge make a port LOST and are counted; a window of 1 ms whose rate stays within 2 %
keeps the port LOCKED, the second one in a row that does not sends it back to MEASURE. A metadata frame is taken once its core has
halted; a damaged one is only counted. -/
def Obligations.MeasurementAndSerialPorts : Prop :=
  (∀ m k (s : State), m < 32 → (s.mic m).start = some k → s.bit R.meaMicValid m = false →
    let due := (sampleClk s (micValidFrom s (s.cmAt s.tick) m k)).toNat
    s.dueOk due = true → Gives (.micValid m) s (((s.atClk due).setBit R.meaMicValid m true).evt R.meaEvtStatus 0)) ∧
  (∀ m s, (s.mic m).start = none → Gives (.micValid m) s s) ∧
  (∀ s, s.tickRuns = true → s.tick % 150 = 0 → s.mea.ffTick ≠ s.tick → Leaves .fineFloatUpdate s fun t =>
    t.reg R.meaFfTick = BitVec.ofNat 32 (s.tick - 2) ∧ t.mea.ffTick = s.tick ∧ t.tick = s.tick ∧ t.cm = s.cm) ∧
  (∀ s, s.tick % 150 ≠ 0 ∨ s.mea.ffTick = s.tick → Gives .fineFloatUpdate s s) ∧
  (∀ p rest s, s.mea.pend = p :: rest → p.due ≤ s.tick → Leaves .subsetPublish s fun t =>
    t.mea.pend = rest ∧ t.mea.exports = [] ∧ t.reg R.meaIdSubset = BitVec.ofNat 32 (p.count * 65536 + p.index) ∧ t.tick = s.tick ∧
    ∃ e v, t.mea.pub = some (p, s.tick, e, v)) ∧
  (∀ s, s.mea.pend = [] → Gives .subsetPublish s s) ∧
  (∀ p rest s, s.mea.pend = p :: rest → s.tick < p.due → Gives .subsetPublish s s) ∧
  (∀ e rest s, s.mea.exports = e :: rest → ∃ data, Gives .exportComplete s
    { s with
      mea := { s.mea with exports := rest }
      outbox := .host e.addr data :: s.outbox
      cmd := { s.cmd with fetched := s.cmd.fetched.map fun f => if f.num == e.num then { f with cpl := some { rlen := e.len } } else f } }) ∧
  (∀ s, s.mea.exports = [] → Gives .exportComplete s s) ∧
  (∀ val s, Gives (.meaCfFreeze val) s (if val.getLsbD 0 then s.setReg R.meaCfStatus 1 else s)) ∧
  (∀ val s, Gives (.meaLoudReset val) s { s with mea := { s.mea with loudReset := s.mea.loudReset ||| val.toNat } }) ∧
  (∀ p l s, (s.port p).en = false ∨ (s.port p).master = true → Gives (.lrclkEdge p l) s s) ∧
  (∀ p l s, p < 32 → (s.port p).en = true → (s.port p).master = false → (s.port p).last = none → Leaves (.lrclkEdge p l) s fun t =>
    (t.port p).last = some s.clk ∧ (t.port p).edgeDue = false ∧ t.tick = s.tick ∧
    ((s.port p).edgeDue = true → t.reg (sapReg p 0x20) = s.stamp)) ∧
  (∀ p l e s, p < 32 → (s.port p).en = true → (s.port p).master = false → (s.port p).last = some e →
    edgeExtra (s.port p) (s.clk - e) = true → Gives (.lrclkEdge p l) s ((s.inc (sapReg p 0x24)).evt R.sapEvtStatus 3)) ∧
  (∀ p l h e s, p < 32 → (s.port p).en = true → (s.port p).master = false → (s.port p).last = some e →
    edgeExtra (s.port p) (s.clk - e) = false → edgeMissing (s.port p) (s.clk - e) = false → Leaves (.lrclkEdge p [l, h]) s fun t =>
      (t.port p).last = some s.clk ∧ (t.port p).frames = (s.port p).frames + 1 ∧
      (t.port p).buf = ((t256 s e, slotSample (s.port p).width l, slotSample (s.port p).width h) :: (s.port p).buf).take 512) ∧
  (∀ p e s, (s.port p).last = some e → (s.port p).en = true → (s.port p).master = false → (s.port p).st = 1 ∨ (s.port p).st = 2 →
    let q := sapPeriod (s.port p)
    let due := e + 4 * q.1 / q.2 + 1
    s.dueOk due = true →
    Gives (.sapLost p) s ((((s.atClk due).setPort p { s.port p with st := 3 }).inc (sapReg p 0x28)).evt R.sapEvtStatus 0)) ∧
  (∀ p s, (s.port p).last = none ∨ (s.port p).st = 3 → Gives (.sapLost p) s s) ∧
  (∀ p s, (s.port p).en = false ∨ (s.port p).master = true → Gives (.sapRateWindow p) s s) ∧
  (∀ p s, (s.port p).en = true → (s.port p).master = false → (s.port p).st = 2 → let r := s.port p
    let due := r.winStart + 1250000
    let f := windowRate (r.winEdges.filter fun c => decide (c ≤ due))
    let r' := { r with winStart := due, winEdges := r.winEdges.filter fun c => decide (due < c) }
    s.dueOk due = true →
    (within f (sapRate r.rate * 1000) 2 100 = true → Gives (.sapRateWindow p) s ((s.atClk due).setPort p { r' with differ := 0 })) ∧
    (within f (sapRate r.rate * 1000) 2 100 = false → r.differ = 0 →
      Gives (.sapRateWindow p) s ((s.atClk due).setPort p { r' with differ := 1 })) ∧
    (within f (sapRate r.rate * 1000) 2 100 = false → r.differ ≠ 0 → Leaves (.sapRateWindow p) s fun t =>
      (t.port p).st = 1 ∧ (t.port p).differ = 0 ∧ t.bit R.sapEvtStatus 1 = true)) ∧
  (∀ f x rest s, s.sap.adm = x :: rest → x.tick ≤ s.tick →
    (tabGetD s.ecs (fld (admW s.mapCm 0) 7 4) {}).mode = .halted → f.ok = false ∨ 131072 < x.bits →
    Gives (.admStage f) s ((({ s with sap := { s.sap with adm := rest } } : State).inc R.sapAdmCntErr).evt R.sapEvtStatus 5)) ∧
  (∀ f x rest s, s.sap.adm = x :: rest → x.tick ≤ s.tick →
    (tabGetD s.ecs (fld (admW s.mapCm 0) 7 4) {}).mode = .halted → f.ok = true → x.bits ≤ 131072 → Leaves (.admStage f) s fun t =>
      t.sap.adm = rest ∧ t.tick = s.tick ∧ t.cm = s.cm) ∧
  (∀ f s, s.sap.adm = [] → Gives (.admStage f) s s)


/-! ### Links, gangs and pairs: chapter 14 -/

/-- R440 to R444, R447, R450 to R452, R457, R458, R460, R462, R466 to R468: a message on a link that is not UP, and one whose CRC
fails, has no other effect than its count; a message that is taken acts: path delay, presence and samples of the partner, staged
commands, ADMIT, VERDICT and COMMIT, triggers and doorbells, digests, DOWN notices, the journal and its copies, status, discovery,
resending. A link that loses lock is down and one that trains is UP with its numbers starting again. Losing the partner makes this
unit PREFERRED and SOLO; a copy without its COMMIT is dropped; a stalled VERIFY is reported.
The places of the arguments of a message are the model's choice, log entry 110. -/
def Obligations.LinksGangsAndPairs : Prop :=
  (∀ row ∈ messageRows, ∀ m s, linkUp s m.link = false → Gives (row.2 m) s s) ∧
  (∀ row ∈ messageRows, ∀ m s, m.kind = row.1 → linkUp s m.link = true → m.crcOk = false → isResent row.1 = false →
    Gives (row.2 m) s ((s.inc (linkReg m.link 0x10)).evt R.nylEvtStatus 4)) ∧
  (∀ m s, taken mkPhase m s = true → fromPartner s m = true ∨ s.nyl.up = some m.link → 4 ≤ m.args.length → timSource s ≠ 3 →
    let x := fun i => (m.args.getD i 0 : Int)
    let path := rneDiv (((x 1 - x 0) + (x 3 - x 2)) * 64) 2
    Gives (.phaseMessage m) s (s.setNat (linkReg m.link 4) (max 0 (rneDiv (path * 2000) 256)).toNat)) ∧
  (∀ m r s, taken mkPresence m s = true → fromPartner s m = true → rxNewest s (m.args.getD 0 0) s.tick = some r →
    tabGet r.reports (m.args.getD 1 0) = none → r.waits.contains (m.args.getD 1 0) = false → ∃ l,
      tabGet l (m.args.getD 1 0) = some (m.args.getD 2 0 == 1, m.args.getD 3 0) ∧
      Gives (.presenceReport m) s (s.putRx (m.args.getD 0 0) { r with reports := l })) ∧
  (∀ m s, taken mkSerial m s = true → fromPartner s m = true → m.args.getD 0 0 < 32 → isPref s = false →
    s.str.relT ≤ m.args.getD 1 0 → let r := s.port (m.args.getD 0 0)
    let v := (signedOf 32 (m.args.getD 2 0), signedOf 32 (m.args.getD 3 0))
    Gives (.fillPayload m) s (s.setPort (m.args.getD 0 0) { r with fill := tabSet r.fill (m.args.getD 1 0) v })) ∧
  (∀ m c s, taken mkStaged m s = true → forUs m s = true → epochsFrom s m = true → gangRole s ≠ 1 →
    copyOf s (m.args.getD 1 0) = some c → let x := fun i => m.args.getD i 0
    Gives (.stagedCommand m) s ((gotMsg m s).putTxn { c with
      packets := c.packets ++ [{ op := x 3, payload := m.bytes, depth := x 4, path := x 5 }]
      fw := x 6 == 1 })) ∧
  (∀ m s, taken mkAdmit m s = true → forUs m s = true → s.tick < m.args.getD 2 0 → gangRole s ≠ 1 →
    Leaves (.admitMsg m) s fun t =>
      ∃ b, copyOf t (m.args.getD 1 0) = some b ∧ b.boundary = m.args.getD 2 0 ∧ b.lateMax = m.args.getD 4 0 ∧
        b.undecided = false ∧ b.needGo = b.verdict.ok) ∧
  (∀ m a s, taken mkVerdict m s = true → forUs m s = true →
    s.cmd.txns.find? (fun t => t.undecided && (t.lead.getD t.num == m.args.getD 1 0)) = some a →
    a.awaits.contains (m.args.getD 2 0) = true → Gives (.verdict m) s (decideReady false ((gotMsg m s).putTxn { a with
      awaits := a.awaits.filter (· != m.args.getD 2 0)
      votes := a.votes ++ [(m.args.getD 2 0, m.args.getD 3 0, verdictOf (m.args.drop 4))] }))) ∧
  (∀ m c s, taken mkVerdict m s = true → forUs m s = true → (∀ a ∈ s.cmd.txns, a.undecided = false) →
    copyOf s (m.args.getD 1 0) = some c → c.votes = [] → Gives (.verdict m) s ((gotMsg m s).dropTxn c.num)) ∧
  (∀ s, (∀ a ∈ s.cmd.txns, a.undecided = false) → Gives .verdictTimeout s s) ∧
  (∀ a s, a ∈ s.cmd.txns → a.undecided = true → (∀ b ∈ s.cmd.txns, b.undecided = true → ∀ v ∈ b.awaits, v = partnerId) →
    s.dueOk (s.tickClk + 750000) = true → Gives .verdictTimeout s (decideReady true (s.atClk (s.tickClk + 750000)))) ∧
  (∀ m c s, taken mkCommit m s = true → forUs m s = true → copyOf s (m.args.getD 1 0) = some c → c.phase = .accepted →
    s.tick < m.args.getD 2 0 → c.votes = [] → Leaves (.commit m) s fun t => ∃ b, copyOf t (m.args.getD 1 0) = some b ∧
      b.boundary = m.args.getD 2 0 ∧ b.needGo = false ∧ b.phase = if c.verdict.ok then .admitted else .refused) ∧
  (∀ s, missingGo s = [] → Gives .commitMissing s s) ∧
  (∀ s, missingGo s ≠ [] → gangRole s ≠ 2 →
    Gives .commitMissing s (s.setTxns (s.cmd.txns.filter fun t => !((missingGo s).any fun u => u.num == t.num)))) ∧
  (∀ s, missingGo s ≠ [] → gangRole s = 2 → Leaves .commitMissing s fun t =>
    gangSt t = 3 ∧ t.bit R.nylEvtStatus 3 = true ∧ t.mir.based = false ∧
      t.cmd.txns = s.cmd.txns.filter fun a => !((missingGo s).any fun u => u.num == a.num)) ∧
  (∀ m s, taken mkSnapshot m s = true → forUs m s = true → let u := gotMsg m s
    Gives (.snapshotTriggerMessage m) s
      { u with snp := { u.snp with gang := u.snp.gang ++ [(m.args.getD 1 0, m.args.getD 2 0)] } }) ∧
  (∀ m s, taken mkDoorbell m s = true → forUs m s = true →
    Gives (.doorbellMessage m) s (ringSource (gotMsg m s) (m.args.getD 1 0 % 512))) ∧
  (∀ m s, taken mkDigest m s = true → fromPartner s m = true → inStep (mirSt s) = true →
    s.mir.theirs.any (·.1 == m.args.getD 1 0) = true → Gives (.digest m) s s) ∧
  (∀ m s, taken mkDigest m s = true → fromPartner s m = true → inStep (mirSt s) = true →
    s.mir.theirs.any (·.1 == m.args.getD 1 0) = false → s.mir.own.find? (·.1 == m.args.getD 1 0) = none →
    Gives (.digest m) s { s with mir := { s.mir with
      theirs := (s.mir.theirs ++ [(m.args.getD 1 0, m.args)]).filter fun e => decide (s.tick ≤ e.1 + 8) } }) ∧
  (∀ s, s.mir.own = [] → Gives .digestTimeout s s) ∧
  (∀ o rest s, s.mir.own = o :: rest → let due := o.2.1 + s.field R.mirDigTo 19 0
    s.dueOk due = true → s.mir.missing + 1 < s.field R.mirLossTicks 7 0 →
    let u := (s.atClk due).inc R.mirCntDigTo
    Gives .digestTimeout s { u with mir := { u.mir with own := rest, missing := s.mir.missing + 1 } }) ∧
  (∀ o rest s, s.mir.own = o :: rest → s.dueOk (o.2.1 + s.field R.mirDigTo 19 0) = true →
    s.field R.mirLossTicks 7 0 ≤ s.mir.missing + 1 → mirSt s = 2 → Leaves .digestTimeout s fun t =>
      mirSt t = 3 ∧ isPref t = true ∧ t.mir.own = [] ∧ t.mir.partner = 0) ∧
  (∀ k s, s.mir.downFrom = some k → k + s.field R.mirLossTicks 7 0 ≤ s.tick → mirSt s = 2 → Leaves .pairLinksDown s fun t =>
    mirSt t = 3 ∧ isPref t = true ∧ t.mir.own = [] ∧ t.mir.partner = 0) ∧
  (∀ s, s.mir.downFrom = none → Gives .pairLinksDown s s) ∧
  (∀ m s, taken mkDown m s = true → fromPartner s m = true → mirSt s = 2 → Leaves (.downNotice m) s fun t =>
    mirSt t = 3 ∧ isPref t = true ∧ t.mir.own = [] ∧ t.mir.partner = 0) ∧
  (∀ m x s, taken mkDown m s = true → fromPartner s m = false → gangRole s = 1 → m.args.getD 0 0 = gangMe s →
    tabGet s.nyl.members (m.args.getD 1 0) = some x → x.phase ≠ 4 → Gives (.downNotice m) s
      (((putMember (gotMsg m s) (m.args.getD 1 0) { x with phase := 4 }).inc R.nylCntMemberLost).evt R.nylEvtStatus 2)) ∧
  (∀ m s, taken mkJournal m s = true → forUs m s = true → replaying s = false → Gives (.journalMessage m) s (gotMsg m s)) ∧
  (∀ m c s, taken mkJournal m s = true → forUs m s = true → replaying s = true → m.args.getD 1 0 = 0 → m.chk = some c →
    m.args.getD 7 0 ≠ c.cm.epoch → Leaves (.journalMessage m) s fun t => t.jnl.seq = c.seq ∧ t.jnl.recs = [] ∧
      t.jnl.chk.cm.epoch = c.cm.epoch ∧ t.mir.based = true ∧ t.mir.target = some (m.args.getD 7 0) ∧ t.cm = s.cm) ∧
  (∀ m s, taken mkPrime m s = true → forUs m s = true → mirSt s = 6 → m.args.getD 1 0 = 0 → let u := gotMsg m s
    Gives (.primeMessage m) s { u with mir := { u.mir with copies := some (m.args.getD 2 0) } }) ∧
  (∀ m s, taken mkPrime m s = true → forUs m s = true → mirSt s = 6 → m.args.getD 1 0 = 2 → let u := gotMsg m s
    let w : State := { u with mir := { u.mir with got := u.mir.got + 1 } }
    let v := (m.args.drop 4).map (signedOf 64)
    Gives (.primeMessage m) s (w.setRt (m.args.getD 2 0) { w.rt (m.args.getD 2 0) with
      hwSel := m.args.getD 3 0
      hw := chunk 4 v.length v
      hwOld := none })) ∧
  (∀ s, s.mir.copies = some s.mir.got → s.mir.joinAt = none → mirSt s = 6 → Leaves .primeComplete s fun t =>
    mirSt t = 7 ∧ t.mir.copies = none ∧ t.mir.verifyFrom = s.tick ∧ t.reg R.mirVerifyCnt = 0) ∧
  (∀ s, s.mir.copies = some s.mir.got → s.mir.joinAt = none → mirSt s ≠ 6 → gangRole s = 2 → gangSt s ≠ 2 →
    Leaves .primeComplete s fun t => gangSt t = 2 ∧ t.mir.copies = none) ∧
  (∀ s, s.mir.copies = none → Gives .primeComplete s s) ∧
  (∀ m s, taken mkBulk m s = true → fromPartner s m = true → m.args.getD 1 0 = bulkStatus → m.args.getD 2 0 = 0 → mirSt s = 2 →
    let w := wordsOf m.bytes
    fld (wAt w 3) 3 0 = 2 → let u := gotMsg m s
    Gives (.bulkMessage m) s (({ u with mir := { u.mir with partner := 2, partnerFw := (wAt w 8).toNat } } : State).setBit
      R.mirState 6 true)) ∧
  (∀ m s, taken mkDiscovery m s = true → m.args.getD 0 0 = 0 → let u := gotMsg m s
    Gives (.discovery m) s { u with nyl := { u.nyl with ringSeen := true } }) ∧
  (∀ m s, taken mkDiscovery m s = true → m.args.getD 0 0 = 16 → let u := gotMsg m s
    Gives (.discovery m) s (sendOn u m.link mkAnswer ([0, 16] ++ answerArgs s) [])) ∧
  (∀ m s, taken mkAnswer m s = true → let x := fun i => m.args.getD i 0
    let u := ((gotMsg m s).setNat (linkReg m.link 8) (x 2)).setNat (linkReg m.link 0xC) (x 2 / 2 ^ 32)
    Gives (.discoveryAnswer m) s (if x 1 = 16 then { u with mir := { u.mir with answer := some (answerOf m.args) } }
      else { u with nyl := { u.nyl with answers := tabSet u.nyl.answers (x 1) (answerOf m.args) } })) ∧
  (∀ m s, taken mkResend m s = true → Leaves (.resendRequest m) s fun t => t.nyl = s.nyl ∧
    ∀ x ∈ (tabGetD s.nyl.sent (8 * m.link + m.args.getD 0 0) []).dropWhile (fun x => x.seq != m.args.getD 1 0),
      Out.link m.link x ∈ t.outbox) ∧
  (∀ l s, linkUp s l = true → Leaves (.laneLockLoss l) s fun t =>
    linkUp t l = false ∧ t.reg (linkReg l 0) = 0 ∧ t.bit R.nylEvtStatus 0 = true) ∧
  (∀ l s, linkUp s l = false → Gives (.laneLockLoss l) s s) ∧
  (∀ l s, l < 6 → linkOn s.mapCm l = true → linkUp s l = false → Leaves (.linkTrained l) s fun t =>
    linkUp t l = true ∧ t.bit R.nylEvtStatus 0 = true ∧ ∀ k, k / 8 = l → tabGet t.nyl.rx k = none) ∧
  (∀ l s, linkOn s.mapCm l = false ∨ linkUp s l = true → Gives (.linkTrained l) s s) ∧
  (∀ s, mirSt s = 7 → s.mir.stalled = false → s.mir.verifyFrom + s.regNat R.mirVerifyMax ≤ s.tick →
    Gives .verifyStall s (({ s with mir := { s.mir with stalled := true } } : State).evt R.mirEvtStatus 5)) ∧
  (∀ s, mirSt s ≠ 7 ∨ s.mir.stalled = true → Gives .verifyStall s s)
/-! ### Power, service and snapshots: chapters 15, 16 and 04 -/

/-- R481, R482, R483, R484: a supply warning sets WARN, clears SEALED, counts and raises its event, then the unit gives notice, falls
silent and refuses what is undecided, with shedding from the next egress block where SHED_EN is 1; the seal, once nothing is left to
seal, writes the header and sets SEALED; the end of the warning clears both bits and raises its event, and a shed unit takes
rendering up again. -/
def Obligations.SupplyWarningSealAndClear : Prop :=
  (∀ s : State, s.dieRuns = true → s.bit R.pwrStatus 3 = false →
    let v := warnActions (warnMarked s)
    Gives .supplyWarning s (if v.bit R.pwrCtrl 0 then startShed v else v)) ∧
  (∀ s : State, s.dieRuns = true → passBlocked s = true → s.bit R.pwrStatus 5 = false → allSealed s = true →
    Gives .journalSealed s ((({ s with jnl := { s.jnl with clean := some (lastSealed s), hdrNum := s.jnl.hdrNum + 1 } } :
      State).setBit R.pwrStatus 5 true).evt R.pwrEvtStatus 2)) ∧
  (∀ s : State, s.dieRuns = true → s.bit R.pwrStatus 3 = true →
    let v := ((s.setBit R.pwrStatus 3 false).setBit R.pwrStatus 5 false).evt R.pwrEvtStatus 1
    let w : State := if s.pwr.shedAt.isSome then { v with pwr := { v.pwr with unshed := true } } else v
    Gives .warningClear s (if gangRole s = 2 then tellLeader (w.setField R.nylGangState 26 24 3) 1 0 else w))

/-- R478: the clamp spends its allowance while the input is above 75 V, what is left stays for the next time, an exhausted allowance
or 100 V opens the input, which closes again after 10 ms below 75 V, and the allowance is whole again after 10 s; OV_CLAMP shows the
clamp, and clamps and trips are counted with EVT_PWR_OV. -/
def Obligations.OverVoltage : Prop :=
  (∀ s : State, s.dieRuns = true → s.pwr.inputOpen = false → s.pwr.clampAt = none → s.pwr.allowance ≠ 0 →
    Gives .ovClamp s (((({ s with pwr := { s.pwr with clampAt := some s.clk, inputLow := none } } : State).setBit R.pwrStatus 6
      true).inc R.pwrCntOv).evt R.pwrEvtStatus 3)) ∧
  (∀ c (s : State), s.dieRuns = true → s.pwr.clampAt = some c → s.clk - c < s.pwr.allowance →
    Gives .ovClampEnd s (({ s with pwr := { s.pwr with
      allowance := s.pwr.allowance - (s.clk - c)
      clampAt := none
      inputLow := some s.clk } } : State).setBit R.pwrStatus 6 false)) ∧
  (∀ c (s : State), s.dieRuns = true → s.pwr.inputOpen = false → s.pwr.clampAt = some c →
    Gives .ovTrip s (((({ s with pwr := { s.pwr with
      allowance := s.pwr.allowance - (s.clk - c)
      clampAt := none
      inputLow := none
      inputOpen := true } } : State).setBit R.pwrStatus 6 false).inc R.pwrCntOv).evt R.pwrEvtStatus 3)) ∧
  (∀ s : State, s.pwr.inputOpen = true →
    Gives .inputReclose s { s with pwr := { s.pwr with inputOpen := false, inputLow := some (s.clk - 12500000) } }) ∧
  (∀ c (s : State), s.pwr.inputLow = some c → s.pwr.inputOpen = false → s.dueOk (c + 12500000000) = true →
    Gives .allowanceRefill s { s with
      clk := max s.clk (c + 12500000000)
      pwr := { s.pwr with allowance := 125000000, inputLow := none } })

/-- R479, R486, R494: what resets the die and with which cause: HOLD below 31.0 V (cause 1, or 6 with the input open), RESET_N (2), an
ordered reset (3, booting at once), and what brings it back: the restart condition, the pin's release; below 12 V the retained cause
is lost. -/
def Obligations.DieResets : Prop :=
  (∀ s : State, s.dieRuns = true → Leaves .brownOutReset s fun t =>
    FreshDie (if s.pwr.inputOpen then 6 else 1) .held s t ∧ t.pwr.needHold = true) ∧
  (∀ s : State, s.dieRuns = true → Leaves .resetN s fun t => FreshDie 2 .held s t ∧ t.pwr.resetPin = true) ∧
  (∀ c (s : State), s.cmd.resetDue = some c → s.dueOk c = true → Leaves .deferredReset s fun t =>
    FreshDie 3 .running { s with clk := max s.clk c } t ∧ bootStage t = 1) ∧
  (∀ s : State, s.dieRuns = false → s.pwr.needHold = true → s.pwr.resetPin = false → Leaves .restart s fun t =>
    FreshDie s.pwr.cause .running s t ∧ bootStage t = 1 ∧ t.pwr.needHold = false ∧ t.pwr.bootAt = s.clk) ∧
  (∀ s : State, s.dieRuns = false → s.pwr.needHold = true → s.pwr.resetPin = true →
    Gives .restart s { s with pwr := { s.pwr with needHold := false, retained := true, reset := .held } }) ∧
  (∀ s : State, s.dieRuns = false → s.pwr.needHold = false → s.pwr.resetPin = true → Leaves .resetNRelease s fun t =>
    FreshDie s.pwr.cause .running s t ∧ bootStage t = 1 ∧ t.pwr.resetPin = false) ∧
  (∀ s : State, s.dieRuns = false → Gives .retentionLoss s ((({ s with pwr := { s.pwr with
    reset := .off
    cause := 0
    retained := false
    needHold := true
    thermRestart := false } } : State).setReg R.pwrResetCause 0).setBit R.pwrStatus 8 false))

/-- R487, R506: boot goes from stage to stage: an image that is valid, the self-test with its failure record, the firmware with the
locked interrupt entries, READY with its event; the oven's warmth is shown when it is reached. -/
def Obligations.BootStages : Prop :=
  (∀ r i ver svn (s : State), s.dieRuns = true → bootStage s = 1 → chooseImage s = some (i, ver, svn) →
    Gives (.bootStageEnd r) s (({ s with svc := { s.svc with
      running := i
      runVer := ver
      runSvn := svn
      fallback := i != s.svc.select } } : State).setField R.pwrStatus 23 20 2)) ∧
  (∀ r (s : State), s.dieRuns = true → bootStage s = 1 → chooseImage s = none →
    Gives (.bootStageEnd r) s (s.setField R.pwrStatus 23 20 7)) ∧
  (∀ r (s : State), s.dieRuns = true → bootStage s = 2 → r.ok = true →
    Gives (.bootStageEnd r) s (s.setField R.pwrStatus 23 20 3)) ∧
  (∀ r (s : State), s.dieRuns = true → bootStage s = 2 → r.ok = false → Leaves (.bootStageEnd r) s fun t =>
    bootStage t = 6 ∧ t.bit R.pwrBistFail 31 = true ∧ t.field R.pwrBistFail 7 0 = r.fail % 256 ∧ t.pins.faultN = false) ∧
  (∀ r (s : State), s.dieRuns = true → bootStage s = 3 → Leaves (.bootStageEnd r) s fun t =>
    bootStage t = 4 ∧ t.reg (irqCfg 40) = 0xA0000F00 ∧
      ∀ g, 480 ≤ g → g < 512 → t.srcEn g = true ∧ 1 ≤ irqTarget t g ∧ irqTarget t g ≤ 4) ∧
  (∀ r (s : State), s.dieRuns = true → bootStage s = 4 → Leaves (.bootStageEnd r) s fun t => t.bit R.pwrEvtStatus 8 = true) ∧
  (∀ s : State, s.pwr.reset ≠ .off → Gives .ocxoWarm s (s.setBit R.pwrStatus 8 true))

/-- R489, R490: a sample shows the three temperatures and the peak; WARN sets from 100 °C with its event and clears below 95 °C; the
third sample in a row from 115 °C trips; from 125 °C the die resets with cause 5. Eight ticks after a trip the die goes to standby with cause 4, and below 85 °C it boots again where
PWR_CTRL asked for it. Temperatures are Q8.8. -/
def Obligations.Temperature : Prop :=
  (∀ tj ts tx (s : State), s.dieRuns = true → -32768 ≤ tj → tj < 25600 → s.pwr.hot = 0 →
    let v := ((s.setNat R.pwrTj (tempWord tj)).setNat R.pwrTstage (tempWord ts)).setNat R.pwrTocxo (tempWord tx)
    let p := if tempOf (s.reg R.pwrTjPeak) < tj then v.setNat R.pwrTjPeak (tempWord tj) else v
    Gives (.thermalSample tj ts tx) s (if tj < 24320 then p.setBit R.pwrStatus 7 false else p)) ∧
  (∀ tj ts tx (s : State), s.dieRuns = true → 25600 ≤ tj → tj < 29440 → s.bit R.pwrStatus 7 = false →
    Leaves (.thermalSample tj ts tx) s fun t => t.bit R.pwrStatus 7 = true ∧ t.bit R.pwrEvtStatus 4 = true ∧
      t.reg R.pwrTj = wd tj.toNat ∧ t.pwr = { s.pwr with hot := 0 } ∧ t.cm = s.cm ∧ t.ecs = s.ecs) ∧
  (∀ tj ts tx (s : State), s.dieRuns = true → 29440 ≤ tj → tj < 32000 → s.pwr.hot = 2 → s.pwr.trip = false →
    Leaves (.thermalSample tj ts tx) s fun t => t.pwr.trip = true ∧ t.pwr.tripAt.isSome = true) ∧
  (∀ tj ts tx (s : State), s.dieRuns = true → 32000 ≤ tj → Leaves (.thermalSample tj ts tx) s fun t =>
    t.pwr.reset = .held ∧ t.pwr.cause = 5 ∧ t.reg R.pwrResetCause = 5 ∧ t.pwr.needHold = true ∧ t.cm = {}) ∧
  (∀ k (s : State), s.pwr.tripAt = some k → k + 9 ≤ nextOut s → Leaves .thermalPowerDown s fun t =>
    FreshDie 4 .standby s t ∧ t.reg R.pwrTj = s.reg R.pwrTj ∧ t.pwr.thermRestart = s.bit R.pwrCtrl 1) ∧
  (∀ s : State, s.pwr.reset = .standby → s.pwr.thermRestart = true → s.pwr.needHold = false →
    tempOf (s.reg R.pwrTj) < 21760 → Leaves .thermalRestart s fun t => FreshDie s.pwr.cause .running s t ∧ bootStage t = 1)

/-- R491, R492, R493: a fault on a driven output switches its driver off, shows it, and retries after 100 ms: a good pin is driven
again, a bad one waits as long again and is counted. A microphone line found stuck or open is flagged once, counted, with an event;
a probe that did not follow clears the run; the stuck flag clears when the line moves. -/
def Obligations.DriversAndMicrophones : Prop :=
  (∀ pin (s : State), s.dieRuns = true → driven s pin = true → s.bit (R.pwrDrvOff + 4 * (pin / 32)) (pin % 32) = false →
    Gives (.driverFault pin false) s (driverOff pin R.pwrDrvShort s)) ∧
  (∀ pin (s : State), s.dieRuns = true → driven s pin = true → s.bit (R.pwrDrvOff + 4 * (pin / 32)) (pin % 32) = false →
    s.bit (R.pwrDrvOpenEn + 4 * (pin / 32)) (pin % 32) = true → Gives (.driverFault pin true) s (driverOff pin R.pwrDrvOpen s)) ∧
  (∀ pin due (s : State), tabGet s.pwr.drv pin = some due → s.dueOk due = true →
    Gives (.driverRetry pin true) s (({ s with
      clk := max s.clk due
      pwr := { s.pwr with drv := tabDel s.pwr.drv pin } } : State).setBit (R.pwrDrvOff + 4 * (pin / 32)) (pin % 32) false) ∧
    Gives (.driverRetry pin false) s (({ s with
      clk := max s.clk due
      pwr := { s.pwr with drv := tabSet s.pwr.drv pin (due + 125000000) } } : State).inc R.pwrCntDrvRetry)) ∧
  (∀ mic (s : State), micWatched s mic = true → s.bit R.pwrMicStuck mic = false →
    Gives (.micStuck mic) s (micReset mic none (((s.setBit R.pwrMicStuck mic true).inc R.pwrCntMic).evt R.pwrEvtStatus 7))) ∧
  (∀ mic (s : State), mic < 32 → Gives (.micStuckClear mic) s (s.setBit R.pwrMicStuck mic false)) ∧
  (∀ mic (s : State), micWatched s mic = true → Gives (.micOpenProbe mic false) s
    (({ s with pwr := { s.pwr with probes := tabDel s.pwr.probes mic } } : State).setBit R.pwrMicOpen mic false)) ∧
  (∀ mic (s : State), micWatched s mic = true → tabGetD s.pwr.probes mic 0 < 31 → Gives (.micOpenProbe mic true) s
    { s with pwr := { s.pwr with probes := tabSet s.pwr.probes mic (tabGetD s.pwr.probes mic 0 + 1) } }) ∧
  (∀ mic (s : State), micWatched s mic = true → 31 ≤ tabGetD s.pwr.probes mic 0 → s.bit R.pwrMicOpen mic = false →
    Gives (.micOpenProbe mic true) s (micReset mic none (((({ s with pwr := { s.pwr with
      probes := tabSet s.pwr.probes mic (tabGetD s.pwr.probes mic 0 + 1) } } :
      State).setBit R.pwrMicOpen mic true).inc R.pwrCntMic).evt R.pwrEvtStatus 7)))

/-- R501, R502, R503: SVC_CTRL and the session timeout close an open session with its event; a challenge and a back-off period end
at their times. -/
def Obligations.ServiceTimers : Prop :=
  (∀ (val : Word) (s : State), val.toNat.testBit 0 = true → s.svc.state = 2 →
    Gives (.svcClose val) s (({ s with svc := { s.svc with state := 1 } } : State).evt R.svcEvtStatus 1)) ∧
  (∀ b due (s : State), s.svc.chal = some (b, due) → s.dueOk due = true →
    Gives .challengeExpiry s { s with clk := max s.clk due, svc := { s.svc with chal := none } }) ∧
  (∀ s : State, let due := s.svc.opened + s.field R.svcSessionTo 16 0 * 1250000000
    s.svc.state = 2 → s.dueOk due = true →
    Gives .sessionExpiry s (({ s with clk := max s.clk due, svc := { s.svc with state := 1 } } : State).evt R.svcEvtStatus 1)) ∧
  (∀ due (s : State), s.svc.backoff = some due → s.dueOk due = true →
    Gives .backoffEnd s { s with clk := max s.clk due, svc := { s.svc with backoff := none } })

/-- R119, R120, R125, R126, R130: a snapshot command with EN set waits for the next boundary, a timed one for its sample, late when
that boundary is past; a released set is free and its group reads zero; a finished checkpoint becomes the one the header names. The
first two for a module that passes nothing on to gang members. -/
def Obligations.SnapshotsAndCheckpoint : Prop :=
  (∀ (val : Word) (s : State), s.dieRuns = true → val.toNat.testBit 0 = true → s.bit R.snpCtrl 0 = true →
    s.bit R.snpCtrl 1 = false → Gives (.snpTrig val) s { s with snp := { s.snp with cmd := true } }) ∧
  (∀ (val : Word) (s : State), s.dieRuns = true → s.bit R.snpCtrl 0 = true → s.bit R.snpCtrl 1 = false →
    let x := s.regNat R.snpTimeLo + 2 ^ 32 * val.toNat
    Gives (.snpTimeArm val) s ({ s with snp := { s.snp with
      time := some x
      timeLate := decide (ceilDiv x s.blockLen ≤ s.tick) } }.setReg R.snpTimeHi val)) ∧
  (∀ (val : Word) (s : State), s.dieRuns = true → val.toNat.testBit 0 = true → val.toNat.testBit 1 = false →
    ∃ u, Gives (.snpRelease val) s u ∧ u.snp = { s.snp with aHeld := false } ∧
      (∀ i, i < 6 → u.reg (snpGroup false + 4 * i) = 0) ∧ u = { s with regs := u.regs, snp := u.snp }) ∧
  (∀ (val : Word) (s : State), s.dieRuns = true → val.toNat.testBit 0 = false → val.toNat.testBit 1 = true →
    ∃ u, Gives (.snpRelease val) s u ∧ u.snp = { s.snp with bHeld := false } ∧
      (∀ i, i < 6 → u.reg (snpGroup true + 4 * i) = 0) ∧ u = { s with regs := u.regs, snp := u.snp }) ∧
  (∀ c (s : State), s.jnl.bg = some c → Gives .checkpointComplete s { s with jnl := { s.jnl with
    chk := c
    bg := none
    slot := 1 - s.jnl.slot
    hdrNum := s.jnl.hdrNum + 1 } })
end

