-- ==== Sys2Proof/Laws/Tab.lean ====
section
/-! SUPPORT. Tables: what is read after an entry was set or removed. -/

namespace Sys2Proof.Machine

@[simp] theorem tabGet_tabSet_self {α : Type} (t : Tab α) (i : Nat) (a : α) : tabGet (tabSet t i a) i = some a := by
  induction t with
  | nil => simp [tabSet, tabGet]
  | cons e t ih =>
    obtain ⟨k, v⟩ := e
    simp only [tabSet]
    split
    · simp [tabGet]
    · next h1 =>
      have hk : ¬ k = i := by simpa using h1
      split
      · simp [tabGet]
      · simp [tabGet, ih, hk]

theorem tabGet_tabSet_ne {α : Type} (t : Tab α) {i j : Nat} (a : α) (h : j ≠ i) : tabGet (tabSet t i a) j = tabGet t j := by
  have hij : ¬ i = j := fun e => h e.symm
  induction t with
  | nil => simp [tabSet, tabGet, hij]
  | cons e t ih =>
    obtain ⟨k, v⟩ := e
    simp only [tabSet]
    split
    · next hk =>
      have hk : k = i := by simpa using hk
      subst hk
      simp [tabGet, hij]
    · split
      · simp [tabGet, hij]
      · simp only [tabGet, ih]

@[simp] theorem tabGetD_tabSet_self {α : Type} (t : Tab α) (i : Nat) (a d : α) : tabGetD (tabSet t i a) i d = a := by
  simp [tabGetD]

theorem tabGetD_tabSet_ne {α : Type} (t : Tab α) {i j : Nat} (a d : α) (h : j ≠ i) :
    tabGetD (tabSet t i a) j d = tabGetD t j d := by
  simp [tabGetD, tabGet_tabSet_ne t a h]

/-- A removed entry reads as an absent one. -/
@[simp] theorem tabGet_tabDel_self {α : Type} (t : Tab α) (i : Nat) : tabGet (tabDel t i) i = none := by
  induction t with
  | nil => rfl
  | cons e t ih =>
    obtain ⟨k, v⟩ := e
    by_cases h : k = i
    · subst h
      simpa [tabDel] using ih
    · have e2 : tabDel ((k, v) :: t) i = (k, v) :: tabDel t i := by simp [tabDel, h]
      rw [e2]
      simp [tabGet, h, ih]

theorem tabGet_tabDel_ne {α : Type} (t : Tab α) {i j : Nat} (h : j ≠ i) : tabGet (tabDel t i) j = tabGet t j := by
  induction t with
  | nil => rfl
  | cons e t ih =>
    obtain ⟨k, v⟩ := e
    by_cases hk : k = i
    · subst hk
      have e2 : tabDel ((k, v) :: t) k = tabDel t k := by simp [tabDel]
      have hkj : ¬ k = j := fun e => h e.symm
      rw [e2, ih]
      simp [tabGet, hkj]
    · have e2 : tabDel ((k, v) :: t) i = (k, v) :: tabDel t i := by simp [tabDel, hk]
      rw [e2]
      simp only [tabGet, ih]

end Sys2Proof.Machine
end

