-- ==== Sys2Proof/Laws/State.lean ====
section
/-! SUPPORT. What each update of the state leaves alone: one lemma for each field. -/

namespace Sys2Proof.Machine

/-! ### setReg -/

@[simp] theorem setReg_pending (s : State) (a : Nat) (v : Word) : (s.setReg a v).pending = s.pending := rfl
@[simp] theorem setReg_clk (s : State) (a : Nat) (v : Word) : (s.setReg a v).clk = s.clk := rfl
@[simp] theorem setReg_tick (s : State) (a : Nat) (v : Word) : (s.setReg a v).tick = s.tick := rfl
@[simp] theorem setReg_tickClk (s : State) (a : Nat) (v : Word) : (s.setReg a v).tickClk = s.tickClk := rfl
@[simp] theorem setReg_outbox (s : State) (a : Nat) (v : Word) : (s.setReg a v).outbox = s.outbox := rfl
@[simp] theorem setReg_freeCtr (s : State) (a : Nat) (v : Word) : (s.setReg a v).freeCtr = s.freeCtr := rfl
@[simp] theorem setReg_latch (s : State) (a : Nat) (v : Word) : (s.setReg a v).latch = s.latch := rfl
@[simp] theorem setReg_modId (s : State) (a : Nat) (v : Word) : (s.setReg a v).modId = s.modId := rfl
@[simp] theorem setReg_pins (s : State) (a : Nat) (v : Word) : (s.setReg a v).pins = s.pins := rfl
@[simp] theorem setReg_cm (s : State) (a : Nat) (v : Word) : (s.setReg a v).cm = s.cm := rfl
@[simp] theorem setReg_hist (s : State) (a : Nat) (v : Word) : (s.setReg a v).hist = s.hist := rfl
@[simp] theorem setReg_irq (s : State) (a : Nat) (v : Word) : (s.setReg a v).irq = s.irq := rfl
@[simp] theorem setReg_cmd (s : State) (a : Nat) (v : Word) : (s.setReg a v).cmd = s.cmd := rfl
@[simp] theorem setReg_jnl (s : State) (a : Nat) (v : Word) : (s.setReg a v).jnl = s.jnl := rfl
@[simp] theorem setReg_snp (s : State) (a : Nat) (v : Word) : (s.setReg a v).snp = s.snp := rfl
@[simp] theorem setReg_pwr (s : State) (a : Nat) (v : Word) : (s.setReg a v).pwr = s.pwr := rfl
@[simp] theorem setReg_svc (s : State) (a : Nat) (v : Word) : (s.setReg a v).svc = s.svc := rfl
@[simp] theorem setReg_ecs (s : State) (a : Nat) (v : Word) : (s.setReg a v).ecs = s.ecs := rfl
@[simp] theorem setReg_ecIo (s : State) (a : Nat) (v : Word) : (s.setReg a v).ecIo = s.ecIo := rfl
@[simp] theorem setReg_tim (s : State) (a : Nat) (v : Word) : (s.setReg a v).tim = s.tim := rfl
@[simp] theorem setReg_geo (s : State) (a : Nat) (v : Word) : (s.setReg a v).geo = s.geo := rfl
@[simp] theorem setReg_smp (s : State) (a : Nat) (v : Word) : (s.setReg a v).smp = s.smp := rfl
@[simp] theorem setReg_cors (s : State) (a : Nat) (v : Word) : (s.setReg a v).cors = s.cors := rfl
@[simp] theorem setReg_cis (s : State) (a : Nat) (v : Word) : (s.setReg a v).cis = s.cis := rfl
@[simp] theorem setReg_str (s : State) (a : Nat) (v : Word) : (s.setReg a v).str = s.str := rfl
@[simp] theorem setReg_sap (s : State) (a : Nat) (v : Word) : (s.setReg a v).sap = s.sap := rfl
@[simp] theorem setReg_nyl (s : State) (a : Nat) (v : Word) : (s.setReg a v).nyl = s.nyl := rfl
@[simp] theorem setReg_mir (s : State) (a : Nat) (v : Word) : (s.setReg a v).mir = s.mir := rfl
@[simp] theorem setReg_mea (s : State) (a : Nat) (v : Word) : (s.setReg a v).mea = s.mea := rfl

/-! ### setNat -/

@[simp] theorem setNat_pending (s : State) (a v : Nat) : (s.setNat a v).pending = s.pending := rfl
@[simp] theorem setNat_clk (s : State) (a v : Nat) : (s.setNat a v).clk = s.clk := rfl
@[simp] theorem setNat_tick (s : State) (a v : Nat) : (s.setNat a v).tick = s.tick := rfl
@[simp] theorem setNat_tickClk (s : State) (a v : Nat) : (s.setNat a v).tickClk = s.tickClk := rfl
@[simp] theorem setNat_outbox (s : State) (a v : Nat) : (s.setNat a v).outbox = s.outbox := rfl
@[simp] theorem setNat_freeCtr (s : State) (a v : Nat) : (s.setNat a v).freeCtr = s.freeCtr := rfl
@[simp] theorem setNat_latch (s : State) (a v : Nat) : (s.setNat a v).latch = s.latch := rfl
@[simp] theorem setNat_modId (s : State) (a v : Nat) : (s.setNat a v).modId = s.modId := rfl
@[simp] theorem setNat_pins (s : State) (a v : Nat) : (s.setNat a v).pins = s.pins := rfl
@[simp] theorem setNat_cm (s : State) (a v : Nat) : (s.setNat a v).cm = s.cm := rfl
@[simp] theorem setNat_hist (s : State) (a v : Nat) : (s.setNat a v).hist = s.hist := rfl
@[simp] theorem setNat_irq (s : State) (a v : Nat) : (s.setNat a v).irq = s.irq := rfl
@[simp] theorem setNat_cmd (s : State) (a v : Nat) : (s.setNat a v).cmd = s.cmd := rfl
@[simp] theorem setNat_jnl (s : State) (a v : Nat) : (s.setNat a v).jnl = s.jnl := rfl
@[simp] theorem setNat_snp (s : State) (a v : Nat) : (s.setNat a v).snp = s.snp := rfl
@[simp] theorem setNat_pwr (s : State) (a v : Nat) : (s.setNat a v).pwr = s.pwr := rfl
@[simp] theorem setNat_svc (s : State) (a v : Nat) : (s.setNat a v).svc = s.svc := rfl
@[simp] theorem setNat_ecs (s : State) (a v : Nat) : (s.setNat a v).ecs = s.ecs := rfl
@[simp] theorem setNat_ecIo (s : State) (a v : Nat) : (s.setNat a v).ecIo = s.ecIo := rfl
@[simp] theorem setNat_tim (s : State) (a v : Nat) : (s.setNat a v).tim = s.tim := rfl
@[simp] theorem setNat_geo (s : State) (a v : Nat) : (s.setNat a v).geo = s.geo := rfl
@[simp] theorem setNat_smp (s : State) (a v : Nat) : (s.setNat a v).smp = s.smp := rfl
@[simp] theorem setNat_cors (s : State) (a v : Nat) : (s.setNat a v).cors = s.cors := rfl
@[simp] theorem setNat_cis (s : State) (a v : Nat) : (s.setNat a v).cis = s.cis := rfl
@[simp] theorem setNat_str (s : State) (a v : Nat) : (s.setNat a v).str = s.str := rfl
@[simp] theorem setNat_sap (s : State) (a v : Nat) : (s.setNat a v).sap = s.sap := rfl
@[simp] theorem setNat_nyl (s : State) (a v : Nat) : (s.setNat a v).nyl = s.nyl := rfl
@[simp] theorem setNat_mir (s : State) (a v : Nat) : (s.setNat a v).mir = s.mir := rfl
@[simp] theorem setNat_mea (s : State) (a v : Nat) : (s.setNat a v).mea = s.mea := rfl

/-! ### setBit -/

@[simp] theorem setBit_pending (s : State) (a i : Nat) (v : Bool) : (s.setBit a i v).pending = s.pending := rfl
@[simp] theorem setBit_clk (s : State) (a i : Nat) (v : Bool) : (s.setBit a i v).clk = s.clk := rfl
@[simp] theorem setBit_tick (s : State) (a i : Nat) (v : Bool) : (s.setBit a i v).tick = s.tick := rfl
@[simp] theorem setBit_tickClk (s : State) (a i : Nat) (v : Bool) : (s.setBit a i v).tickClk = s.tickClk := rfl
@[simp] theorem setBit_outbox (s : State) (a i : Nat) (v : Bool) : (s.setBit a i v).outbox = s.outbox := rfl
@[simp] theorem setBit_freeCtr (s : State) (a i : Nat) (v : Bool) : (s.setBit a i v).freeCtr = s.freeCtr := rfl
@[simp] theorem setBit_latch (s : State) (a i : Nat) (v : Bool) : (s.setBit a i v).latch = s.latch := rfl
@[simp] theorem setBit_modId (s : State) (a i : Nat) (v : Bool) : (s.setBit a i v).modId = s.modId := rfl
@[simp] theorem setBit_pins (s : State) (a i : Nat) (v : Bool) : (s.setBit a i v).pins = s.pins := rfl
@[simp] theorem setBit_cm (s : State) (a i : Nat) (v : Bool) : (s.setBit a i v).cm = s.cm := rfl
@[simp] theorem setBit_hist (s : State) (a i : Nat) (v : Bool) : (s.setBit a i v).hist = s.hist := rfl
@[simp] theorem setBit_irq (s : State) (a i : Nat) (v : Bool) : (s.setBit a i v).irq = s.irq := rfl
@[simp] theorem setBit_cmd (s : State) (a i : Nat) (v : Bool) : (s.setBit a i v).cmd = s.cmd := rfl
@[simp] theorem setBit_jnl (s : State) (a i : Nat) (v : Bool) : (s.setBit a i v).jnl = s.jnl := rfl
@[simp] theorem setBit_snp (s : State) (a i : Nat) (v : Bool) : (s.setBit a i v).snp = s.snp := rfl
@[simp] theorem setBit_pwr (s : State) (a i : Nat) (v : Bool) : (s.setBit a i v).pwr = s.pwr := rfl
@[simp] theorem setBit_svc (s : State) (a i : Nat) (v : Bool) : (s.setBit a i v).svc = s.svc := rfl
@[simp] theorem setBit_ecs (s : State) (a i : Nat) (v : Bool) : (s.setBit a i v).ecs = s.ecs := rfl
@[simp] theorem setBit_ecIo (s : State) (a i : Nat) (v : Bool) : (s.setBit a i v).ecIo = s.ecIo := rfl
@[simp] theorem setBit_tim (s : State) (a i : Nat) (v : Bool) : (s.setBit a i v).tim = s.tim := rfl
@[simp] theorem setBit_geo (s : State) (a i : Nat) (v : Bool) : (s.setBit a i v).geo = s.geo := rfl
@[simp] theorem setBit_smp (s : State) (a i : Nat) (v : Bool) : (s.setBit a i v).smp = s.smp := rfl
@[simp] theorem setBit_cors (s : State) (a i : Nat) (v : Bool) : (s.setBit a i v).cors = s.cors := rfl
@[simp] theorem setBit_cis (s : State) (a i : Nat) (v : Bool) : (s.setBit a i v).cis = s.cis := rfl
@[simp] theorem setBit_str (s : State) (a i : Nat) (v : Bool) : (s.setBit a i v).str = s.str := rfl
@[simp] theorem setBit_sap (s : State) (a i : Nat) (v : Bool) : (s.setBit a i v).sap = s.sap := rfl
@[simp] theorem setBit_nyl (s : State) (a i : Nat) (v : Bool) : (s.setBit a i v).nyl = s.nyl := rfl
@[simp] theorem setBit_mir (s : State) (a i : Nat) (v : Bool) : (s.setBit a i v).mir = s.mir := rfl
@[simp] theorem setBit_mea (s : State) (a i : Nat) (v : Bool) : (s.setBit a i v).mea = s.mea := rfl

/-! ### setField -/

@[simp] theorem setField_pending (s : State) (a hi lo v : Nat) : (s.setField a hi lo v).pending = s.pending := rfl
@[simp] theorem setField_clk (s : State) (a hi lo v : Nat) : (s.setField a hi lo v).clk = s.clk := rfl
@[simp] theorem setField_tick (s : State) (a hi lo v : Nat) : (s.setField a hi lo v).tick = s.tick := rfl
@[simp] theorem setField_tickClk (s : State) (a hi lo v : Nat) : (s.setField a hi lo v).tickClk = s.tickClk := rfl
@[simp] theorem setField_outbox (s : State) (a hi lo v : Nat) : (s.setField a hi lo v).outbox = s.outbox := rfl
@[simp] theorem setField_freeCtr (s : State) (a hi lo v : Nat) : (s.setField a hi lo v).freeCtr = s.freeCtr := rfl
@[simp] theorem setField_latch (s : State) (a hi lo v : Nat) : (s.setField a hi lo v).latch = s.latch := rfl
@[simp] theorem setField_modId (s : State) (a hi lo v : Nat) : (s.setField a hi lo v).modId = s.modId := rfl
@[simp] theorem setField_pins (s : State) (a hi lo v : Nat) : (s.setField a hi lo v).pins = s.pins := rfl
@[simp] theorem setField_cm (s : State) (a hi lo v : Nat) : (s.setField a hi lo v).cm = s.cm := rfl
@[simp] theorem setField_hist (s : State) (a hi lo v : Nat) : (s.setField a hi lo v).hist = s.hist := rfl
@[simp] theorem setField_irq (s : State) (a hi lo v : Nat) : (s.setField a hi lo v).irq = s.irq := rfl
@[simp] theorem setField_cmd (s : State) (a hi lo v : Nat) : (s.setField a hi lo v).cmd = s.cmd := rfl
@[simp] theorem setField_jnl (s : State) (a hi lo v : Nat) : (s.setField a hi lo v).jnl = s.jnl := rfl
@[simp] theorem setField_snp (s : State) (a hi lo v : Nat) : (s.setField a hi lo v).snp = s.snp := rfl
@[simp] theorem setField_pwr (s : State) (a hi lo v : Nat) : (s.setField a hi lo v).pwr = s.pwr := rfl
@[simp] theorem setField_svc (s : State) (a hi lo v : Nat) : (s.setField a hi lo v).svc = s.svc := rfl
@[simp] theorem setField_ecs (s : State) (a hi lo v : Nat) : (s.setField a hi lo v).ecs = s.ecs := rfl
@[simp] theorem setField_ecIo (s : State) (a hi lo v : Nat) : (s.setField a hi lo v).ecIo = s.ecIo := rfl
@[simp] theorem setField_tim (s : State) (a hi lo v : Nat) : (s.setField a hi lo v).tim = s.tim := rfl
@[simp] theorem setField_geo (s : State) (a hi lo v : Nat) : (s.setField a hi lo v).geo = s.geo := rfl
@[simp] theorem setField_smp (s : State) (a hi lo v : Nat) : (s.setField a hi lo v).smp = s.smp := rfl
@[simp] theorem setField_cors (s : State) (a hi lo v : Nat) : (s.setField a hi lo v).cors = s.cors := rfl
@[simp] theorem setField_cis (s : State) (a hi lo v : Nat) : (s.setField a hi lo v).cis = s.cis := rfl
@[simp] theorem setField_str (s : State) (a hi lo v : Nat) : (s.setField a hi lo v).str = s.str := rfl
@[simp] theorem setField_sap (s : State) (a hi lo v : Nat) : (s.setField a hi lo v).sap = s.sap := rfl
@[simp] theorem setField_nyl (s : State) (a hi lo v : Nat) : (s.setField a hi lo v).nyl = s.nyl := rfl
@[simp] theorem setField_mir (s : State) (a hi lo v : Nat) : (s.setField a hi lo v).mir = s.mir := rfl
@[simp] theorem setField_mea (s : State) (a hi lo v : Nat) : (s.setField a hi lo v).mea = s.mea := rfl

/-! ### setNat64 -/

@[simp] theorem setNat64_pending (s : State) (a v : Nat) : (s.setNat64 a v).pending = s.pending := rfl
@[simp] theorem setNat64_clk (s : State) (a v : Nat) : (s.setNat64 a v).clk = s.clk := rfl
@[simp] theorem setNat64_tick (s : State) (a v : Nat) : (s.setNat64 a v).tick = s.tick := rfl
@[simp] theorem setNat64_tickClk (s : State) (a v : Nat) : (s.setNat64 a v).tickClk = s.tickClk := rfl
@[simp] theorem setNat64_outbox (s : State) (a v : Nat) : (s.setNat64 a v).outbox = s.outbox := rfl
@[simp] theorem setNat64_freeCtr (s : State) (a v : Nat) : (s.setNat64 a v).freeCtr = s.freeCtr := rfl
@[simp] theorem setNat64_latch (s : State) (a v : Nat) : (s.setNat64 a v).latch = s.latch := rfl
@[simp] theorem setNat64_modId (s : State) (a v : Nat) : (s.setNat64 a v).modId = s.modId := rfl
@[simp] theorem setNat64_pins (s : State) (a v : Nat) : (s.setNat64 a v).pins = s.pins := rfl
@[simp] theorem setNat64_cm (s : State) (a v : Nat) : (s.setNat64 a v).cm = s.cm := rfl
@[simp] theorem setNat64_hist (s : State) (a v : Nat) : (s.setNat64 a v).hist = s.hist := rfl
@[simp] theorem setNat64_irq (s : State) (a v : Nat) : (s.setNat64 a v).irq = s.irq := rfl
@[simp] theorem setNat64_cmd (s : State) (a v : Nat) : (s.setNat64 a v).cmd = s.cmd := rfl
@[simp] theorem setNat64_jnl (s : State) (a v : Nat) : (s.setNat64 a v).jnl = s.jnl := rfl
@[simp] theorem setNat64_snp (s : State) (a v : Nat) : (s.setNat64 a v).snp = s.snp := rfl
@[simp] theorem setNat64_pwr (s : State) (a v : Nat) : (s.setNat64 a v).pwr = s.pwr := rfl
@[simp] theorem setNat64_svc (s : State) (a v : Nat) : (s.setNat64 a v).svc = s.svc := rfl
@[simp] theorem setNat64_ecs (s : State) (a v : Nat) : (s.setNat64 a v).ecs = s.ecs := rfl
@[simp] theorem setNat64_ecIo (s : State) (a v : Nat) : (s.setNat64 a v).ecIo = s.ecIo := rfl
@[simp] theorem setNat64_tim (s : State) (a v : Nat) : (s.setNat64 a v).tim = s.tim := rfl
@[simp] theorem setNat64_geo (s : State) (a v : Nat) : (s.setNat64 a v).geo = s.geo := rfl
@[simp] theorem setNat64_smp (s : State) (a v : Nat) : (s.setNat64 a v).smp = s.smp := rfl
@[simp] theorem setNat64_cors (s : State) (a v : Nat) : (s.setNat64 a v).cors = s.cors := rfl
@[simp] theorem setNat64_cis (s : State) (a v : Nat) : (s.setNat64 a v).cis = s.cis := rfl
@[simp] theorem setNat64_str (s : State) (a v : Nat) : (s.setNat64 a v).str = s.str := rfl
@[simp] theorem setNat64_sap (s : State) (a v : Nat) : (s.setNat64 a v).sap = s.sap := rfl
@[simp] theorem setNat64_nyl (s : State) (a v : Nat) : (s.setNat64 a v).nyl = s.nyl := rfl
@[simp] theorem setNat64_mir (s : State) (a v : Nat) : (s.setNat64 a v).mir = s.mir := rfl
@[simp] theorem setNat64_mea (s : State) (a v : Nat) : (s.setNat64 a v).mea = s.mea := rfl

/-! ### inc -/

@[simp] theorem inc_pending (s : State) (a k : Nat) : (s.inc a k).pending = s.pending := rfl
@[simp] theorem inc_clk (s : State) (a k : Nat) : (s.inc a k).clk = s.clk := rfl
@[simp] theorem inc_tick (s : State) (a k : Nat) : (s.inc a k).tick = s.tick := rfl
@[simp] theorem inc_tickClk (s : State) (a k : Nat) : (s.inc a k).tickClk = s.tickClk := rfl
@[simp] theorem inc_outbox (s : State) (a k : Nat) : (s.inc a k).outbox = s.outbox := rfl
@[simp] theorem inc_freeCtr (s : State) (a k : Nat) : (s.inc a k).freeCtr = s.freeCtr := rfl
@[simp] theorem inc_latch (s : State) (a k : Nat) : (s.inc a k).latch = s.latch := rfl
@[simp] theorem inc_modId (s : State) (a k : Nat) : (s.inc a k).modId = s.modId := rfl
@[simp] theorem inc_pins (s : State) (a k : Nat) : (s.inc a k).pins = s.pins := rfl
@[simp] theorem inc_cm (s : State) (a k : Nat) : (s.inc a k).cm = s.cm := rfl
@[simp] theorem inc_hist (s : State) (a k : Nat) : (s.inc a k).hist = s.hist := rfl
@[simp] theorem inc_irq (s : State) (a k : Nat) : (s.inc a k).irq = s.irq := rfl
@[simp] theorem inc_cmd (s : State) (a k : Nat) : (s.inc a k).cmd = s.cmd := rfl
@[simp] theorem inc_jnl (s : State) (a k : Nat) : (s.inc a k).jnl = s.jnl := rfl
@[simp] theorem inc_snp (s : State) (a k : Nat) : (s.inc a k).snp = s.snp := rfl
@[simp] theorem inc_pwr (s : State) (a k : Nat) : (s.inc a k).pwr = s.pwr := rfl
@[simp] theorem inc_svc (s : State) (a k : Nat) : (s.inc a k).svc = s.svc := rfl
@[simp] theorem inc_ecs (s : State) (a k : Nat) : (s.inc a k).ecs = s.ecs := rfl
@[simp] theorem inc_ecIo (s : State) (a k : Nat) : (s.inc a k).ecIo = s.ecIo := rfl
@[simp] theorem inc_tim (s : State) (a k : Nat) : (s.inc a k).tim = s.tim := rfl
@[simp] theorem inc_geo (s : State) (a k : Nat) : (s.inc a k).geo = s.geo := rfl
@[simp] theorem inc_smp (s : State) (a k : Nat) : (s.inc a k).smp = s.smp := rfl
@[simp] theorem inc_cors (s : State) (a k : Nat) : (s.inc a k).cors = s.cors := rfl
@[simp] theorem inc_cis (s : State) (a k : Nat) : (s.inc a k).cis = s.cis := rfl
@[simp] theorem inc_str (s : State) (a k : Nat) : (s.inc a k).str = s.str := rfl
@[simp] theorem inc_sap (s : State) (a k : Nat) : (s.inc a k).sap = s.sap := rfl
@[simp] theorem inc_nyl (s : State) (a k : Nat) : (s.inc a k).nyl = s.nyl := rfl
@[simp] theorem inc_mir (s : State) (a k : Nat) : (s.inc a k).mir = s.mir := rfl
@[simp] theorem inc_mea (s : State) (a k : Nat) : (s.inc a k).mea = s.mea := rfl

/-! ### setPend -/

@[simp] theorem setPend_pending (s : State) (src : Nat) (v : Bool) : (s.setPend src v).pending = s.pending := rfl
@[simp] theorem setPend_clk (s : State) (src : Nat) (v : Bool) : (s.setPend src v).clk = s.clk := rfl
@[simp] theorem setPend_tick (s : State) (src : Nat) (v : Bool) : (s.setPend src v).tick = s.tick := rfl
@[simp] theorem setPend_tickClk (s : State) (src : Nat) (v : Bool) : (s.setPend src v).tickClk = s.tickClk := rfl
@[simp] theorem setPend_outbox (s : State) (src : Nat) (v : Bool) : (s.setPend src v).outbox = s.outbox := rfl
@[simp] theorem setPend_freeCtr (s : State) (src : Nat) (v : Bool) : (s.setPend src v).freeCtr = s.freeCtr := rfl
@[simp] theorem setPend_latch (s : State) (src : Nat) (v : Bool) : (s.setPend src v).latch = s.latch := rfl
@[simp] theorem setPend_modId (s : State) (src : Nat) (v : Bool) : (s.setPend src v).modId = s.modId := rfl
@[simp] theorem setPend_pins (s : State) (src : Nat) (v : Bool) : (s.setPend src v).pins = s.pins := rfl
@[simp] theorem setPend_cm (s : State) (src : Nat) (v : Bool) : (s.setPend src v).cm = s.cm := rfl
@[simp] theorem setPend_hist (s : State) (src : Nat) (v : Bool) : (s.setPend src v).hist = s.hist := rfl
@[simp] theorem setPend_irq (s : State) (src : Nat) (v : Bool) : (s.setPend src v).irq = s.irq := rfl
@[simp] theorem setPend_cmd (s : State) (src : Nat) (v : Bool) : (s.setPend src v).cmd = s.cmd := rfl
@[simp] theorem setPend_jnl (s : State) (src : Nat) (v : Bool) : (s.setPend src v).jnl = s.jnl := rfl
@[simp] theorem setPend_snp (s : State) (src : Nat) (v : Bool) : (s.setPend src v).snp = s.snp := rfl
@[simp] theorem setPend_pwr (s : State) (src : Nat) (v : Bool) : (s.setPend src v).pwr = s.pwr := rfl
@[simp] theorem setPend_svc (s : State) (src : Nat) (v : Bool) : (s.setPend src v).svc = s.svc := rfl
@[simp] theorem setPend_ecs (s : State) (src : Nat) (v : Bool) : (s.setPend src v).ecs = s.ecs := rfl
@[simp] theorem setPend_ecIo (s : State) (src : Nat) (v : Bool) : (s.setPend src v).ecIo = s.ecIo := rfl
@[simp] theorem setPend_tim (s : State) (src : Nat) (v : Bool) : (s.setPend src v).tim = s.tim := rfl
@[simp] theorem setPend_geo (s : State) (src : Nat) (v : Bool) : (s.setPend src v).geo = s.geo := rfl
@[simp] theorem setPend_smp (s : State) (src : Nat) (v : Bool) : (s.setPend src v).smp = s.smp := rfl
@[simp] theorem setPend_cors (s : State) (src : Nat) (v : Bool) : (s.setPend src v).cors = s.cors := rfl
@[simp] theorem setPend_cis (s : State) (src : Nat) (v : Bool) : (s.setPend src v).cis = s.cis := rfl
@[simp] theorem setPend_str (s : State) (src : Nat) (v : Bool) : (s.setPend src v).str = s.str := rfl
@[simp] theorem setPend_sap (s : State) (src : Nat) (v : Bool) : (s.setPend src v).sap = s.sap := rfl
@[simp] theorem setPend_nyl (s : State) (src : Nat) (v : Bool) : (s.setPend src v).nyl = s.nyl := rfl
@[simp] theorem setPend_mir (s : State) (src : Nat) (v : Bool) : (s.setPend src v).mir = s.mir := rfl
@[simp] theorem setPend_mea (s : State) (src : Nat) (v : Bool) : (s.setPend src v).mea = s.mea := rfl

/-! ### emit -/

@[simp] theorem emit_pending (s : State) (o : Out) : (s.emit o).pending = s.pending := rfl
@[simp] theorem emit_clk (s : State) (o : Out) : (s.emit o).clk = s.clk := rfl
@[simp] theorem emit_tick (s : State) (o : Out) : (s.emit o).tick = s.tick := rfl
@[simp] theorem emit_tickClk (s : State) (o : Out) : (s.emit o).tickClk = s.tickClk := rfl
@[simp] theorem emit_freeCtr (s : State) (o : Out) : (s.emit o).freeCtr = s.freeCtr := rfl
@[simp] theorem emit_regs (s : State) (o : Out) : (s.emit o).regs = s.regs := rfl
@[simp] theorem emit_latch (s : State) (o : Out) : (s.emit o).latch = s.latch := rfl
@[simp] theorem emit_modId (s : State) (o : Out) : (s.emit o).modId = s.modId := rfl
@[simp] theorem emit_pins (s : State) (o : Out) : (s.emit o).pins = s.pins := rfl
@[simp] theorem emit_cm (s : State) (o : Out) : (s.emit o).cm = s.cm := rfl
@[simp] theorem emit_hist (s : State) (o : Out) : (s.emit o).hist = s.hist := rfl
@[simp] theorem emit_irq (s : State) (o : Out) : (s.emit o).irq = s.irq := rfl
@[simp] theorem emit_cmd (s : State) (o : Out) : (s.emit o).cmd = s.cmd := rfl
@[simp] theorem emit_jnl (s : State) (o : Out) : (s.emit o).jnl = s.jnl := rfl
@[simp] theorem emit_snp (s : State) (o : Out) : (s.emit o).snp = s.snp := rfl
@[simp] theorem emit_pwr (s : State) (o : Out) : (s.emit o).pwr = s.pwr := rfl
@[simp] theorem emit_svc (s : State) (o : Out) : (s.emit o).svc = s.svc := rfl
@[simp] theorem emit_ecs (s : State) (o : Out) : (s.emit o).ecs = s.ecs := rfl
@[simp] theorem emit_ecIo (s : State) (o : Out) : (s.emit o).ecIo = s.ecIo := rfl
@[simp] theorem emit_tim (s : State) (o : Out) : (s.emit o).tim = s.tim := rfl
@[simp] theorem emit_geo (s : State) (o : Out) : (s.emit o).geo = s.geo := rfl
@[simp] theorem emit_smp (s : State) (o : Out) : (s.emit o).smp = s.smp := rfl
@[simp] theorem emit_cors (s : State) (o : Out) : (s.emit o).cors = s.cors := rfl
@[simp] theorem emit_cis (s : State) (o : Out) : (s.emit o).cis = s.cis := rfl
@[simp] theorem emit_str (s : State) (o : Out) : (s.emit o).str = s.str := rfl
@[simp] theorem emit_sap (s : State) (o : Out) : (s.emit o).sap = s.sap := rfl
@[simp] theorem emit_nyl (s : State) (o : Out) : (s.emit o).nyl = s.nyl := rfl
@[simp] theorem emit_mir (s : State) (o : Out) : (s.emit o).mir = s.mir := rfl
@[simp] theorem emit_mea (s : State) (o : Out) : (s.emit o).mea = s.mea := rfl

/-! ### atClk -/

@[simp] theorem atClk_pending (s : State) (c : Nat) : (s.atClk c).pending = s.pending := rfl
@[simp] theorem atClk_tick (s : State) (c : Nat) : (s.atClk c).tick = s.tick := rfl
@[simp] theorem atClk_tickClk (s : State) (c : Nat) : (s.atClk c).tickClk = s.tickClk := rfl
@[simp] theorem atClk_outbox (s : State) (c : Nat) : (s.atClk c).outbox = s.outbox := rfl
@[simp] theorem atClk_freeCtr (s : State) (c : Nat) : (s.atClk c).freeCtr = s.freeCtr := rfl
@[simp] theorem atClk_regs (s : State) (c : Nat) : (s.atClk c).regs = s.regs := rfl
@[simp] theorem atClk_latch (s : State) (c : Nat) : (s.atClk c).latch = s.latch := rfl
@[simp] theorem atClk_modId (s : State) (c : Nat) : (s.atClk c).modId = s.modId := rfl
@[simp] theorem atClk_pins (s : State) (c : Nat) : (s.atClk c).pins = s.pins := rfl
@[simp] theorem atClk_cm (s : State) (c : Nat) : (s.atClk c).cm = s.cm := rfl
@[simp] theorem atClk_hist (s : State) (c : Nat) : (s.atClk c).hist = s.hist := rfl
@[simp] theorem atClk_irq (s : State) (c : Nat) : (s.atClk c).irq = s.irq := rfl
@[simp] theorem atClk_cmd (s : State) (c : Nat) : (s.atClk c).cmd = s.cmd := rfl
@[simp] theorem atClk_jnl (s : State) (c : Nat) : (s.atClk c).jnl = s.jnl := rfl
@[simp] theorem atClk_snp (s : State) (c : Nat) : (s.atClk c).snp = s.snp := rfl
@[simp] theorem atClk_pwr (s : State) (c : Nat) : (s.atClk c).pwr = s.pwr := rfl
@[simp] theorem atClk_svc (s : State) (c : Nat) : (s.atClk c).svc = s.svc := rfl
@[simp] theorem atClk_ecs (s : State) (c : Nat) : (s.atClk c).ecs = s.ecs := rfl
@[simp] theorem atClk_ecIo (s : State) (c : Nat) : (s.atClk c).ecIo = s.ecIo := rfl
@[simp] theorem atClk_tim (s : State) (c : Nat) : (s.atClk c).tim = s.tim := rfl
@[simp] theorem atClk_geo (s : State) (c : Nat) : (s.atClk c).geo = s.geo := rfl
@[simp] theorem atClk_smp (s : State) (c : Nat) : (s.atClk c).smp = s.smp := rfl
@[simp] theorem atClk_cors (s : State) (c : Nat) : (s.atClk c).cors = s.cors := rfl
@[simp] theorem atClk_cis (s : State) (c : Nat) : (s.atClk c).cis = s.cis := rfl
@[simp] theorem atClk_str (s : State) (c : Nat) : (s.atClk c).str = s.str := rfl
@[simp] theorem atClk_sap (s : State) (c : Nat) : (s.atClk c).sap = s.sap := rfl
@[simp] theorem atClk_nyl (s : State) (c : Nat) : (s.atClk c).nyl = s.nyl := rfl
@[simp] theorem atClk_mir (s : State) (c : Nat) : (s.atClk c).mir = s.mir := rfl
@[simp] theorem atClk_mea (s : State) (c : Nat) : (s.atClk c).mea = s.mea := rfl

/-! ### draw -/

@[simp] theorem draw_pending (s : State) : s.draw.2.pending = s.pending := rfl
@[simp] theorem draw_clk (s : State) : s.draw.2.clk = s.clk := rfl
@[simp] theorem draw_tick (s : State) : s.draw.2.tick = s.tick := rfl
@[simp] theorem draw_tickClk (s : State) : s.draw.2.tickClk = s.tickClk := rfl
@[simp] theorem draw_outbox (s : State) : s.draw.2.outbox = s.outbox := rfl
@[simp] theorem draw_regs (s : State) : s.draw.2.regs = s.regs := rfl
@[simp] theorem draw_latch (s : State) : s.draw.2.latch = s.latch := rfl
@[simp] theorem draw_modId (s : State) : s.draw.2.modId = s.modId := rfl
@[simp] theorem draw_pins (s : State) : s.draw.2.pins = s.pins := rfl
@[simp] theorem draw_cm (s : State) : s.draw.2.cm = s.cm := rfl
@[simp] theorem draw_hist (s : State) : s.draw.2.hist = s.hist := rfl
@[simp] theorem draw_irq (s : State) : s.draw.2.irq = s.irq := rfl
@[simp] theorem draw_cmd (s : State) : s.draw.2.cmd = s.cmd := rfl
@[simp] theorem draw_jnl (s : State) : s.draw.2.jnl = s.jnl := rfl
@[simp] theorem draw_snp (s : State) : s.draw.2.snp = s.snp := rfl
@[simp] theorem draw_pwr (s : State) : s.draw.2.pwr = s.pwr := rfl
@[simp] theorem draw_svc (s : State) : s.draw.2.svc = s.svc := rfl
@[simp] theorem draw_ecs (s : State) : s.draw.2.ecs = s.ecs := rfl
@[simp] theorem draw_ecIo (s : State) : s.draw.2.ecIo = s.ecIo := rfl
@[simp] theorem draw_tim (s : State) : s.draw.2.tim = s.tim := rfl
@[simp] theorem draw_geo (s : State) : s.draw.2.geo = s.geo := rfl
@[simp] theorem draw_smp (s : State) : s.draw.2.smp = s.smp := rfl
@[simp] theorem draw_cors (s : State) : s.draw.2.cors = s.cors := rfl
@[simp] theorem draw_cis (s : State) : s.draw.2.cis = s.cis := rfl
@[simp] theorem draw_str (s : State) : s.draw.2.str = s.str := rfl
@[simp] theorem draw_sap (s : State) : s.draw.2.sap = s.sap := rfl
@[simp] theorem draw_nyl (s : State) : s.draw.2.nyl = s.nyl := rfl
@[simp] theorem draw_mir (s : State) : s.draw.2.mir = s.mir := rfl
@[simp] theorem draw_mea (s : State) : s.draw.2.mea = s.mea := rfl

/-! ### edge -/

@[simp] theorem edge_pending (s : State) (src : Nat) : (s.edge src).pending = s.pending := by unfold State.edge; split <;> rfl
@[simp] theorem edge_clk (s : State) (src : Nat) : (s.edge src).clk = s.clk := by unfold State.edge; split <;> rfl
@[simp] theorem edge_tick (s : State) (src : Nat) : (s.edge src).tick = s.tick := by unfold State.edge; split <;> rfl
@[simp] theorem edge_tickClk (s : State) (src : Nat) : (s.edge src).tickClk = s.tickClk := by unfold State.edge; split <;> rfl
@[simp] theorem edge_outbox (s : State) (src : Nat) : (s.edge src).outbox = s.outbox := by unfold State.edge; split <;> rfl
@[simp] theorem edge_freeCtr (s : State) (src : Nat) : (s.edge src).freeCtr = s.freeCtr := by unfold State.edge; split <;> rfl
@[simp] theorem edge_latch (s : State) (src : Nat) : (s.edge src).latch = s.latch := by unfold State.edge; split <;> rfl
@[simp] theorem edge_modId (s : State) (src : Nat) : (s.edge src).modId = s.modId := by unfold State.edge; split <;> rfl
@[simp] theorem edge_pins (s : State) (src : Nat) : (s.edge src).pins = s.pins := by unfold State.edge; split <;> rfl
@[simp] theorem edge_cm (s : State) (src : Nat) : (s.edge src).cm = s.cm := by unfold State.edge; split <;> rfl
@[simp] theorem edge_hist (s : State) (src : Nat) : (s.edge src).hist = s.hist := by unfold State.edge; split <;> rfl
@[simp] theorem edge_irq (s : State) (src : Nat) : (s.edge src).irq = s.irq := by unfold State.edge; split <;> rfl
@[simp] theorem edge_cmd (s : State) (src : Nat) : (s.edge src).cmd = s.cmd := by unfold State.edge; split <;> rfl
@[simp] theorem edge_jnl (s : State) (src : Nat) : (s.edge src).jnl = s.jnl := by unfold State.edge; split <;> rfl
@[simp] theorem edge_snp (s : State) (src : Nat) : (s.edge src).snp = s.snp := by unfold State.edge; split <;> rfl
@[simp] theorem edge_pwr (s : State) (src : Nat) : (s.edge src).pwr = s.pwr := by unfold State.edge; split <;> rfl
@[simp] theorem edge_svc (s : State) (src : Nat) : (s.edge src).svc = s.svc := by unfold State.edge; split <;> rfl
@[simp] theorem edge_ecs (s : State) (src : Nat) : (s.edge src).ecs = s.ecs := by unfold State.edge; split <;> rfl
@[simp] theorem edge_ecIo (s : State) (src : Nat) : (s.edge src).ecIo = s.ecIo := by unfold State.edge; split <;> rfl
@[simp] theorem edge_tim (s : State) (src : Nat) : (s.edge src).tim = s.tim := by unfold State.edge; split <;> rfl
@[simp] theorem edge_geo (s : State) (src : Nat) : (s.edge src).geo = s.geo := by unfold State.edge; split <;> rfl
@[simp] theorem edge_smp (s : State) (src : Nat) : (s.edge src).smp = s.smp := by unfold State.edge; split <;> rfl
@[simp] theorem edge_cors (s : State) (src : Nat) : (s.edge src).cors = s.cors := by unfold State.edge; split <;> rfl
@[simp] theorem edge_cis (s : State) (src : Nat) : (s.edge src).cis = s.cis := by unfold State.edge; split <;> rfl
@[simp] theorem edge_str (s : State) (src : Nat) : (s.edge src).str = s.str := by unfold State.edge; split <;> rfl
@[simp] theorem edge_sap (s : State) (src : Nat) : (s.edge src).sap = s.sap := by unfold State.edge; split <;> rfl
@[simp] theorem edge_nyl (s : State) (src : Nat) : (s.edge src).nyl = s.nyl := by unfold State.edge; split <;> rfl
@[simp] theorem edge_mir (s : State) (src : Nat) : (s.edge src).mir = s.mir := by unfold State.edge; split <;> rfl
@[simp] theorem edge_mea (s : State) (src : Nat) : (s.edge src).mea = s.mea := by unfold State.edge; split <;> rfl

/-! ### snapTrig -/

@[simp] theorem snapTrig_pending (s : State) (f : Nat) : (s.snapTrig f).pending = s.pending := by unfold State.snapTrig; split <;> rfl
@[simp] theorem snapTrig_clk (s : State) (f : Nat) : (s.snapTrig f).clk = s.clk := by unfold State.snapTrig; split <;> rfl
@[simp] theorem snapTrig_tick (s : State) (f : Nat) : (s.snapTrig f).tick = s.tick := by unfold State.snapTrig; split <;> rfl
@[simp] theorem snapTrig_tickClk (s : State) (f : Nat) : (s.snapTrig f).tickClk = s.tickClk := by unfold State.snapTrig; split <;> rfl
@[simp] theorem snapTrig_outbox (s : State) (f : Nat) : (s.snapTrig f).outbox = s.outbox := by unfold State.snapTrig; split <;> rfl
@[simp] theorem snapTrig_freeCtr (s : State) (f : Nat) : (s.snapTrig f).freeCtr = s.freeCtr := by unfold State.snapTrig; split <;> rfl
@[simp] theorem snapTrig_regs (s : State) (f : Nat) : (s.snapTrig f).regs = s.regs := by unfold State.snapTrig; split <;> rfl
@[simp] theorem snapTrig_latch (s : State) (f : Nat) : (s.snapTrig f).latch = s.latch := by unfold State.snapTrig; split <;> rfl
@[simp] theorem snapTrig_modId (s : State) (f : Nat) : (s.snapTrig f).modId = s.modId := by unfold State.snapTrig; split <;> rfl
@[simp] theorem snapTrig_pins (s : State) (f : Nat) : (s.snapTrig f).pins = s.pins := by unfold State.snapTrig; split <;> rfl
@[simp] theorem snapTrig_cm (s : State) (f : Nat) : (s.snapTrig f).cm = s.cm := by unfold State.snapTrig; split <;> rfl
@[simp] theorem snapTrig_hist (s : State) (f : Nat) : (s.snapTrig f).hist = s.hist := by unfold State.snapTrig; split <;> rfl
@[simp] theorem snapTrig_irq (s : State) (f : Nat) : (s.snapTrig f).irq = s.irq := by unfold State.snapTrig; split <;> rfl
@[simp] theorem snapTrig_cmd (s : State) (f : Nat) : (s.snapTrig f).cmd = s.cmd := by unfold State.snapTrig; split <;> rfl
@[simp] theorem snapTrig_jnl (s : State) (f : Nat) : (s.snapTrig f).jnl = s.jnl := by unfold State.snapTrig; split <;> rfl
@[simp] theorem snapTrig_pwr (s : State) (f : Nat) : (s.snapTrig f).pwr = s.pwr := by unfold State.snapTrig; split <;> rfl
@[simp] theorem snapTrig_svc (s : State) (f : Nat) : (s.snapTrig f).svc = s.svc := by unfold State.snapTrig; split <;> rfl
@[simp] theorem snapTrig_ecs (s : State) (f : Nat) : (s.snapTrig f).ecs = s.ecs := by unfold State.snapTrig; split <;> rfl
@[simp] theorem snapTrig_ecIo (s : State) (f : Nat) : (s.snapTrig f).ecIo = s.ecIo := by unfold State.snapTrig; split <;> rfl
@[simp] theorem snapTrig_tim (s : State) (f : Nat) : (s.snapTrig f).tim = s.tim := by unfold State.snapTrig; split <;> rfl
@[simp] theorem snapTrig_geo (s : State) (f : Nat) : (s.snapTrig f).geo = s.geo := by unfold State.snapTrig; split <;> rfl
@[simp] theorem snapTrig_smp (s : State) (f : Nat) : (s.snapTrig f).smp = s.smp := by unfold State.snapTrig; split <;> rfl
@[simp] theorem snapTrig_cors (s : State) (f : Nat) : (s.snapTrig f).cors = s.cors := by unfold State.snapTrig; split <;> rfl
@[simp] theorem snapTrig_cis (s : State) (f : Nat) : (s.snapTrig f).cis = s.cis := by unfold State.snapTrig; split <;> rfl
@[simp] theorem snapTrig_str (s : State) (f : Nat) : (s.snapTrig f).str = s.str := by unfold State.snapTrig; split <;> rfl
@[simp] theorem snapTrig_sap (s : State) (f : Nat) : (s.snapTrig f).sap = s.sap := by unfold State.snapTrig; split <;> rfl
@[simp] theorem snapTrig_nyl (s : State) (f : Nat) : (s.snapTrig f).nyl = s.nyl := by unfold State.snapTrig; split <;> rfl
@[simp] theorem snapTrig_mir (s : State) (f : Nat) : (s.snapTrig f).mir = s.mir := by unfold State.snapTrig; split <;> rfl
@[simp] theorem snapTrig_mea (s : State) (f : Nat) : (s.snapTrig f).mea = s.mea := by unfold State.snapTrig; split <;> rfl

/-! ### Values -/

@[simp] theorem emit_outbox (s : State) (o : Out) : (s.emit o).outbox = o :: s.outbox := rfl
@[simp] theorem atClk_clk (s : State) (c : Nat) : (s.atClk c).clk = max s.clk c := rfl
@[simp] theorem draw_fst (s : State) : s.draw.1 = s.freeCtr := rfl
@[simp] theorem draw_freeCtr (s : State) : s.draw.2.freeCtr = s.freeCtr + 1 := rfl

@[simp] theorem reg_setReg_self (s : State) (a : Nat) (v : Word) : (s.setReg a v).reg a = v := by
  simp [State.reg, State.setReg, tabGetD_tabSet_self]

theorem reg_setReg_ne (s : State) {a b : Nat} (v : Word) (h : b ≠ a) : (s.setReg a v).reg b = s.reg b := by
  simp [State.reg, State.setReg, tabGetD_tabSet_ne _ _ _ h]

theorem reg_setReg (s : State) (a b : Nat) (v : Word) : (s.setReg a v).reg b = if b = a then v else s.reg b := by
  split
  · next h => subst h; simp
  · next h => exact reg_setReg_ne s v h

@[simp] theorem reg_emit (s : State) (o : Out) (a : Nat) : (s.emit o).reg a = s.reg a := rfl
@[simp] theorem reg_atClk (s : State) (c a : Nat) : (s.atClk c).reg a = s.reg a := rfl
@[simp] theorem reg_setNat_self (s : State) (a v : Nat) : (s.setNat a v).reg a = wd v := by simp [State.setNat]
theorem reg_setNat_ne (s : State) {a b : Nat} (v : Nat) (h : b ≠ a) : (s.setNat a v).reg b = s.reg b := reg_setReg_ne s _ h
@[simp] theorem reg_inc_self (s : State) (a k : Nat) : (s.inc a k).reg a = satInc (s.reg a) k := by simp [State.inc]
theorem reg_inc_ne (s : State) {a b : Nat} (k : Nat) (h : b ≠ a) : (s.inc a k).reg b = s.reg b := reg_setReg_ne s _ h
theorem reg_setBit_ne (s : State) {a b : Nat} (i : Nat) (v : Bool) (h : b ≠ a) : (s.setBit a i v).reg b = s.reg b :=
  reg_setReg_ne s _ h
theorem reg_setField_ne (s : State) {a b : Nat} (hi lo v : Nat) (h : b ≠ a) : (s.setField a hi lo v).reg b = s.reg b :=
  reg_setReg_ne s _ h

end Sys2Proof.Machine
end

