-- ==== Sys2Proof/Laws/Settle.lean ====
section
/-! SUPPORT. What the interrupt controller does by itself: `settle_settled` says all of it that a claim needs. -/

namespace Sys2Proof.Machine

open Sys2Proof.Claims

/-- One or more of the controller's own writes. -/
structure Ctl (u t : State) : Prop where
  same : t = { u with regs := t.regs, irq := t.irq, outbox := t.outbox }
  reg : ∀ a, ¬ ctlReg a → t.reg a = u.reg a
  regQuiet : u.fallbackAct = false → ∀ a, a ≠ R.glbMsixPba → t.reg a = u.reg a
  irq : t.irq = { u.irq with rel := t.irq.rel, hold := t.irq.hold, deliv := t.irq.deliv }
  out : ∃ l, t.outbox = l ++ u.outbox ∧ ∀ o ∈ l, ∃ addr data, o = .msix addr data

theorem Ctl.refl (u : State) : Ctl u u := ⟨rfl, fun _ _ => rfl, fun _ _ _ => rfl, rfl, [], rfl, by simp⟩

theorem ctl_fallbackAct {u t : State} (h : Ctl u t) : t.fallbackAct = u.fallbackAct := by
  have : t.reg R.irqStatus = u.reg R.irqStatus := h.reg _ (by simp [ctlReg, R.irqStatus, R.irqPend, R.irqFbLog, R.irqFbPos, R.irqCntFb, R.glbMsixPba])
  simp [State.fallbackAct, State.bit, this]

theorem Ctl.trans {u t v : State} (h1 : Ctl u t) (h2 : Ctl t v) : Ctl u v := by
  refine ⟨?_, fun a ha => (h2.reg a ha).trans (h1.reg a ha), fun hf a ha => ?_, ?_, ?_⟩
  · rw [h2.same, h1.same]
  · exact (h2.regQuiet ((ctl_fallbackAct h1).trans hf) a ha).trans (h1.regQuiet hf a ha)
  · rw [h2.irq, h1.irq]
  · obtain ⟨l1, e1, p1⟩ := h1.out
    obtain ⟨l2, e2, p2⟩ := h2.out
    refine ⟨l2 ++ l1, by rw [e2, e1, List.append_assoc], fun o ho => ?_⟩
    rcases List.mem_append.mp ho with h | h
    · exact p2 o h
    · exact p1 o h

/-- A write of one of the controller's registers while redirection is in force. -/
theorem ctl_setReg (u : State) (a : Nat) (v : Word) (h : ctlReg a) (hf : u.fallbackAct = true ∨ a = R.glbMsixPba) :
    Ctl u (u.setReg a v) := by
  refine ⟨rfl, fun b hb => reg_setReg_ne u v (fun e => hb (e ▸ h)), fun hq b hb => ?_, rfl, [], rfl, by simp⟩
  rcases hf with hf | hf
  · rw [hf] at hq; cases hq
  · exact reg_setReg_ne u v (hf ▸ hb)

theorem ctl_irq (u : State) (r : List Nat) (h : Tab HoldEnd) (d : List Nat) :
    Ctl u { u with irq := { u.irq with rel := r, hold := h, deliv := d } } :=
  ⟨rfl, fun _ _ => rfl, fun _ _ _ => rfl, rfl, [], rfl, by simp⟩

theorem ctl_msix (u : State) (a d : Nat) : Ctl u (u.emit (.msix a d)) :=
  ⟨rfl, fun _ _ => rfl, fun _ _ _ => rfl, rfl, [.msix a d], rfl, by simp⟩

theorem ctl_foldl {α : Type} (f : State → α → State) (l : List α) (h : ∀ s a, a ∈ l → Ctl s (f s a)) (u : State) :
    Ctl u (l.foldl f u) := by
  induction l generalizing u with
  | nil => exact Ctl.refl u
  | cons a l ih =>
    exact (h u a (by simp)).trans (ih (fun s b hb => h s b (by simp [hb])) (f u a))

theorem ctl_dropReleased (u : State) : Ctl u (dropReleased u) := ctl_irq u _ _ _

theorem ctl_releaseGroup (u : State) (g : Nat) : Ctl u (releaseGroup u g) := by
  unfold releaseGroup
  split
  · exact Ctl.refl u
  · dsimp only
    split
    · exact Ctl.refl u
    · split
      · exact Ctl.refl u
      · exact ctl_irq u _ _ _

theorem ctl_releaseAll (u : State) : Ctl u (releaseAll u) := ctl_foldl _ _ (fun s a _ => ctl_releaseGroup s a) u

theorem pendList_lt {u : State} {x : Nat} (h : x ∈ pendList u) : x < 512 := by
  simp only [pendList, List.mem_flatMap, List.mem_range] at h
  obtain ⟨g, hg, hx⟩ := h
  split at hx
  · cases hx
  · simp only [List.mem_filterMap, List.mem_range] at hx
    obtain ⟨b, hb, hx⟩ := hx
    split at hx
    · simp only [Option.some.injEq] at hx; omega
    · cases hx

/-- A best element of a list is one of it. -/
theorem irqBest_mem {s : State} {l : List Nat} {x : Nat} (h : irqBest s l = some x) : x ∈ l := by
  suffices H : ∀ (l : List Nat) (b : Option Nat),
      l.foldl (fun b x => match b with
        | none => some x
        | some y => if irqPrio s y < irqPrio s x ∨ (irqPrio s y = irqPrio s x ∧ x < y) then some x else some y) b = some x →
      x ∈ l ∨ b = some x by
    rcases H l none h with h | h
    · exact h
    · cases h
  intro l
  induction l with
  | nil => intro b hb; exact Or.inr hb
  | cons a l ih =>
    intro b hb
    rw [List.foldl_cons] at hb
    rcases ih _ hb with h | h
    · exact Or.inl (List.mem_cons_of_mem _ h)
    · cases b with
      | none => simp only [Option.some.injEq] at h; subst h; exact Or.inl (by simp)
      | some y =>
        simp only at h
        split at h
        · simp only [Option.some.injEq] at h; subst h; exact Or.inl (by simp)
        · exact Or.inr h

theorem irqCandidate_lt {s : State} {t : Nat} {f : Nat → Bool} {x : Nat} (h : irqCandidate s t f = some x) : x < 512 :=
  pendList_lt (List.mem_of_mem_filter (irqBest_mem h))

theorem ctlReg_pend {x : Nat} (h : x < 512) : ctlReg (R.irqPend + x / 32 * 4) := by
  left; constructor <;> omega

theorem ctl_fallbackOne (u : State) (hf : u.fallbackAct = true) : Ctl u (fallbackOne u) := by
  unfold fallbackOne
  split
  · exact Ctl.refl u
  · next src h =>
    have hsrc := irqCandidate_lt h
    dsimp only
    have c1 : Ctl u (u.setPend src false) := ctl_setReg _ _ _ (ctlReg_pend hsrc) (.inl hf)
    refine c1.trans ?_
    have f1 : (u.setPend src false).fallbackAct = true := (ctl_fallbackAct c1).trans hf
    generalize u.setPend src false = v at f1
    have c2 : Ctl v { v with irq := { v.irq with rel := v.irq.rel.filter (· != src) } } := ctl_irq v _ _ _
    refine c2.trans ?_
    have f2 := (ctl_fallbackAct c2).trans f1
    generalize ({ v with irq := { v.irq with rel := v.irq.rel.filter (· != src) } } : State) = w at f2
    have hp : w.field R.irqFbPos 5 0 < 64 := by
      simp only [State.field, fld]; exact Nat.mod_lt _ (by decide)
    generalize w.field R.irqFbPos 5 0 = p at hp
    have c3 : Ctl w (w.setNat (R.irqFbLog + 8 * p) src) :=
      ctl_setReg _ _ _ (by right; left; constructor <;> omega) (.inl f2)
    refine c3.trans ?_
    have f3 := (ctl_fallbackAct c3).trans f2
    generalize w.setNat (R.irqFbLog + 8 * p) src = x at f3
    have c4 : ∀ v, Ctl x (x.setReg (R.irqFbLog + 8 * p + 4) v) := fun v =>
      ctl_setReg _ _ _ (by right; left; constructor <;> omega) (.inl f3)
    refine (c4 w.stamp).trans ?_
    have f4 := (ctl_fallbackAct (c4 w.stamp)).trans f3
    generalize x.setReg (R.irqFbLog + 8 * p + 4) w.stamp = y at f4
    have c5 : Ctl y (y.setNat R.irqFbPos ((p + 1) % 64)) := ctl_setReg _ _ _ (by right; right; left; rfl) (.inl f4)
    refine c5.trans ?_
    exact ctl_setReg _ _ _ (by right; right; right; left; rfl) (.inl ((ctl_fallbackAct c5).trans f4))

theorem ctl_fallbackAll (u : State) : Ctl u (fallbackAll u) := by
  unfold fallbackAll
  split
  · next hf =>
    suffices H : ∀ (l : List Nat) (u : State), u.fallbackAct = true → Ctl u (l.foldl (fun s _ => fallbackOne s) u) from H _ u hf
    intro l
    induction l with
    | nil => intro u _; exact Ctl.refl u
    | cons a l ih =>
      intro u hf
      have c := ctl_fallbackOne u hf
      exact c.trans (ih _ ((ctl_fallbackAct c).trans hf))
  · exact Ctl.refl u

theorem ctl_pba (u : State) (i : Nat) (v : Bool) : Ctl u (u.setBit R.glbMsixPba i v) :=
  ctl_setReg _ _ _ (by right; right; right; right; rfl) (.inr rfl)

theorem irqVec_lt (s : State) (x : Nat) : irqVec s x < 32 := by
  simp only [irqVec, State.field, fld]; exact Nat.mod_lt _ (by decide)

theorem ctl_msixOwe (u : State) (v : Nat) (h : v < 32) : Ctl u (msixOwe u v) := by
  have e : v / 32 * 4 = 0 := by omega
  unfold msixOwe
  rw [e]
  exact ctl_pba u _ _

theorem ctl_msixSend (u : State) : Ctl u (msixSend u) := by
  unfold msixSend
  split
  · apply ctl_foldl
    intro s v _
    dsimp only
    split
    · exact (ctl_pba s v false).trans (ctl_msix _ _ _)
    · exact Ctl.refl s
  · exact Ctl.refl u

theorem ctl_hostMessages (u : State) : Ctl u (hostMessages u) := by
  unfold hostMessages
  dsimp only
  generalize hx : (if hostIntN u then u else
    (List.filter (fun x => !u.irq.deliv.contains x) (hostDeliv u)).foldl (fun s x => msixOwe s (irqVec s x)) u) = x
  have c : Ctl u x := by
    rw [← hx]
    split
    · exact Ctl.refl u
    · exact ctl_foldl _ _ (fun s a _ => ctl_msixOwe s _ (irqVec_lt s a)) u
  refine c.trans (Ctl.trans ?_ (ctl_msixSend _))
  exact ctl_irq x _ _ _

theorem ctl_settleIrq (u : State) : Ctl u (settleIrq u) :=
  (ctl_dropReleased u).trans ((ctl_releaseAll _).trans ((ctl_fallbackAll _).trans (ctl_hostMessages _)))

theorem settle_pins (u : State) : PinsTrue (settle u) := rfl

/-- All that `settle` does. -/
theorem settle_settled (u : State) : Settled u (settle u) :=
  have c := ctl_settleIrq u
  {
    pending := (congrArg State.pending c.same :)
    clk := (congrArg State.clk c.same :)
    tick := (congrArg State.tick c.same :)
    tickClk := (congrArg State.tickClk c.same :)
    freeCtr := (congrArg State.freeCtr c.same :)
    latch := (congrArg State.latch c.same :)
    modId := (congrArg State.modId c.same :)
    cm := (congrArg State.cm c.same :)
    hist := (congrArg State.hist c.same :)
    cmd := (congrArg State.cmd c.same :)
    jnl := (congrArg State.jnl c.same :)
    snp := (congrArg State.snp c.same :)
    pwr := (congrArg State.pwr c.same :)
    svc := (congrArg State.svc c.same :)
    ecs := (congrArg State.ecs c.same :)
    ecIo := (congrArg State.ecIo c.same :)
    tim := (congrArg State.tim c.same :)
    geo := (congrArg State.geo c.same :)
    smp := (congrArg State.smp c.same :)
    cors := (congrArg State.cors c.same :)
    cis := (congrArg State.cis c.same :)
    str := (congrArg State.str c.same :)
    sap := (congrArg State.sap c.same :)
    nyl := (congrArg State.nyl c.same :)
    mir := (congrArg State.mir c.same :)
    mea := (congrArg State.mea c.same :)
    reg := c.reg
    regQuiet := c.regQuiet
    inServ := (congrArg IrqSt.inServ c.irq :)
    frozen := (congrArg IrqSt.frozen c.irq :)
    downAt := (congrArg IrqSt.downAt c.irq :)
    d0 := (congrArg IrqSt.d0 c.irq :)
    l0 := (congrArg IrqSt.l0 c.irq :)
    out := c.out
    pins := settle_pins u
  }

/-- Every command's meaning ends in `settle`. -/
theorem exec_settled {i : Instr} {s u : State} (h : exec i s = .next (settle u)) : ∃ t, exec i s = .next t ∧ Settled u t :=
  ⟨_, h, settle_settled u⟩

end Sys2Proof.Machine
end

