-- ==== Sys2Proof/Laws/Ec.lean ====
section
/-! SUPPORT. Effect cores: what an issue does once its conditions hold, and what the parts of an instruction leave alone. -/

namespace Sys2Proof.Machine

open Sys2Proof.Claims

/-! ### Writes on their way -/

/-- `x` is `c` but for registers and the writes on their way. -/
structure RegsOnly (c x : EcCore) : Prop where
  same : x = { c with
    d := x.d
    aS := x.aS
    p := x.p
    g := x.g
    w := x.w
    late := x.late }

theorem RegsOnly.refl (c : EcCore) : RegsOnly c c := ⟨rfl⟩

theorem RegsOnly.trans {a b c : EcCore} (h1 : RegsOnly a b) (h2 : RegsOnly b c) : RegsOnly a c := by
  constructor
  rw [h2.same, h1.same]

theorem regsOnly_apply (c : EcCore) (w : EcWrite) : RegsOnly c (c.apply w) := by
  cases w <;> exact ⟨rfl⟩

theorem regsOnly_fold (l : List (Nat × Nat × EcWrite)) (c : EcCore) : RegsOnly c (l.foldl (fun s e => s.apply e.2.2) c) := by
  induction l generalizing c with
  | nil => exact .refl c
  | cons e l ih => exact (regsOnly_apply c e.2.2).trans (ih _)

theorem regsOnly_settle (c : EcCore) : RegsOnly c c.settle := by
  unfold EcCore.settle
  dsimp only
  refine RegsOnly.trans ?_ (regsOnly_fold _ _)
  exact ⟨rfl⟩

theorem settle_mode (c : EcCore) : c.settle.mode = c.mode := by rw [(regsOnly_settle c).same]
theorem settle_waiting (c : EcCore) : c.settle.waiting = c.waiting := by rw [(regsOnly_settle c).same]
theorem settle_issue (c : EcCore) : c.settle.issue = c.issue := by rw [(regsOnly_settle c).same]
theorem settle_rep (c : EcCore) : c.settle.rep = c.rep := by rw [(regsOnly_settle c).same]
theorem settle_slots (c : EcCore) : c.settle.slots = c.slots := by rw [(regsOnly_settle c).same]
theorem settle_active (c : EcCore) : c.settle.active = c.active := by rw [EcCore.active, settle_mode]; rfl

/-! ### Issue -/

/-- After an issue of `k` cycles. -/
def bump (c : EcCore) (k : Nat) (e : EcCore) : EcCore :=
  if c.mode = .running then { e with cyc := e.cyc + k, issue := e.issue + k } else { e with cyc := e.cyc + k, quota := e.quota + k }

theorem fits_not_over {core k : Nat} {s : State} (hf : ecFits core k s = true) :
    ((s.ec core).settle.mode == .running && decide ((s.ec core).settle.issue + k > (ecEnvOf s core).decl)) = false := by
  rw [settle_mode, settle_issue]
  simp only [ecFits, Bool.or_eq_true, bne_iff_ne, ne_eq, decide_eq_true_eq] at hf
  rcases hf with h | h
  · simp [h]
  · simp; intro _; omega

/-- An issue whose conditions hold does what its function says. -/
theorem ecIssue_ok {core : Nat} {s : State} {kind : EcKind} {cost : EcCore → Nat}
    {f : EcCore → Nat ⊕ (EcCore × EcEff)} {x : EcCore} {eff : EcEff}
    (hu : ecUp core s = true) (hf : ecFits core (cost (ecAt core s)) s = true)
    (hp : kind = .px ∨ ((s.ec core).rep = none ∧ (kind = .ctl ∨ (s.ec core).slots = none)))
    (hr : f (ecAt core s) = .inr (x, eff)) :
    ecIssue (ecEnvOf s core) kind cost f (s.ec core) = (bump (ecAt core s) (cost (ecAt core s)) x, eff) := by
  simp only [ecUp, Bool.and_eq_true, Bool.not_eq_true', decide_eq_true_eq] at hu
  obtain ⟨⟨_, ha⟩, hw⟩ := hu
  have hr' : f (s.ec core).settle = .inr (x, eff) := hr
  have hf' := fits_not_over hf
  unfold ecIssue
  rw [if_neg (by simp [ha, hw])]
  dsimp only
  simp only [ecAt] at hf'
  split
  · next hx => exact absurd (hf'.symm.trans hx) (by decide)
  · split
    · next hx =>
      exfalso
      rw [settle_rep, settle_slots] at hx
      rcases hp with hp | ⟨h1, h2⟩
      · subst hp; simp at hx
      · rw [h1] at hx
        rcases h2 with h2 | h2
        · subst h2; simp at hx
        · rw [h2] at hx; simp at hx
    · rw [hr']
      unfold bump ecAt
      dsimp only
      by_cases hm : (s.ec core).settle.mode = .running
      · simp [hm]
      · simp [hm]

theorem ecRun_ok {core : Nat} {s : State} {f : EcEnv → EcCore → EcCore × EcEff} (hu : ecUp core s = true) :
    ecRun core f s = ecEffect core (f (ecEnvOf s core) (s.ec core)).2 (coreNow core (f (ecEnvOf s core) (s.ec core)).1 s) := by
  simp only [ecUp, Bool.and_eq_true, Bool.not_eq_true', decide_eq_true_eq] at hu
  obtain ⟨⟨hc, ha⟩, _⟩ := hu
  unfold ecRun
  rw [if_neg (by rw [ha]; simp; omega)]
  rfl

/-- A P instruction: slot A on the core as it is read, then the moves and updates, then the next PC. -/
theorem ecP_ok {core : Nat} {q : Par} {s : State} (f : EcEnv → EcCore → EcCore) (h : pReady core q s = true) :
    ecRun core (fun env => ecP env q (f env)) s =
      coreNow core (bump (ecAt core s) (parCost q (ecAt core s))
        (ecPar (ecEnvOf s core) (ecAt core s) q (f (ecEnvOf s core) (ecAt core s))).advance) s := by
  simp only [pReady, Bool.and_eq_true, Bool.not_eq_true'] at h
  obtain ⟨⟨hu, hf⟩, hb⟩ := h
  rw [ecRun_ok hu]
  simp only [ecP]
  rw [ecIssue_ok (x := (ecPar (ecEnvOf s core) (ecAt core s) q (f (ecEnvOf s core) (ecAt core s))).advance) (eff := .none)
    hu hf (.inl rfl) (by simp [hb])]
  rfl

theorem ecX_ok {core : Nat} {s : State} (f : EcEnv → EcCore → EcCore) (h : xReady core s = true) :
    ecRun core (fun env => ecX env (f env)) s =
      coreNow core (bump (ecAt core s) 1 (f (ecEnvOf s core) (ecAt core s)).advance) s := by
  simp only [xReady, Bool.and_eq_true] at h
  rw [ecRun_ok h.1]
  simp only [ecX]
  rw [ecIssue_ok (x := (f (ecEnvOf s core) (ecAt core s)).advance) (eff := .none) h.1 h.2 (.inl rfl) rfl]
  rfl

/-! ### What the parts leave alone -/

/-- Data registers, accumulators, flags but SAT, decision register, and everything slot A or a move does not reach. -/
structure NextOnly (c x : EcCore) : Prop where
  same : x = { c with pc := x.pc, loops := x.loops, slots := x.slots, rep := x.rep, cyc := x.cyc, issue := x.issue, quota := x.quota }

theorem nextOnly_advance (c : EcCore) : NextOnly c c.advance := by
  unfold EcCore.advance
  split
  · exact ⟨rfl⟩
  · dsimp only
    split
    · exact ⟨rfl⟩
    · exact ⟨rfl⟩
    · exact ⟨rfl⟩

theorem nextOnly_bump (c : EcCore) (k : Nat) (e : EcCore) : NextOnly e (bump c k e) := by
  unfold bump; split <;> exact ⟨rfl⟩

theorem NextOnly.trans {a b c : EcCore} (h1 : NextOnly a b) (h2 : NextOnly b c) : NextOnly a c := by
  constructor; rw [h2.same, h1.same]

/-- What moves and updates reach. -/
structure MoveOnly (c x : EcCore) : Prop where
  same : x = { c with mem := x.mem, p := x.p, late := x.late, sat := x.sat }
  sat : c.sat = true → x.sat = true

theorem MoveOnly.trans {a b c : EcCore} (h1 : MoveOnly a b) (h2 : MoveOnly b c) : MoveOnly a c :=
  ⟨by rw [h2.same, h1.same], fun h => h2.sat (h1.sat h)⟩

theorem moveOnly_move (env : EcEnv) (r c : EcCore) (m : Mv) : MoveOnly c (ecMove env r c m) := by
  cases m with
  | none => exact ⟨rfl, id⟩
  | ld d p => exact ⟨rfl, id⟩
  | st d p => exact ⟨rfl, id⟩
  | sta a sh p => exact ⟨rfl, fun h => by simp [ecMove, h]⟩

theorem moveOnly_update (c : EcCore) (u : Upd) : MoveOnly c (ecUpdate c u) := by
  cases u <;> exact ⟨rfl, id⟩

theorem moveOnly_par (env : EcEnv) (r c : EcCore) (q : Par) : MoveOnly c (ecPar env r q c) :=
  (moveOnly_move env r c q.m0).trans ((moveOnly_move env r _ q.m1).trans ((moveOnly_update _ q.u0).trans (moveOnly_update _ q.u1)))

/-- What a slot-A function reaches. -/
structure SlotOnly (c x : EcCore) : Prop where
  same : x = { c with
    d := x.d
    a := x.a
    z := x.z
    n := x.n
    v := x.v
    c := x.c
    sat := x.sat
    gov := x.gov
    dec := x.dec
    late := x.late }
  sat : c.sat = true → x.sat = true
  gov : c.gov = true → x.gov = true

theorem SlotOnly.refl (c : EcCore) : SlotOnly c c := ⟨rfl, id, id⟩

theorem SlotOnly.trans {a b c : EcCore} (h1 : SlotOnly a b) (h2 : SlotOnly b c) : SlotOnly a c :=
  ⟨by rw [h2.same, h1.same], fun h => h2.sat (h1.sat h), fun h => h2.gov (h1.gov h)⟩

theorem slotOnly_setAcc (env : EcEnv) (c : EcCore) (i : Nat) (v : Int) : SlotOnly c (c.setAcc env i v) :=
  ⟨rfl, id, fun h => by simp [EcCore.setAcc, EcCore.push, h]⟩

/-! ### Words of data memory -/

theorem word_store_self (c : EcCore) (a : Nat) (v : Word) : (c.store a v).word a = v := by
  unfold EcCore.store EcCore.word
  dsimp only
  by_cases h : v == 0
  · rw [if_pos h, tabGetD, tabGet_tabDel_self]
    simpa using (by simpa using h : v = 0).symm
  · rw [if_neg h, tabGetD_tabSet_self]

theorem word_store_ne (c : EcCore) {a b : Nat} (v : Word) (h : b ≠ a) : (c.store a v).word b = c.word b := by
  unfold EcCore.store EcCore.word
  dsimp only
  by_cases hv : v == 0
  · rw [if_pos hv, tabGetD, tabGet_tabDel_ne _ h]; rfl
  · rw [if_neg hv, tabGetD_tabSet_ne _ _ _ h]

/-! ### A P instruction as a whole -/

theorem move_word (env : EcEnv) (r c : EcCore) (m : Mv) (a : Nat) (h : mvAddr r m ≠ some a ∨ (∃ d p, m = .ld d p)) :
    (ecMove env r c m).word a = c.word a := by
  cases m with
  | none => rfl
  | ld d p => rfl
  | st d p =>
    have : a ≠ r.pr p := by
      rcases h with h | ⟨_, _, h⟩
      · simpa [mvAddr] using fun e => h (by simp [mvAddr, e])
      · cases h
    exact word_store_ne c _ this
  | sta k sh p =>
    have : a ≠ r.pr p := by
      rcases h with h | ⟨_, _, h⟩
      · simpa [mvAddr] using fun e => h (by simp [mvAddr, e])
      · cases h
    exact word_store_ne c _ this

theorem update_word (c : EcCore) (u : Upd) (a : Nat) : (ecUpdate c u).word a = c.word a := by cases u <;> rfl

theorem update_ptr (c : EcCore) (u : Upd) (j : Nat) (h : ∀ op, u ≠ .upd j op) : (ecUpdate c u).pr j = c.pr j := by
  cases u with
  | none => rfl
  | upd n op =>
    have hn : n ≠ j := fun e => h op (by rw [e])
    simp only [ecUpdate, EcCore.dropLate, EcCore.pr]
    by_cases hl : n < 8
    · simp [List.getD, Vector.toList_setIfInBounds, hn]
    · simp [List.getD, Vector.toList_setIfInBounds, hn]

theorem move_ptr (env : EcEnv) (r c : EcCore) (m : Mv) (j : Nat) : (ecMove env r c m).pr j = c.pr j := by cases m <;> rfl

theorem par_word (env : EcEnv) (r c : EcCore) (q : Par) (a : Nat) (h : storesAt q r a = false) :
    (ecPar env r q c).word a = c.word a := by
  simp only [storesAt, List.any_cons, List.any_nil, Bool.or_false, Bool.or_eq_false_iff] at h
  have key : ∀ m : Mv, (match m with
      | .st _ p => r.pr p == a
      | .sta _ _ p => r.pr p == a
      | _ => false) = false → mvAddr r m ≠ some a ∨ (∃ d p, m = .ld d p) := by
    intro m hm
    cases m with
    | none => left; simp [mvAddr]
    | ld d p => right; exact ⟨d, p, rfl⟩
    | st d p => left; simpa [mvAddr] using hm
    | sta k sh p => left; simpa [mvAddr] using hm
  simp only [ecPar]
  rw [update_word, update_word, move_word _ _ _ _ _ (key _ h.2), move_word _ _ _ _ _ (key _ h.1)]

theorem par_ptr (env : EcEnv) (r c : EcCore) (q : Par) (j : Nat) (h : updates q j = false) :
    (ecPar env r q c).pr j = c.pr j := by
  simp only [updates, List.any_cons, List.any_nil, Bool.or_false, Bool.or_eq_false_iff] at h
  have key : ∀ u : Upd, (match u with
      | .upd n _ => n == j
      | .none => false) = false → ∀ op, u ≠ .upd j op := by
    intro u hu op e
    subst e
    simp at hu
  simp only [ecPar]
  rw [update_ptr _ _ _ (key _ h.2), update_ptr _ _ _ (key _ h.1), move_ptr, move_ptr]

/-- The core after a P instruction whose slot A is `f`. -/
def pDone (env : EcEnv) (c : EcCore) (q : Par) (x : EcCore) : EcCore := bump c (parCost q c) (ecPar env c q x).advance

theorem pDone_next (env : EcEnv) (c : EcCore) (q : Par) (x : EcCore) : NextOnly (ecPar env c q x) (pDone env c q x) :=
  (nextOnly_advance _).trans (nextOnly_bump _ _ _)

/-- What slot A left in registers, flags and accumulators is what the instruction leaves. -/
theorem pDone_slot (env : EcEnv) (c : EcCore) (q : Par) (x : EcCore) :
    (pDone env c q x).d = x.d ∧ (pDone env c q x).a = x.a ∧ (pDone env c q x).z = x.z ∧ (pDone env c q x).n = x.n ∧
    (pDone env c q x).v = x.v ∧ (pDone env c q x).c = x.c ∧ (pDone env c q x).gov = x.gov ∧ (pDone env c q x).dec = x.dec := by
  have h1 := (pDone_next env c q x).same
  have h2 := (moveOnly_par env c x q).same
  rw [h1, h2]
  exact ⟨rfl, rfl, rfl, rfl, rfl, rfl, rfl, rfl⟩

theorem pDone_sat (env : EcEnv) (c : EcCore) (q : Par) (x : EcCore) (h : x.sat = true) : (pDone env c q x).sat = true := by
  rw [(pDone_next env c q x).same]
  exact (moveOnly_par env c x q).sat h

theorem advance_issue (c : EcCore) : c.advance.issue = c.issue ∧ c.advance.cyc = c.cyc := by
  unfold EcCore.advance
  split
  · exact ⟨rfl, rfl⟩
  · dsimp only
    split <;> exact ⟨rfl, rfl⟩

theorem pDone_keeps (env : EcEnv) {c x : EcCore} (q : Par) (h : SlotOnly c x) : PKeeps q c (pDone env c q x) := by
  have h1 := (pDone_next env c q x).same
  have h2 := (moveOnly_par env c x q).same
  have hs := h.same
  have i1 := advance_issue (ecPar env c q x)
  have hi : (ecPar env c q x).issue = c.issue := by rw [h2, hs]
  have hy : (ecPar env c q x).cyc = c.cyc := by rw [h2, hs]
  refine
    { mem := ?_, ptr := ?_, g := ?_, w := ?_, stack := ?_, prog := ?_, mode := ?_, cause := ?_, save := ?_, queue := ?_,
      params := ?_, waiting := ?_, sat := ?_, gov := ?_, cyc := ?_, issue := ?_ }
  · intro a ha
    have : (pDone env c q x).word a = (ecPar env c q x).word a := by rw [h1]; rfl
    rw [this, par_word env c x q a ha, hs]; rfl
  · intro j hj
    have : (pDone env c q x).pr j = (ecPar env c q x).pr j := by rw [h1]; rfl
    rw [this, par_ptr env c x q j hj, hs]; rfl
  · rw [h1, h2, hs]
  · rw [h1, h2, hs]
  · rw [h1, h2, hs]
  · rw [h1, h2, hs]
  · rw [h1, h2, hs]
  · rw [h1, h2, hs]
  · rw [h1, h2, hs]
  · rw [h1, h2, hs]
  · rw [h1, h2, hs]
  · rw [h1, h2, hs]
  · intro hc; exact pDone_sat env c q x (h.sat hc)
  · intro hc; rw [h1, h2]; exact h.gov hc
  · unfold pDone bump
    split <;> (show _ + _ = _; rw [i1.2, hy])
  · intro hm
    unfold pDone bump
    rw [if_pos hm]
    show _ + _ = _
    rw [i1.1, hi]

theorem parCost_empty (c : EcCore) : parCost {} c = 1 := rfl

/-- An X instruction is a P instruction without moves. -/
theorem xDone_eq (env : EcEnv) (c x : EcCore) : bump c 1 x.advance = pDone env c {} x := rfl

/-! ### Data registers -/

theorem dr_setD_self (c : EcCore) {i : Nat} (v : Word) (h : i < 16) : (c.setD i v).dr i = v := by
  simp [EcCore.setD, EcCore.dropLate, EcCore.dr, List.getD, Vector.toList_setIfInBounds, h]

theorem dr_setD_ne (c : EcCore) {i j : Nat} (v : Word) (h : j ≠ i) : (c.setD i v).dr j = c.dr j := by
  simp [EcCore.setD, EcCore.dropLate, EcCore.dr, List.getD, Vector.toList_setIfInBounds, h.symm]

theorem slotOnly_logic (d : Nat) (r : Word) (c : EcCore) : SlotOnly c (ecLogic d r c) := ⟨rfl, id, id⟩

theorem slotOnly_addSub (sub st : Bool) (d : Nat) (x y : Word) (c : EcCore) : SlotOnly c (ecAddSub sub st d x y c) := by
  cases st <;> exact ⟨rfl, id, id⟩

theorem slotOnly_satRes (d : Nat) (i : Int) (c : EcCore) : SlotOnly c (ecSatRes d i c) :=
  ⟨rfl, fun h => by simp [ecSatRes, EcCore.zn, EcCore.setD, EcCore.dropLate, h], id⟩

end Sys2Proof.Machine
end

