-- ==== Sys2Proof/Laws/Events.lean ====
section
/-! SUPPORT. Register bits, events and interrupt edges: what they set and what they leave. -/

namespace Sys2Proof.Machine

theorem bit_setBitW_self (w : Word) {i : Nat} (h : i < 32) : bit (setBitW w i) i = true := by
  simp only [bit, setBitW, wd, BitVec.toNat_or, BitVec.toNat_ofNat, Nat.testBit_or]
  have : (2 ^ i % 2 ^ 32).testBit i = true := by
    rw [Nat.mod_eq_of_lt (Nat.pow_lt_pow_right (by omega) h), Nat.testBit_two_pow_self]
  rw [this, Bool.or_true]

theorem bit_setBitW_ne (w : Word) {i j : Nat} (h : i < 32) (hj : j ≠ i) : bit (setBitW w i) j = bit w j := by
  simp only [bit, setBitW, wd, BitVec.toNat_or, BitVec.toNat_ofNat, Nat.testBit_or]
  have : (2 ^ i % 2 ^ 32).testBit j = false := by
    rw [Nat.mod_eq_of_lt (Nat.pow_lt_pow_right (by omega) h), Nat.testBit_two_pow_of_ne hj.symm]
  rw [this, Bool.or_false]

theorem bit_clrBitW_self (w : Word) {i : Nat} (h : i < 32) : bit (clrBitW w i) i = false := by
  have e : bit (clrBitW w i) i = (clrBitW w i).getLsbD i := rfl
  rw [e, clrBitW, BitVec.getLsbD_and, BitVec.getLsbD_not]
  have : (wd (2 ^ i)).getLsbD i = true := by
    show (wd (2 ^ i)).toNat.testBit i = true
    simp only [wd, BitVec.toNat_ofNat]
    rw [Nat.mod_eq_of_lt (Nat.pow_lt_pow_right (by omega) h), Nat.testBit_two_pow_self]
  simp [this]

theorem bit_clrBitW_ne (w : Word) {i j : Nat} (h : i < 32) (hj : j ≠ i) : bit (clrBitW w i) j = bit w j := by
  have e : ∀ x : Word, bit x j = x.getLsbD j := fun _ => rfl
  rw [e, e, clrBitW, BitVec.getLsbD_and, BitVec.getLsbD_not]
  have : (wd (2 ^ i)).getLsbD j = false := by
    show (wd (2 ^ i)).toNat.testBit j = false
    simp only [wd, BitVec.toNat_ofNat]
    rw [Nat.mod_eq_of_lt (Nat.pow_lt_pow_right (by omega) h), Nat.testBit_two_pow_of_ne hj.symm]
  rw [this]
  by_cases h32 : j < 32
  · simp [h32]
  · simp [h32, BitVec.getLsbD_of_ge _ _ (Nat.le_of_not_lt h32)]

@[simp] theorem bit_setBit_self (s : State) (a : Nat) {i : Nat} (v : Bool) (h : i < 32) : (s.setBit a i v).bit a i = v := by
  simp only [State.bit, State.setBit, reg_setReg_self]
  cases v
  · exact bit_clrBitW_self _ h
  · exact bit_setBitW_self _ h

theorem bit_setBit_ne (s : State) (a : Nat) {i j : Nat} (v : Bool) (h : i < 32) (hj : j ≠ i) :
    (s.setBit a i v).bit a j = s.bit a j := by
  simp only [State.bit, State.setBit, reg_setReg_self]
  cases v
  · exact bit_clrBitW_ne _ h hj
  · exact bit_setBitW_ne _ h hj

/-- Pending words are in the interrupt controller's block. -/
theorem reg_setPend_ne (s : State) (src : Nat) (v : Bool) {a : Nat} (h : src < 512) (ha : a < 0x20100 ∨ 0x20140 ≤ a) :
    (s.setPend src v).reg a = s.reg a := by
  apply reg_setBit_ne
  show a ≠ 0x020100 + src / 32 * 4
  omega

theorem reg_edge_ne (s : State) (src : Nat) {a : Nat} (h : src < 512) (ha : a < 0x20100 ∨ 0x20140 ≤ a) :
    (s.edge src).reg a = s.reg a := by
  unfold State.edge
  split
  · exact reg_setPend_ne s src true h ha
  · rfl

@[simp] theorem reg_snapTrig (s : State) (f a : Nat) : (s.snapTrig f).reg a = s.reg a := by
  unfold State.snapTrig; split <;> rfl

theorem evtSource_lt {stat b src : Nat} (hb : b < 32) (h : evtSource stat b = some src) : src < 512 := by
  have ite_lt : ∀ (p : Prop) [Decidable p] (k : Nat) (o : Option Nat), k < 512 → (∀ x, o = some x → x < 512) →
      ∀ x, (if p then some k else o) = some x → x < 512 := by
    intro p _ k o hk ho x hx
    by_cases hp : p
    · rw [if_pos hp] at hx; cases hx; exact hk
    · rw [if_neg hp] at hx; exact ho x hx
  suffices key : ∀ x, evtSource stat b = some x → x < 512 from key src h
  unfold evtSource
  dsimp only
  refine ite_lt _ _ _ (by split <;> omega) ?_
  iterate 17 refine ite_lt _ _ _ (by omega) ?_
  intro x hx
  cases hx

/-- Event bit `b` of the register at `stat` is set afterwards. -/
theorem bit_evt_self (s : State) (stat : Nat) {b : Nat} (hb : b < 32) (hs : stat < 0x20100 ∨ 0x20140 ≤ stat) :
    (s.evt stat b).bit stat b = true := by
  unfold State.evt
  split
  · assumption
  · dsimp only
    have key : ∀ t : State, t.reg stat = (s.setBit stat b true).reg stat → t.bit stat b = true := fun t ht => by
      have := bit_setBit_self s stat true hb
      simp only [State.bit, ht] at *
      exact this
    cases hf : snapFault stat b <;> cases he : evtSource stat b <;> dsimp only
    · exact key _ rfl
    · split
      · exact key _ (reg_edge_ne _ _ (evtSource_lt hb he) hs)
      · exact key _ rfl
    · exact key _ (reg_snapTrig _ _ _)
    · split
      · exact key _ ((reg_edge_ne _ _ (evtSource_lt hb he) hs).trans (reg_snapTrig _ _ _))
      · exact key _ (reg_snapTrig _ _ _)

/-- An event writes its status register and pending words, no other register. -/
theorem reg_evt_ne (s : State) (stat : Nat) {b a : Nat} (hb : b < 32) (ha : a ≠ stat) (hp : a < 0x20100 ∨ 0x20140 ≤ a) :
    (s.evt stat b).reg a = s.reg a := by
  unfold State.evt
  split
  · rfl
  · dsimp only
    have h0 : (s.setBit stat b true).reg a = s.reg a := reg_setBit_ne s b true ha
    cases hf : snapFault stat b <;> cases he : evtSource stat b <;> dsimp only
    · exact h0
    · split
      · exact (reg_edge_ne _ _ (evtSource_lt hb he) hp).trans h0
      · exact h0
    · exact (reg_snapTrig _ _ _).trans h0
    · split
      · exact (reg_edge_ne _ _ (evtSource_lt hb he) hp).trans ((reg_snapTrig _ _ _).trans h0)
      · exact (reg_snapTrig _ _ _).trans h0

/-- Beside registers an event touches the snapshot triggers alone. -/
theorem evt_same (s : State) (stat b : Nat) : s.evt stat b = { s with regs := (s.evt stat b).regs, snp := (s.evt stat b).snp } := by
  unfold State.evt
  split
  · rfl
  · dsimp only
    have e1 : ∀ (x : State) (src : Nat), x.edge src = { x with regs := (x.edge src).regs } := fun x src => by
      unfold State.edge; split <;> rfl
    have e2 : ∀ (x : State) (f : Nat), x.snapTrig f = { x with snp := (x.snapTrig f).snp } := fun x f => by
      unfold State.snapTrig; split <;> rfl
    cases hf : snapFault stat b <;> cases he : evtSource stat b <;> dsimp only
    · rfl
    · split
      · rw [e1]; rfl
      · rfl
    · rw [e2]; rfl
    · split
      · rw [e1, e2]; rfl
      · rw [e2]; rfl

@[simp] theorem evt_pending (s : State) (stat b : Nat) : (s.evt stat b).pending = s.pending := (congrArg State.pending (evt_same s stat b) :)
@[simp] theorem evt_clk (s : State) (stat b : Nat) : (s.evt stat b).clk = s.clk := (congrArg State.clk (evt_same s stat b) :)
@[simp] theorem evt_tick (s : State) (stat b : Nat) : (s.evt stat b).tick = s.tick := (congrArg State.tick (evt_same s stat b) :)
@[simp] theorem evt_tickClk (s : State) (stat b : Nat) : (s.evt stat b).tickClk = s.tickClk := (congrArg State.tickClk (evt_same s stat b) :)
@[simp] theorem evt_outbox (s : State) (stat b : Nat) : (s.evt stat b).outbox = s.outbox := (congrArg State.outbox (evt_same s stat b) :)
@[simp] theorem evt_freeCtr (s : State) (stat b : Nat) : (s.evt stat b).freeCtr = s.freeCtr := (congrArg State.freeCtr (evt_same s stat b) :)
@[simp] theorem evt_latch (s : State) (stat b : Nat) : (s.evt stat b).latch = s.latch := (congrArg State.latch (evt_same s stat b) :)
@[simp] theorem evt_modId (s : State) (stat b : Nat) : (s.evt stat b).modId = s.modId := (congrArg State.modId (evt_same s stat b) :)
@[simp] theorem evt_pins (s : State) (stat b : Nat) : (s.evt stat b).pins = s.pins := (congrArg State.pins (evt_same s stat b) :)
@[simp] theorem evt_cm (s : State) (stat b : Nat) : (s.evt stat b).cm = s.cm := (congrArg State.cm (evt_same s stat b) :)
@[simp] theorem evt_hist (s : State) (stat b : Nat) : (s.evt stat b).hist = s.hist := (congrArg State.hist (evt_same s stat b) :)
@[simp] theorem evt_irq (s : State) (stat b : Nat) : (s.evt stat b).irq = s.irq := (congrArg State.irq (evt_same s stat b) :)
@[simp] theorem evt_cmd (s : State) (stat b : Nat) : (s.evt stat b).cmd = s.cmd := (congrArg State.cmd (evt_same s stat b) :)
@[simp] theorem evt_jnl (s : State) (stat b : Nat) : (s.evt stat b).jnl = s.jnl := (congrArg State.jnl (evt_same s stat b) :)
@[simp] theorem evt_pwr (s : State) (stat b : Nat) : (s.evt stat b).pwr = s.pwr := (congrArg State.pwr (evt_same s stat b) :)
@[simp] theorem evt_svc (s : State) (stat b : Nat) : (s.evt stat b).svc = s.svc := (congrArg State.svc (evt_same s stat b) :)
@[simp] theorem evt_ecs (s : State) (stat b : Nat) : (s.evt stat b).ecs = s.ecs := (congrArg State.ecs (evt_same s stat b) :)
@[simp] theorem evt_ecIo (s : State) (stat b : Nat) : (s.evt stat b).ecIo = s.ecIo := (congrArg State.ecIo (evt_same s stat b) :)
@[simp] theorem evt_tim (s : State) (stat b : Nat) : (s.evt stat b).tim = s.tim := (congrArg State.tim (evt_same s stat b) :)
@[simp] theorem evt_geo (s : State) (stat b : Nat) : (s.evt stat b).geo = s.geo := (congrArg State.geo (evt_same s stat b) :)
@[simp] theorem evt_smp (s : State) (stat b : Nat) : (s.evt stat b).smp = s.smp := (congrArg State.smp (evt_same s stat b) :)
@[simp] theorem evt_cors (s : State) (stat b : Nat) : (s.evt stat b).cors = s.cors := (congrArg State.cors (evt_same s stat b) :)
@[simp] theorem evt_cis (s : State) (stat b : Nat) : (s.evt stat b).cis = s.cis := (congrArg State.cis (evt_same s stat b) :)
@[simp] theorem evt_str (s : State) (stat b : Nat) : (s.evt stat b).str = s.str := (congrArg State.str (evt_same s stat b) :)
@[simp] theorem evt_sap (s : State) (stat b : Nat) : (s.evt stat b).sap = s.sap := (congrArg State.sap (evt_same s stat b) :)
@[simp] theorem evt_nyl (s : State) (stat b : Nat) : (s.evt stat b).nyl = s.nyl := (congrArg State.nyl (evt_same s stat b) :)
@[simp] theorem evt_mir (s : State) (stat b : Nat) : (s.evt stat b).mir = s.mir := (congrArg State.mir (evt_same s stat b) :)
@[simp] theorem evt_mea (s : State) (stat b : Nat) : (s.evt stat b).mea = s.mea := (congrArg State.mea (evt_same s stat b) :)

end Sys2Proof.Machine
end

