-- ==== Sys2Proof/Laws/EcBlock.lean ====
section
/-! SUPPORT. Effect cores in the block: what the end of a program and the answers to waiting accesses leave alone. -/

namespace Sys2Proof.Machine

open Sys2Proof.Claims

@[simp] theorem ec_setEc_self (s : State) (c : Nat) (e : EcCore) : (s.setEc c e).ec c = e := by
  simp [State.ec, State.setEc]

theorem ec_setEc_ne (s : State) {c k : Nat} (e : EcCore) (h : k ≠ c) : (s.setEc c e).ec k = s.ec k := by
  simp [State.ec, State.setEc, tabGetD_tabSet_ne _ _ _ h]

/-- Answers touch data memory, the bus matrix's own registers and pending bits, and what waits; no core's registers. -/
structure ServeKeeps (s t : State) : Prop where
  core : ∀ k, t.ec k = { s.ec k with mem := (t.ec k).mem }
  reg : ∀ a, a / 0x10000 ≠ 2 → a / 0x10000 ≠ 3 → t.reg a = s.reg a
  irq : t.irq = s.irq
  tick : t.tick = s.tick
  cm : t.cm = s.cm

theorem ServeKeeps.refl (s : State) : ServeKeeps s s := ⟨fun _ => rfl, fun _ _ _ => rfl, rfl, rfl, rfl⟩

theorem ServeKeeps.trans {a b c : State} (h1 : ServeKeeps a b) (h2 : ServeKeeps b c) : ServeKeeps a c :=
  ⟨fun k => by rw [h2.core k, h1.core k], fun x hx hy => (h2.reg x hx hy).trans (h1.reg x hx hy), h2.irq.trans h1.irq,
    h2.tick.trans h1.tick, h2.cm.trans h1.cm⟩

theorem serve_of_eq {s t : State} (he : t.ecs = s.ecs) (hr : t.regs = s.regs) (hi : t.irq = s.irq) (ht : t.tick = s.tick)
    (hc : t.cm = s.cm) : ServeKeeps s t :=
  ⟨fun k => by simp only [State.ec, he], fun a _ _ => by simp only [State.reg, hr], hi, ht, hc⟩

theorem serve_foldl {α : Type} (f : State → α → State) (l : List α) (h : ∀ s a, ServeKeeps s (f s a)) (s : State) :
    ServeKeeps s (l.foldl f s) := by
  induction l generalizing s with
  | nil => exact .refl s
  | cons a l ih => exact (h s a).trans (ih _)

theorem serve_emit (s : State) (o : Out) : ServeKeeps s (s.emit o) := serve_of_eq rfl rfl rfl rfl rfl

theorem serve_aliasFlush (m : Nat) (s : State) : ServeKeeps s (aliasFlush m s) := by
  unfold aliasFlush
  dsimp only
  refine ServeKeeps.trans ?_ (serve_foldl _ _ ?_ _)
  · exact serve_of_eq rfl rfl rfl rfl rfl
  · intro s w
    split
    · exact serve_emit _ _
    · exact .refl s

theorem serve_busRespond (n r : Nat) (b : Bool) (d : List Byte) (s : State) : ServeKeeps s (busRespond n r b d s) := by
  unfold busRespond
  split
  · exact .refl s
  · dsimp only
    split
    · refine ServeKeeps.trans ?_ (serve_aliasFlush _ _)
      exact serve_of_eq rfl rfl rfl rfl rfl
    · refine ServeKeeps.trans ?_ (serve_emit _ _)
      exact serve_of_eq rfl rfl rfl rfl rfl

theorem serve_setReg (s : State) (a : Nat) (v : Word) (h : a / 0x10000 = 3) : ServeKeeps s (s.setReg a v) :=
  ⟨fun _ => rfl, fun _ _ hx => reg_setReg_ne s v (fun e => hx (e ▸ h)), rfl, rfl, rfl⟩

theorem serve_evt (s : State) (stat b : Nat) (hb : b < 32) (h : stat / 0x10000 = 3) : ServeKeeps s (s.evt stat b) :=
  ⟨fun k => by simp only [State.ec, evt_ecs],
   fun x h2 h3 => reg_evt_ne s stat hb (fun e => h3 (e ▸ h)) (by omega), evt_irq _ _ _, evt_tick _ _ _, evt_cm _ _ _⟩

theorem serve_logDecode (t : BusTxn) (s : State) : ServeKeeps s (logDecode t s) := by
  unfold logDecode
  dsimp only
  refine ServeKeeps.trans ?_ (serve_evt _ _ _ (by decide) (by decide))
  refine ServeKeeps.trans ?_ (serve_setReg _ _ _ (by decide))
  refine ServeKeeps.trans ?_ (serve_setReg _ _ _ (by decide))
  exact serve_setReg _ _ _ (by decide)

theorem serve_reply (n : Option Nat) (t : BusTxn) (r : Nat) (d : List Byte) (s : State) : ServeKeeps s (ecReply n t r d s) := by
  unfold ecReply
  split
  · exact serve_busRespond _ _ _ _ _
  · exact serve_emit _ _

theorem putBytes_mem (e : EcCore) (off : Nat) (l : List Byte) :
    ecPutBytes e off l = { e with mem := (ecPutBytes e off l).mem } := by
  unfold ecPutBytes
  generalize l.zipIdx = z
  induction z generalizing e with
  | nil => rfl
  | cons x z ih => rw [List.foldl_cons, ih]; rfl

theorem serve_setMem (s : State) (c : Nat) (e : EcCore) (h : e = { s.ec c with mem := e.mem }) : ServeKeeps s (s.setEc c e) := by
  refine ⟨fun k => ?_, fun _ _ _ => rfl, rfl, rfl, rfl⟩
  by_cases hk : k = c
  · subst hk; rw [ec_setEc_self]; exact h
  · rw [ec_setEc_ne s e hk]

theorem serve_answer (c : Nat) (n : Option Nat) (t : BusTxn) (s : State) : ServeKeeps s (ecAnswer c n t s) := by
  unfold ecAnswer
  dsimp only
  split
  · exact (serve_setMem s c _ (putBytes_mem _ _ _)).trans (serve_reply _ _ _ _ _)
  · split
    · exact serve_reply _ _ _ _ _
    · exact (serve_logDecode _ _).trans (serve_reply _ _ _ _ _)

/-- Answering what waited for a core. -/
theorem serve_ecServe (c : Nat) (s : State) : ServeKeeps s (ecServe c s) := by
  unfold ecServe
  split
  · exact .refl s
  · dsimp only
    refine ServeKeeps.trans ?_ (serve_foldl _ _ (by intro s e; exact serve_of_eq rfl rfl rfl rfl rfl) _)
    refine ServeKeeps.trans ?_ (serve_foldl _ _ (fun s e => serve_answer _ _ _ _) _)
    exact serve_of_eq rfl rfl rfl rfl rfl

theorem serve_takeOut (c : Nat) (fade : Bool) (s : State) : ServeKeeps s (takeOut c fade s) := serve_of_eq rfl rfl rfl rfl rfl

/-- The end of a tick program keeps the core but its memory. -/
structure EndKeeps (c : Nat) (s t : State) : Prop where
  core : ∀ k, t.ec k = { s.ec k with mem := (t.ec k).mem }
  irq : t.irq = s.irq
  tick : t.tick = s.tick
  cm : t.cm = s.cm

theorem ServeKeeps.ends {s t : State} (h : ServeKeeps s t) (c : Nat) : EndKeeps c s t := ⟨h.core, h.irq, h.tick, h.cm⟩

theorem EndKeeps.trans {n : Nat} {a b c : State} (h1 : EndKeeps n a b) (h2 : EndKeeps n b c) : EndKeeps n a c :=
  ⟨fun k => by rw [h2.core k, h1.core k], h2.irq.trans h1.irq, h2.tick.trans h1.tick, h2.cm.trans h1.cm⟩

theorem ends_setReg (c : Nat) (s : State) (a : Nat) (v : Word) : EndKeeps c s (s.setReg a v) := ⟨fun _ => rfl, rfl, rfl, rfl⟩

theorem ends_evt (c : Nat) (s : State) (a b : Nat) : EndKeeps c s (s.evt a b) :=
  ⟨fun k => by simp only [State.ec, evt_ecs], evt_irq _ _ _, evt_tick _ _ _, evt_cm _ _ _⟩

theorem ends_ecHalted (c : Nat) (s : State) : EndKeeps c s (ecHalted c s) := by
  unfold ecHalted
  dsimp only
  refine EndKeeps.trans ?_ ((serve_ecServe _ _).ends c)
  refine EndKeeps.trans ?_ ((serve_takeOut _ _ _).ends c)
  refine EndKeeps.trans ?_ (ends_setReg _ _ _ _)
  refine EndKeeps.trans ?_ (ends_setReg _ _ _ _)
  split
  · exact (ends_setReg _ _ _ _).trans (ends_setReg _ _ _ _)
  · exact ends_setReg _ _ _ _

theorem ends_ecStopped (c cnt b : Nat) (s : State) : EndKeeps c s (ecStopped c cnt b s) := by
  unfold ecStopped
  dsimp only
  refine EndKeeps.trans ?_ ((serve_ecServe _ _).ends c)
  refine EndKeeps.trans ?_ ((serve_takeOut _ _ _).ends c)
  refine EndKeeps.trans ?_ (ends_evt _ _ _ _)
  refine EndKeeps.trans ?_ (ends_setReg _ _ _ _)
  exact (ends_setReg _ _ _ _).trans (ends_setReg _ _ _ _)

/-- The event of an overrun or a fault is set. -/
theorem stopped_evt (c cnt : Nat) {b : Nat} (s : State) (hb : b < 32) (hc : c < 16) :
    (ecStopped c cnt b s).bit (ecReg c 0x4C) b = true := by
  unfold ecStopped
  dsimp only
  have h10 : (ecReg c 0x4C) / 0x10000 = 10 := by unfold ecReg; omega
  have h := (serve_takeOut c true (((((ecFlags c s).setNat (ecReg c 0x2C) (s.ec c).pc).inc (ecReg c cnt)).evt (ecReg c 0x4C) b))).trans
    (serve_ecServe c _)
  have hr := h.reg (ecReg c 0x4C) (by omega) (by omega)
  simp only [State.bit]
  rw [hr]
  exact bit_evt_self _ _ hb (by omega)

end Sys2Proof.Machine
end

