-- ==== Sys2Proof/Laws/Memory.lean ====
section
/-! SUPPORT. The cistern as memory: what is read after a write, and that every operation keeps the canonical form. -/

namespace Sys2Proof.Machine

theorem memWf_cons (c : Host.Cell) (t : List Host.Cell) :
    memWf (c :: t) = true ↔ c.2 ≠ 0 ∧ (∀ d ∈ t, c.1 < d.1) ∧ memWf t = true := by
  induction t generalizing c with
  | nil => simp [memWf]
  | cons d t ih =>
    simp only [memWf, Bool.and_eq_true, bne_iff_ne, ne_eq, decide_eq_true_eq]
    constructor
    · rintro ⟨⟨h1, h2⟩, h3⟩
      refine ⟨h1, ?_, h3⟩
      intro e he
      rcases List.mem_cons.mp he with rfl | he
      · exact h2
      · exact Nat.lt_trans h2 (((ih d).mp h3).2.1 e he)
    · rintro ⟨h1, h2, h3⟩
      exact ⟨⟨h1, h2 d (by simp)⟩, h3⟩

/-- A byte below every listed one reads zero. -/
theorem memGet_below (m : List Host.Cell) (a : Nat) (h : ∀ c ∈ m, a < c.1) : memGet m a = 0 := by
  cases m with
  | nil => rfl
  | cons c t =>
    have := h c (by simp)
    have hn : ¬ c.1 = a := by omega
    simp [memGet, hn, this]

/-- What a write lists was listed before or is the byte written. -/
theorem mem_memSet (m : List Host.Cell) (a : Nat) (v : Byte) (c : Host.Cell) (h : c ∈ memSet m a v) : c = (a, v) ∨ c ∈ m := by
  induction m with
  | nil =>
    simp only [memSet] at h
    split at h
    · simp at h
    · exact .inl (by simpa using h)
  | cons e t ih =>
    simp only [memSet] at h
    split at h
    · split at h
      · exact .inr (by simp [h])
      · rcases List.mem_cons.mp h with h | h
        · exact .inl h
        · exact .inr (by simp [h])
    · split at h
      · split at h
        · exact .inr h
        · rcases List.mem_cons.mp h with h | h
          · exact .inl h
          · exact .inr h
      · rcases List.mem_cons.mp h with h | h
        · exact .inr (by simp [h])
        · rcases ih h with h | h
          · exact .inl h
          · exact .inr (by simp [h])

theorem memSet_wf (m : List Host.Cell) (a : Nat) (v : Byte) (h : memWf m = true) : memWf (memSet m a v) = true := by
  induction m with
  | nil =>
    simp only [memSet]
    split
    · rfl
    · next hv => exact (memWf_cons _ _).mpr ⟨hv, by simp, rfl⟩
  | cons e t ih =>
    obtain ⟨h1, h2, h3⟩ := (memWf_cons e t).mp h
    simp only [memSet]
    split
    · next he =>
      split
      · exact h3
      · next hv => exact (memWf_cons _ _).mpr ⟨hv, fun d hd => he ▸ h2 d hd, h3⟩
    · split
      · next hlt =>
        split
        · exact h
        · next hv =>
          refine (memWf_cons _ _).mpr ⟨hv, ?_, h⟩
          intro d hd
          rcases List.mem_cons.mp hd with rfl | hd
          · exact hlt
          · exact Nat.lt_trans hlt (h2 d hd)
      · next hne hlt =>
        refine (memWf_cons _ _).mpr ⟨h1, ?_, ih h3⟩
        intro d hd
        rcases mem_memSet t a v d hd with rfl | hd
        · show e.1 < a
          omega
        · exact h2 d hd

theorem memGet_memSet (m : List Host.Cell) (a b : Nat) (v : Byte) (h : memWf m = true) :
    memGet (memSet m a v) b = if b = a then v else memGet m b := by
  induction m with
  | nil =>
    by_cases hv : v = 0
    · simp [memSet, hv, memGet]
    · simp only [memSet, if_neg hv]
      by_cases hb : b = a
      · simp [memGet, hb]
      · have hb' : ¬ a = b := fun e => hb e.symm
        simp [memGet, hb, hb']
  | cons e t ih =>
    obtain ⟨h1, h2, h3⟩ := (memWf_cons e t).mp h
    simp only [memSet]
    by_cases he : e.1 = a
    · subst he
      simp only [if_true]
      by_cases hv : v = 0
      · subst hv
        simp only [if_true]
        by_cases hb : b = e.1
        · simp only [hb, if_true]
          exact memGet_below t _ h2
        · have hb' : ¬ e.1 = b := fun x => hb x.symm
          simp only [hb, if_false, memGet, hb']
          split
          · next hlt => exact memGet_below t _ fun c hc => Nat.lt_trans hlt (h2 c hc)
          · rfl
      · simp only [if_neg hv]
        by_cases hb : b = e.1
        · simp [hb, memGet]
        · have hb' : ¬ e.1 = b := fun x => hb x.symm
          simp [hb, hb', memGet]
    · simp only [he, if_false]
      by_cases hlt : a < e.1
      · simp only [hlt, if_true]
        by_cases hv : v = 0
        · subst hv
          simp only [if_true]
          by_cases hb : b = a
          · subst hb
            simp [memGet, he, hlt]
          · simp [hb]
        · simp only [hv, if_false]
          by_cases hb : b = a
          · simp [hb, memGet]
          · have hb' : ¬ a = b := fun x => hb x.symm
            by_cases hba : b < a
            · have e1 : ¬ e.1 = b := by omega
              have e2 : b < e.1 := by omega
              simp [memGet, hb, hb', hba, e1, e2]
            · simp [memGet, hb, hb', hba]
      · simp only [hlt, if_false, memGet, ih h3]
        by_cases hb : b = a
        · subst hb
          simp [he, hlt]
        · simp [hb]

theorem memSetBytes_wf (l : List Byte) (m : List Host.Cell) (a : Nat) (h : memWf m = true) :
    memWf (memSetBytes m a l) = true := by
  induction l generalizing m a with
  | nil => exact h
  | cons b t ih => exact ih _ _ (memSet_wf m a b h)

theorem memGet_memSetBytes (l : List Byte) (m : List Host.Cell) (a b : Nat) (h : memWf m = true) :
    memGet (memSetBytes m a l) b = if a ≤ b ∧ b < a + l.length then l.getD (b - a) 0 else memGet m b := by
  induction l generalizing m a with
  | nil =>
    have : ¬ (a ≤ b ∧ b < a + ([] : List Byte).length) := by simp
    rw [if_neg this]
    rfl
  | cons x t ih =>
    simp only [memSetBytes, ih _ _ (memSet_wf m a x h), memGet_memSet m a b x h, List.length_cons]
    by_cases h1 : b = a
    · subst h1
      have n1 : ¬ (b + 1 ≤ b ∧ b < b + 1 + t.length) := by omega
      have p1 : b ≤ b ∧ b < b + (t.length + 1) := by omega
      rw [if_neg n1, if_pos p1]
      simp
    · by_cases h2 : a + 1 ≤ b ∧ b < a + 1 + t.length
      · have p1 : a ≤ b ∧ b < a + (t.length + 1) := by omega
        rw [if_pos h2, if_pos p1]
        have e : b - a = (b - (a + 1)) + 1 := by omega
        rw [e, List.getD_cons_succ]
      · have n1 : ¬ (a ≤ b ∧ b < a + (t.length + 1)) := by omega
        rw [if_neg h2, if_neg n1, if_neg h1]

theorem memFilter_wf (m : List Host.Cell) (f : Host.Cell → Bool) (h : memWf m = true) : memWf (m.filter f) = true := by
  induction m with
  | nil => rfl
  | cons c t ih =>
    obtain ⟨h1, h2, h3⟩ := (memWf_cons c t).mp h
    by_cases hf : f c = true
    · rw [List.filter_cons_of_pos hf]
      exact (memWf_cons _ _).mpr ⟨h1, fun d hd => h2 d (List.mem_filter.mp hd).1, ih h3⟩
    · rw [List.filter_cons_of_neg hf]
      exact ih h3

/-- A write to the cistern keeps the form. -/
theorem cisWrite_wf (s : State) (off : Nat) (l : List Byte) (h : MemWf s) : MemWf (cisWrite s off l) :=
  memSetBytes_wf l s.cis.mem off h

theorem cisWriteWord_wf (s : State) (off : Nat) (v : Word) (h : MemWf s) : MemWf (cisWriteWord s off v) :=
  cisWrite_wf s off _ h

/-- Clearing a bank keeps the form. -/
theorem clearBank_wf (s : State) (n : Nat) (h : MemWf s) : MemWf (clearBank s n) := memFilter_wf s.cis.mem _ h

/-- What stands in the cistern after a write. -/
theorem memGet_cisWrite (s : State) (off b : Nat) (l : List Byte) (h : MemWf s) :
    memGet (cisWrite s off l).cis.mem b = if off ≤ b ∧ b < off + l.length then l.getD (b - off) 0 else memGet s.cis.mem b :=
  memGet_memSetBytes l s.cis.mem off b h

/-- Reset memory has the form. -/
theorem reset_memWf : MemWf State.reset := by
  show memWf [] = true
  rfl

end Sys2Proof.Machine
end

