-- ==== Sys2Proof/Laws/Packets.lean ====
section
/-! SUPPORT. What a packet's execution comes to once it is taken from its ring. -/

namespace Sys2Proof.Machine

open Sys2Proof.Claims

/-- The path check sees the gang alone. -/
theorem pathGone_congr {a b : State} (hc : a.cm = b.cm) (hn : a.nyl = b.nyl) (l : List GangLevel) (d path : Nat) :
    pathGone a l d path = pathGone b l d path := by
  induction l generalizing d path with
  | nil => cases d <;> rfl
  | cons g r ih =>
    cases d with
    | zero => rfl
    | succ d =>
      have hm : ∀ m, a.member m = b.member m := fun m => by simp only [State.member, hn]
      simp only [pathGone, hc, ih, hm]

theorem pathFault_congr {a b : State} (hc : a.cm = b.cm) (hn : a.nyl = b.nyl) (h : Hdr) : pathFault a h = pathFault b h := by
  have hl : ledLevels a = ledLevels b := by simp only [ledLevels, hc]
  simp only [pathFault, hl, pathGone_congr hc hn]

theorem atFetch_cm (op : Nat) (h : Hdr) (p : List Byte) (s : State) : (atFetch op h p s).cm = s.cm := by
  unfold atFetch; dsimp only; split <;> rfl

theorem atFetch_nyl (op : Nat) (h : Hdr) (p : List Byte) (s : State) : (atFetch op h p s).nyl = s.nyl := by
  unfold atFetch; dsimp only; split <;> rfl

theorem takePacket_taken {op : Nat} {h : Hdr} {p : List Byte} {s : State} (g : State → State × Res)
    (ht : pktTaken op h p s = true) :
    takePacket op (normHdr h) (pktNet h s) p false (fun s => s) g s =
      answered op h p s (g (atFetch op h p s)).2 (g (atFetch op h p s)).1 := by
  simp only [pktTaken, Bool.and_eq_true, Bool.not_eq_true'] at ht
  obtain ⟨⟨hd, hf⟩, hc⟩ := ht
  have e1 : ((normHdr h).fence && s.cmd.fetched.any fun g => g.reply.sq == (normHdr h).sq && !g.dead) = false := hf
  have e2 : ((false || ringEn s true (pktCq h s)) && (!ringEn s true (pktCq h s) ||
      decide (cqFree s (pktCq h s) < pktNeed op h p))) = false := by
    simp only [pktCredit, Bool.or_eq_true, Bool.not_eq_true', decide_eq_true_eq] at hc
    rcases hc with hc | hc
    · simp [hc]
    · cases ringEn s true (pktCq h s)
      · rfl
      · simpa using hc
  unfold takePacket
  dsimp only
  rw [if_neg (by rw [e1]; decide)]
  rw [if_neg (by
    show ¬ ((false || ringEn s true (pktCq h s)) && (!ringEn s true (pktCq h s) ||
      decide (cqFree s (pktCq h s) < pktNeed op h p))) = true
    rw [e2]; decide)]
  unfold runPacket answered entryOf atFetch
  dsimp only
  by_cases hen : ringEn s true (pktCq h s) = true
  · have hen' : ringEn s true (boundCq s (normHdr h).sq) = true := hen
    have hen2 : ∀ q, ringEn (s.setCq (boundCq s (normHdr h).sq) q) true (boundCq s (normHdr h).sq) = true := fun _ => hen
    simp only [if_pos hen', if_pos hen, if_pos (hen2 _)]
    rfl
  · have hen' : ¬ ringEn s true (boundCq s (normHdr h).sq) = true := hen
    simp only [if_neg hen', if_neg hen]
    rfl

/-- A packet that is taken: its opcode runs on `atFetch`, and its completion waits. -/
theorem doOp_taken {op : Nat} {f : OpFn} {h : Hdr} {p : List Byte} {s : State} (ht : pktTaken op h p s = true) :
    doOp op f h p s =
      let out : State × Res :=
        if 4080 < p.length then (atFetch op h p s, resErr stBadParam)
        else execPacket op (some f) (normHdr h) (pktNet h s) p (atFetch op h p s)
      answered op h p s out.2 out.1 := by
  have hd : s.dieRuns = true := by
    simp only [pktTaken, Bool.and_eq_true] at ht; exact ht.1.1
  have step1 : doOp op f h p s = takePacket op (normHdr h) (pktNet h s) p false (fun s => s)
      (fun v => if 4080 < p.length then (v, resErr stBadParam) else
        execPacket op (some f) (normHdr h) (pktNet h s) p v) s := by
    unfold doOp
    rw [if_pos hd]
    rfl
  rw [step1, takePacket_taken _ ht]

/-- A packet that reaches its opcode. -/
theorem doOp_here {op : Nat} {f : OpFn} {h : Hdr} {p : List Byte} {s : State} (ht : pktTaken op h p s = true)
    (hh : pktHere op h p s = true) :
    doOp op f h p s =
      let out := f (normHdr h) (pktNet h s) p (atFetch op h p s)
      answered op h p s out.2 out.1 := by
  rw [doOp_taken ht]
  simp only [pktHere, Bool.and_eq_true, Bool.not_eq_true', decide_eq_true_eq] at hh
  obtain ⟨⟨⟨hl, hp⟩, hn⟩, hm⟩ := hh
  have hl' : ¬ 4080 < p.length := by omega
  have hp' : pathFault (atFetch op h p s) (normHdr h) = false :=
    (pathFault_congr (atFetch_cm op h p s) (atFetch_nyl op h p s) _).trans hp
  have hn' : ((pktNet h s).isSome && netDenied op) = false := by
    rw [← hn]; unfold pktNet; cases h.net <;> simp
  have e : execPacket op (some f) (normHdr h) (pktNet h s) p (atFetch op h p s) =
      f (normHdr h) (pktNet h s) p (atFetch op h p s) := by
    simp only [execPacket, hp', hn', Bool.false_eq_true, if_false]
    by_cases h1 : (isEpochOp op || op / 256 == 2) = true
    · simp [h1]
    · have : pathMember h.depth h.path = none := by
        simpa [h1] using hm
      have : pathMember (normHdr h).depth (normHdr h).path = none := this
      simp only [h1, Bool.false_eq_true, if_false, this]
  simp only [hl', if_false, e]

end Sys2Proof.Machine
end

