-- ==== Sys2Proof/Tests/Slice0.lean ====
section
/-! SUPPORT. Tests: for each statement with premises, states and operands that meet them, clause by clause; ill-formed commands; and a few words of
effect-core programs written out from R205 to R210. -/

namespace Sys2Proof.Tests

open Sys2Proof.Machine Sys2Proof.Claims

/-! ### States to start from -/

/-- Reset, with a register set. -/
def with1 (a : Nat) (v : Word) : State := State.reset.setReg a v

/-- Reset, with registers set. -/
def withRegs (l : List (Nat × Word)) : State := l.foldl (fun s e => s.setReg e.1 e.2) State.reset

/-- Reset with the render tick running. -/
def runs : State := State.reset.setBit R.timState 10 true

/-- A header for ring 0. -/
def h0 : Hdr := {}

/-- A packet that waits for its completion. -/
def aFetched (n : Nat) : Fetched := { num := n, reply := {}, resv := 1, due := 5, cpl := none }

/-- Reset, with packets waiting. -/
def withFetched (l : List Fetched) : State := { State.reset with cmd := { State.reset.cmd with fetched := l } }

/-- Reset, with transactions. -/
def withTxns (l : List Txn) : State := { State.reset with cmd := { State.reset.cmd with txns := l } }

/-- Reset, as the leader of a gang of two. -/
def leads : State := { State.reset with cm := { State.reset.cm with num := { levels := [{ per := 1024, n := 2, m := 0 }], stride := 1024 } } }

/-- Reset, as a gang member. -/
def follows : State := with1 R.nylGangState 0x200

/-- An OPEN transaction with ID 7. -/
def open7 : Txn := { num := 0, id := 7 }

/-- A header that names transaction 7. -/
def h7 : Hdr := { txn := 7 }

/-! ### The block -/

theorem test_witness_messages : ∃ t, step (with1 R.irqStatus 1) = .next t ∧ t.linkUp = true ∧ t.irq.d0 = true ∧ t.irq.l0 = true := by
  refine ⟨_, rfl, ?_⟩
  decide +kernel

theorem test_witness_idle : State.reset.pending = [] := by decide +kernel

theorem test_witness_step : ∃ t, step State.reset = .next t := ⟨_, rfl⟩

theorem test_witness_ec_encode : (Instr.and 3 1 2 4 {}).wellFormed = true ∧ (ecEncode (.and 3 1 2 4 {})).isSome = true := by
  decide +kernel

/-! ### Packets -/

theorem test_witness_packets_before :
    (State.reset.dieRuns = true ∧ pktFenced { fence := true } (withFetched [aFetched 1]) = true) ∧
    (let s := (with1 (cqReg 0 8) 0x401).setCq 0 { resv := 15 }
     s.dieRuns = true ∧ pktFenced h0 s = false ∧ pktCredit 0x0101 h0 [] s = false) ∧
    (pktTaken 0x0101 h0 (List.replicate 4081 0) State.reset = true) ∧
    (pktTaken 0x0101 { depth := 1, path := 3 } [] State.reset = true ∧ pathFault State.reset (normHdr { depth := 1, path := 3 }) = true) ∧
    (pktTaken 0x0E10 { net := true } [] State.reset = true ∧ pathFault State.reset (normHdr { net := true }) = false ∧
      netDenied 0x0E10 = true) ∧
    (pktTaken 0x0101 { depth := 1, path := 1 } [] leads = true ∧ pathFault leads (normHdr { depth := 1, path := 1 }) = false ∧
      isEpochOp 0x0101 = false ∧ 0x0101 / 256 ≠ 2 ∧ pathMember 1 1 = some (1, 0, 0)) := by
  decide +kernel

theorem test_witness_epoch_stage :
    pktRuns 0x0105 h7 [] (withTxns [open7]) = true ∧ mayStage 0x0105 h7 [] (atFetch 0x0105 h7 [] (withTxns [open7])) = true ∧
    findTxn (atFetch 0x0105 h7 [] (withTxns [open7])) 7 = some open7 ∧ open7.phase = .open_ ∧
    chkNone (atFetch 0x0105 h7 [] (withTxns [open7])) [] [] = stOk ∧ open7.bytes + 16 ≤ 0x100000 := by
  decide +kernel

theorem test_witness_epoch_own :
    pktRuns 0x0105 h0 [] State.reset = true ∧ mayStage 0x0105 h0 [] (atFetch 0x0105 h0 [] State.reset) = true ∧
    chkNone (atFetch 0x0105 h0 [] State.reset) [] [] = stOk ∧ heldCount (atFetch 0x0105 h0 [] State.reset) < 64 := by
  decide +kernel

theorem test_witness_epoch_refused :
    (pktRuns 0x0105 h0 [] follows = true ∧ isFollower (atFetch 0x0105 h0 [] follows) = true ∧
      followerMay (atFetch 0x0105 h0 [] follows) 0x0105 [] = false) ∧
    (pktRuns 0x0105 h0 [1] State.reset = true ∧ mayStage 0x0105 h0 [1] (atFetch 0x0105 h0 [1] State.reset) = true ∧
      chkNone (atFetch 0x0105 h0 [1] State.reset) [] [1] ≠ stOk ∧ chkNone (atFetch 0x0105 h0 [1] State.reset) [] [1] ≠ stAccepted) ∧
    (pktRuns 0x0105 h7 [1] (withTxns [open7]) = true ∧ mayStage 0x0105 h7 [1] (atFetch 0x0105 h7 [1] (withTxns [open7])) = true ∧
      findTxn (atFetch 0x0105 h7 [1] (withTxns [open7])) 7 = some open7 ∧
      chkNone (atFetch 0x0105 h7 [1] (withTxns [open7])) [] [1] ≠ stBadState) := by
  decide +kernel

/-- Reset with pair (0, 0) in the published subset. -/
def published : State :=
  { State.reset with mea := { State.reset.mea with
    pub := some ({ index := 0, count := 1, due := 0, outs := [0], mics := [0] }, 0, 0, 0) } }

theorem test_witness_queries :
    pktRuns 0x0101 h0 [] State.reset = true ∧ pktRuns 0x0102 h0 [] State.reset = true ∧
    (let p := bytesOfWords [1, 0x04]
     pktRuns 0x0107 h0 p State.reset = true ∧
     listOk 1 p (fun w => fwReadable (wAt w 0).toNat) = stOk ∧ ((listOf 1 p).map fun w => (wAt w 0).toNat).length ≤ 10 ∧
     ((listOf 1 p).map fun w => (wAt w 0).toNat).all plainRead = true) ∧
    (pktRuns 0x0305 h0 (List.replicate 16 0) State.reset = true ∧ 0 < (atFetch 0x0305 h0 (List.replicate 16 0) State.reset).objects) ∧
    (let p := bytesOfWords [0x100, 0, 0, 0]
     pktRuns 0x0404 h0 p State.reset = true ∧ p.length = 16 ∧ fld (wAt (wordsOf p) 0) 7 6 = 0 ∧ fld (wAt (wordsOf p) 0) 31 9 = 0 ∧
     bit (wAt (wordsOf p) 0) 8 = true) ∧
    (let p := bytesOfWords [31, 0, 0, 0]
     pktRuns 0x0404 h0 p State.reset = true ∧ p.length = 16 ∧ fld (wAt (wordsOf p) 0) 7 6 = 0 ∧ fld (wAt (wordsOf p) 0) 31 9 = 0 ∧
     bit (wAt (wordsOf p) 0) 8 = false ∧ fld (wAt (wordsOf p) 0) 5 0 < 32) ∧
    pktRuns 0x0505 h0 (List.replicate 12 0) State.reset = true ∧
    (pktRuns 0x0604 h0 (bytesOfWords [1023]) State.reset = true ∧
      (wAt (wordsOf (bytesOfWords [1023])) 0).toNat < (atFetch 0x0604 h0 (bytesOfWords [1023]) State.reset).outputs) ∧
    (let p := bytesOfWords [0, 0, 0, 0, 0]
     pktRuns 0x0701 h0 p published = true ∧ (askedKeys (atFetch 0x0701 h0 p published) p).isSome = true) := by
  decide +kernel

theorem test_witness_queries_rest :
    (let p := bytesOfWords [15, 0x7FFF, 1]
     pktRuns 0x0806 h0 p State.reset = true ∧ p.length = 12 ∧ (wAt (wordsOf p) 0).toNat < 16 ∧ 1 ≤ (wAt (wordsOf p) 2).toNat ∧
     (wAt (wordsOf p) 2).toNat ≤ 10 ∧ (wAt (wordsOf p) 1).toNat + (wAt (wordsOf p) 2).toNat ≤ 0x8000 ∧
     (State.reset.ec 15).active = false) ∧
    (let p := bytesOfWords [0, 0, 10]
     let s := State.reset.setEc 0 { mode := .running }
     pktRuns 0x0806 h0 p s = true ∧ (s.ec 0).active = true) ∧
    (let p := bytesOfWords [0x1FF]
     pktRuns 0x0906 h0 p State.reset = true ∧ p.length = 4 ∧ fld (slotWord p) 31 9 = 0 ∧ bit (slotWord p) 8 = true) ∧
    (let p := bytesOfWords [0xFF]
     pktRuns 0x0906 h0 p State.reset = true ∧ p.length = 4 ∧ fld (slotWord p) 31 9 = 0 ∧ bit (slotWord p) 8 = false) ∧
    pktRuns 0x0A05 h0 [] State.reset = true ∧
    (let p := bytesOfWords [31]
     pktRuns 0x0B03 h0 p State.reset = true ∧ p.length = 4 ∧ fld (wAt (wordsOf p) 0) 31 5 = 0) ∧
    pktRuns 0x0C05 h0 (List.replicate 12 0) State.reset = true ∧
    (let p := bytesOfWords [1, 0, 0, 0]
     pktRuns 0x0D02 h0 p State.reset = true ∧ p.length = 16 ∧ fld (wAt (wordsOf (p.take 4)) 0) 31 1 = 0) ∧
    (let p := bytesOfWords [0, 4, 0, 0, 0]
     pktRuns 0x0D03 h0 p State.reset = true ∧ p.length = 20 ∧ (wAt (wordsOf p) 0).toNat + (wAt (wordsOf p) 1).toNat ≤ mramSize) ∧
    pktRuns 0x0E02 h0 [] State.reset = true := by
  decide +kernel

/-- The base point of P-256 as a public key: its private key is 1. -/
def keyG : List Byte :=
  beBytes 32 0x6b17d1f2e12c4247f8bce6e563a440f277037d812deb33a0f4a13945d898c296 ++ beBytes 32 0x4fe342e2fe1a7f9b8ee7eb4a7c0f9e162bce33576b315ececbb6406837bf51f5

/-- A signature made with it (k = 2) over itself with device ID 0. -/
def sigOwner : List Byte :=
  beBytes 32 0x7cf27b188d034f7e8a52380304b51ac3c08969e277f21b35a60b48fc47669978 ++ beBytes 32 0x5be5e2717ad55114e99cc0bbb76be78098c00cbc148630c32ae616ccb115c08d

/-- A key found for a given signature over a challenge of zeros with device ID 0 (u2 = 1, u1 = 2), and that signature. -/
def keyV : List Byte :=
  beBytes 32 0x68b521c2074404e88065d90ff5ab29f897e8763e93d3cdd9699236b731d0c10a ++ beBytes 32 0x602e957882605c3de17f1561680d870887d541316fb61fd3e6e0d9740422e925
def sigV : List Byte :=
  beBytes 32 0x4ec84767db592b6f7c5a4d3e282736444e258720ff3671f00c31eebdb0d10550 ++ beBytes 32 0x4ec84767db592b6f7c5a4d3e282736444e258720ff3671f00c31eebdb0d10550

/-- The public functions on fixed data: SHA-256 of "abc" begins with ba 78 16 bf (FIPS 180-4), CRC-32C of "123456789" is e3069283. -/
theorem test_sha256 : (sha256 [0x61, 0x62, 0x63]).take 4 = [0xBA, 0x78, 0x16, 0xBF] := by decide +kernel
theorem test_crc32c : crc32c ((List.range 9).map fun i => BitVec.ofNat 8 (0x31 + i)) = 0xE3069283 := by decide +kernel

/-- Reset, with a service lock. -/
def withSvc (v : SvcSt) : State := { State.reset with svc := v }

theorem test_witness_immediate :
    (let p := bytesOfWords [1]
     pktRuns 0x0103 h0 p State.reset = true ∧ p.length = 4 ∧ fld (wAt (wordsOf p) 0) 31 1 = 0) ∧
    (pktRuns 0x0108 h0 [] State.reset = true ∧ State.reset.cmd.resetDue = none) ∧
    (let s := { State.reset with cmd := { State.reset.cmd with resetDue := some 9 } }
     pktRuns 0x0108 h0 [] s = true ∧ s.cmd.resetDue.isSome = true) ∧
    (let p : List Byte := List.replicate 128 0xFF
     pktRuns 0x0702 h0 p State.reset = true ∧ p.length = 128) ∧
    (let p := bytesOfWords [0, 0x1000, 0, 20 + 4160, 0]
     let rb := (p.drop 4).take 12
     pktRuns 0x0703 h0 p published = true ∧ (askedKeys (atFetch 0x0703 h0 p published) p).isSome = true ∧ rb.length = 12 ∧
     leNat (rb.take 8) % 4 = 0 ∧
     20 + ((askedKeys (atFetch 0x0703 h0 p published) p).getD []).length * 4160 ≤ leNat (rb.drop 8)) ∧
    (let s := with1 R.snpCtrl 1
     pktRuns 0x0D01 h0 [] s = true ∧ s.bit R.snpCtrl 0 = true ∧ s.bit R.snpCtrl 1 = false) ∧
    (let p := bytesOfWords [1]
     pktRuns 0x0E01 h0 p State.reset = true ∧ p.length = 4 ∧ fld (wAt (wordsOf p) 0) 31 1 = 0 ∧
     (bit (wAt (wordsOf p) 0) 0 && warned State.reset) = false) ∧
    (pktRuns 0x0E10 h0 [] State.reset = true ∧ State.reset.svc.backoff = none) := by
  decide +kernel

theorem test_witness_service :
    (let s := withSvc { state := 1, key := keyV, chal := some (List.replicate 16 0, 9) }
     pktRuns 0x0E11 h0 sigV s = true ∧ sigV.length = 64 ∧ responseOk (atFetch 0x0E11 h0 sigV s) sigV = true) ∧
    (pktRuns 0x0E11 h0 sigV State.reset = true ∧ responseOk (atFetch 0x0E11 h0 sigV State.reset) sigV = false) ∧
    (let p := List.replicate 12 0 ++ List.replicate 4064 (7 : Byte)
     let p := (bytesOfWords [1, 0x2000000 - 4064, 4064]) ++ p.drop 12
     let s := withSvc { state := 2, nextB := some (0x2000000 - 4064) }
     pktRuns 0x0E13 h0 p s = true ∧ s.svc.state = 2 ∧ p.length = 12 + (wAt (wordsOf (p.take 12)) 2).toNat ∧
     (wAt (wordsOf (p.take 12)) 2).toNat = 4064 ∧ (wAt (wordsOf (p.take 12)) 0).toNat = 1 ∧ 1 ≠ s.svc.running ∧
     (wAt (wordsOf (p.take 12)) 1).toNat + 4064 ≤ 0x2000000 ∧ imageNext s 1 = some (wAt (wordsOf (p.take 12)) 1).toNat) ∧
    (let p := bytesOfWords [1, 0, 1] ++ [7]
     let s := withSvc { state := 2 }
     pktRuns 0x0E13 h0 p s = true ∧ p.length = 12 + (wAt (wordsOf (p.take 12)) 2).toNat ∧ (wAt (wordsOf (p.take 12)) 1).toNat = 0) ∧
    (let p := bytesOfWords [0]
     let s := withSvc { state := 2 }
     pktRuns 0x0E14 h0 p s = true ∧ s.svc.state = 2 ∧ p.length = 4 ∧ (wAt (wordsOf p) 0).toNat = s.svc.running) ∧
    (let p := bytesOfWords [0]
     let s := withSvc { state := 2, running := 1 }
     pktRuns 0x0E14 h0 p s = true ∧ p.length = 4 ∧ (wAt (wordsOf p) 0).toNat ≠ s.svc.running ∧
     imageInfo s (wAt (wordsOf p) 0).toNat = some (0x10000, 0)) := by
  decide +kernel

/-- The same theorem is a test of the signature check: an outside program made key, hash and signature. -/
theorem test_witness_owner :
    pktRuns 0x0E12 h0 (keyG ++ sigOwner) State.reset = true ∧ (keyG ++ sigOwner).length = 128 ∧ State.reset.svc.state = 0 ∧
    ecdsaOk ((keyG ++ sigOwner).take 64)
      (sha256 ((keyG ++ sigOwner).take 64 ++ devIdBytes (atFetch 0x0E12 h0 (keyG ++ sigOwner) State.reset)))
      ((keyG ++ sigOwner).drop 64) = true := by
  decide +kernel

/-! ### Transactions -/

theorem test_witness_transactions :
    (pktRuns 0x0201 h7 [] State.reset = true ∧ h7.txn % 2 ^ 32 ≠ 0 ∧ h7.txn % 2 ^ 32 ≠ fwId ∧
      findTxn (atFetch 0x0201 h7 [] State.reset) 7 = none ∧ heldCount (atFetch 0x0201 h7 [] State.reset) < 64) ∧
    ([0, 1, 2].all fun mode =>
      let p := bytesOfWords [mode, 5, 0, 9]
      let w := wordsOf p
      let s := withTxns [open7]
      pktRuns 0x0202 h7 p s == true && p.length == 16 && fld (wAt w 0) 31 2 == 0 && fld (wAt w 0) 1 0 == mode.toNat &&
        findTxn (atFetch 0x0202 h7 p s) 7 == some open7) = true ∧
    ([TxnPhase.open_, .failed, .accepted, .admitted, .refused].all fun ph =>
      let T : Txn := { open7 with phase := ph }
      let s := withTxns [T]
      pktRuns 0x0203 h7 [] s == true && findTxn (atFetch 0x0203 h7 [] s) 7 == some T &&
        (pktRuns 0x0204 h7 [] s == true && findTxn (atFetch 0x0204 h7 [] s) 7 == some T)) = true ∧
    (let p := bytesOfWords [2, 5, 0, 9]
     passBlocked (atFetch 0x0202 h7 p ((withTxns [open7]).setBit R.pwrStatus 3 true)) = true) := by
  decide +kernel

theorem test_witness_transaction_timers :
    (let s := withTxns [{ open7 with phase := .failed }]
     findTxn s 7 = some { open7 with phase := .failed } ∧ s.dueOk (0 + s.field R.cmdTxnIdle 15 0 * 1250000) = true) ∧
    (let s := withFetched [aFetched 3]
     s.cmd.fetched.find? (fun f => f.num == 3 && !f.dead && decide (f.reply.cq < 32)) = some (aFetched 3) ∧ s.dueOk 5 = true) ∧
    (let f := { aFetched 3 with dead := true, cpl := some {} }
     nextPost (withFetched [f]).cmd.fetched = some f ∧ f.dead = true) ∧
    (let f := { aFetched 3 with cpl := some {}, reply := { cq := 31 } }
     nextPost (withFetched [aFetched 2, f]).cmd.fetched = some f ∧ f.dead = false ∧ f.cpl = some {} ∧ f.reply.cq < 32) ∧
    (let T : Txn := { num := 0, id := fwId, fw := true, packets := [{ op := 0x0104, payload := [] }] }
     fwOpen (withTxns [T]) = some T ∧ T.packets ≠ []) := by
  decide +kernel

/-! ### Rings -/

/-- Reset with submission ring 31 (16 slots) and completion ring 31 (32 entries) enabled, bound to each other. -/
def ringsUp : State := withRegs [(cqReg 31 8, 0x501), (sqReg 31 8, 0x1F0401), (sqReg 31 0x10, 3)]

theorem test_witness_rings :
    (ringEn ringsUp false 31 = true ∧ (15 : Word).toNat % 4096 < ringSize ringsUp false 31 ∧
      (15 : Word).toNat % 4096 ≠ ringTail ringsUp false 31) ∧
    ringSize ringsUp false 31 ≤ (16 : Word).toNat % 4096 ∧
    ringEn State.reset false 31 = false ∧
    (let s := ringsUp.setReg (cqReg 31 0x10) 2
     ringEn s true 31 = true ∧ (2 : Word).toNat % 4096 < ringSize s true 31 ∧
     ((2 : Word).toNat % 4096 + ringSize s true 31 - ringHead s true 31) % ringSize s true 31 ≤ ringUsed s true 31) ∧
    (ringEn ringsUp true 31 = true ∧ ringSize ringsUp true 31 ≤ (32 : Word).toNat % 4096) ∧
    ([true, false].all fun isCq =>
      let val : Word := if isCq then 0xC01 else 0x1F0401
      let s := withRegs [(R.pwrStatus, 0x500000), (cqReg 31 8, if isCq then 0 else 0x501)]
      ringEn s isCq 31 == false && bit val 0 == true && ringOk s isCq 31 val == true) = true ∧
    (ringEn State.reset false 31 = false ∧ bit (0x1F0401 : Word) 0 = true ∧ ringOk State.reset false 31 0x1F0401 = false) ∧
    (ringEn ringsUp true 31 = true ∧ bit (0 : Word) 0 = false ∧ (cqSt ringsUp 31).resv = 0) ∧
    (let s := ringsUp.setCq 31 { resv := 1 }
     ringEn s true 31 = true ∧ (cqSt s 31).resv ≠ 0) := by
  decide +kernel

/-! ### Network path -/

/-- The key of the path, and a state with the path on port 3, ring 0, VLAN 9 and session 2. -/
def netKey : Vector Word 8 := Vector.ofFn fun i => BitVec.ofNat 32 (0x01020304 * (i.val + 1))

def netUp : State :=
  let s := withRegs [(R.cmdNetCtrl, 0x08009001), (R.cmdNetSession, 2), (R.cmdNetSeq, 4)]
  { s with
    cmd := { s.cmd with key := netKey }
    cm := { s.cm with rwe := tabSet s.cm.rwe (R.netCtrlIp + 0x180) 0x0A000001 } }

/-- A datagram that carries an OP_NOP of session `ses` with sequence number `seq` and tag `tag`. -/
def aDgram (ses seq : Nat) (tag : List Byte) : Dgram :=
  { port := 3
    vlan := 9
    srcIp := 0x0A000002
    dstIp := 0x0A000001
    srcUdp := 4000
    dstUdp := 7474
    udpLen := 48
    payload := leBytes 4 ses ++ leBytes 4 seq ++ bytesOfWords [0x01010001, 0, 0, 0] ++ tag }

/-- Tags made outside: the first 16 bytes of HMAC-SHA-256 under the key. -/
def tagIn : List Byte := [0x5D, 0x55, 0x4F, 0x2D, 0x21, 0x82, 0x5B, 0xF5, 0x2F, 0xA0, 0x99, 0x30, 0xE7, 0x3F, 0x5F, 0x96]
def tagHello : List Byte := [0x88, 0xA5, 0x96, 0x7F, 0xFB, 0x91, 0x4C, 0xB8, 0x51, 0x79, 0x33, 0x2B, 0x58, 0x56, 0xC2, 0xF5]

/-- The tag of a datagram's bytes under the key of the path. -/
def tagOk (d : Dgram) : Bool := (d.payload.drop 24).take 16 == (hmac (bytesOfWords netKey.toList) (d.payload.take 24)).take 16

theorem test_witness_net_path :
    (bit (0x08009001 : Word) 0 = true ∧ netKeyZero netUp = false ∧ netKeyZero State.reset = true) ∧
    (let d := aDgram 2 5 tagIn
     onNetPath netUp d = true ∧ d.ok = true ∧ leNat ((d.payload.drop 14).take 2) = 0 ∧ d.udpLen = 48 ∧ d.payload.length = 40 ∧
     tagOk d = true ∧ leNat (d.payload.take 4) = netUp.regNat R.cmdNetSession ∧
     netUp.regNat R.cmdNetSeq < leNat ((d.payload.drop 4).take 4)) ∧
    (let d := { aDgram 2 5 tagIn with udpLen := 49 }
     onNetPath netUp d = true ∧ d.udpLen ≠ 48) ∧
    (let d := aDgram 2 6 tagIn
     onNetPath netUp d = true ∧ d.payload.length = 40 ∧ tagOk d = false) ∧
    (let d := aDgram 2 5 tagIn
     let s := netUp.setReg R.cmdNetSeq 5
     onNetPath s d = true ∧ leNat ((d.payload.drop 4).take 4) ≤ s.regNat R.cmdNetSeq) ∧
    (let d := aDgram 0 7 tagHello
     onNetPath netUp d = true ∧ d.payload.length = 40 ∧ tagOk d = true ∧ leNat (d.payload.take 4) = 0 ∧
     leNat (((d.payload.drop 8).drop 2).take 2) = 0x0101) := by
  decide +kernel

/-! ### Fetching -/

theorem test_witness_fetch :
    (ringsUp.dieRuns = true ∧ nextRing ringsUp = some 31 ∧ ringLoc ringsUp false 31 = false) ∧
    (let b := bytesOfWords [0x01010001, 0x01000000, 0, 0]
     packetSlots (fld (wAt (wordsOf (b.take 16)) 1) 31 16) > ringUsed ringsUp false 31) ∧
    (let b := bytesOfWords [0x01010001, 0, 0, 0]
     let s := { ringsUp with cmd := { ringsUp.cmd with slots := 0x1000 } }
     let slots := packetSlots (fld (wAt (wordsOf (b.take 16)) 1) 31 16)
     nextRing s = some 31 ∧ b ≠ [] ∧ slots ≤ ringUsed s false 31 ∧ s.cmd.slots ≠ 0 ∧
     s.field R.cmdFetchBudget 12 0 < s.cmd.slots + slots) ∧
    (let b := bytesOfWords [0x01010002, 0x00007FFF, 0, 0]
     let w := wordsOf (b.take 16)
     nextRing ringsUp = some 31 ∧ b ≠ [] ∧ packetSlots (fld (wAt w 1) 31 16) ≤ ringUsed ringsUp false 31 ∧ ringsUp.cmd.slots = 0 ∧
     fld (wAt w 0) 7 0 ≠ 1 ∧ bit (wAt w 0) 8 = false ∧ ringEn ringsUp true (boundCq ringsUp 31) = true ∧
     2 ≤ cqFree ringsUp (boundCq ringsUp 31)) := by
  decide +kernel

/-! ### Effect cores -/

/-- Reset with core 15 as given, 4,096 issue cycles declared. -/
def core15 (e : EcCore) : State :=
  let s := State.reset.setEc 15 e
  { s with cm := { s.cm with rwe := tabSet s.cm.rwe (ecReg 15 0x14) 4096 } }

/-- The core at its last program word but two, with nothing else set. -/
def at8189 : EcCore := { mode := .running, pc := 8189 }

/-- Moves and updates that use what there is: a store and a load, both pointers updated. -/
def qFull : Par := { m0 := .st 15 7, m1 := .sta 3 4 6, u0 := .upd 7 3, u1 := .upd 0 0 }

theorem test_witness_ec_ready :
    (pReady 15 {} (core15 at8189) = true ∧ pReady 15 qFull (core15 at8189) = true ∧ xReady 15 (core15 at8189) = true) ∧
    pReady 15 { m0 := .ld 15 7, m1 := .none, u0 := .none, u1 := .none } (core15 at8189) = true ∧
    (pReady 0 qFull (State.reset.setEc 0 { mode := .handler }) = true ∧ xReady 0 (State.reset.setEc 0 { mode := .handler }) = true) ∧
    (cReady 15 1 (core15 at8189) = true ∧ flowReady 15 1 (core15 at8189) = true ∧ flowReady 15 3 (core15 at8189) = true) ∧
    (let e := { at8189 with z := true }
     (ecAt 15 (core15 e)).cond 1 = true ∨ (ecAt 15 (core15 e)).cond 1 = false) := by
  decide +kernel

theorem test_witness_ec_moves :
    (let s := core15 { at8189 with p := Vector.replicate 8 0x7FFF }
     (ecAt 15 s).covered ((ecAt 15 s).pr 7) = false ∧ storesAt { m0 := .none } (ecAt 15 s) ((ecAt 15 s).pr 7) = false ∧
     updates { u0 := .none } 7 = false) := by
  decide +kernel

theorem test_witness_ec_flow :
    (let s := core15 at8189
     flowReady 15 1 s = true ∧ (ecAt 15 s).cond 0 = true ∧ (ecAt 15 s).stack.length < 8) ∧
    (let s := core15 at8189
     (ecAt 15 s).cond 1 = false) ∧
    (let s := core15 { at8189 with stack := [77] }
     flowReady 15 1 s = true ∧ (ecAt 15 s).cond 0 = true ∧ (ecAt 15 s).stack = [77]) ∧
    (let s := core15 at8189
     flowReady 15 2 s = true ∧ cntVal (ecAt 15 s) (.imm 4096) = 4096 ∧ cntVal (ecAt 15 s) (.imm 0) = 0 ∧ (ecAt 15 s).loops = []) ∧
    (let s := core15 { at8189 with pc := 10 }
     flowReady 15 1 s = true ∧ cntVal (ecAt 15 s) (.imm 65535) % 65536 ≠ 0 ∧ ecBodyOk (ecAt 15 s) 11 12 = true ∧
     (ecAt 15 s).loops.length < 2) ∧
    (let s := core15 { at8189 with pc := 10 }
     flowReady 15 3 s = true ∧ cntVal (ecAt 15 s) (.imm 65536) % 65536 = 0 ∧ ecBodyOk (ecAt 15 s) 11 12 = true ∧
     (ecAt 15 s).loops = []) := by
  decide +kernel

/-- A move of one line from word 8 to the first line of bank 1, under way. -/
def xOut : EcXfer := { out := true, cis := 0x10080000, loc := 8, lines := 1 }

theorem test_witness_ec_transfers :
    (let s := core15 { at8189 with d := Vector.replicate 16 0x10000020, p := Vector.replicate 8 0x10 }
     let c := ecAt 15 s
     cReady 15 1 s = true ∧ c.queue.length < 4 ∧ (c.dr 3).toNat % 32 = 0 ∧ c.pr 2 % 8 = 0 ∧ c.pr 2 + 8 * 4094 ≤ 0x8000) ∧
    (cReady 15 1 (core15 at8189) = true ∧ (ecAt 15 (core15 at8189)).queue = []) ∧
    (let s := core15 { at8189 with queue := [xOut] }
     cReady 15 1 s = true ∧ (ecAt 15 s).queue ≠ []) ∧
    (let s := core15 { at8189 with waiting := true }
     (s.ec 15).active = true ∧ (s.ec 15).waiting = true ∧ (s.ec 15).queue = [] ∧ (s.ec 15).rep = none) ∧
    (let s := (core15 { at8189 with queue := [xOut] }).setReg (R.cisBankOwn + 4) 0x1F
     (s.ec 15).queue = xOut :: [] ∧ reaches s (0x10 + 15) ((xOut.cis - 0x10000000) / 0x80000) = true ∧ memWf s.cis.mem = true) := by
  decide +kernel

theorem test_witness_ec_ends :
    (let s := core15 at8189
     flowReady 15 1 s = true ∧ (s.ec 15).mode = .running ∧ ecUp 15 s = true ∧ ecFits 15 1 s = true ∧ (s.ec 15).waiting = false) ∧
    (let s := core15 { at8189 with stack := List.replicate 8 1 }
     flowReady 15 1 s = true ∧ (ecAt 15 s).cond 0 = true ∧ (ecAt 15 s).stack.length = 8) ∧
    (let s := core15 { at8189 with issue := 4096 }
     (ecEnvOf s 15).decl < (s.ec 15).issue + ecNextCost (s.ec 15)) ∧
    (let s := (core15 at8189).setBit R.timState 10 true
     s.tickRuns = true ∧ (s.ec 15).mode = .running) ∧
    (let s := core15 { at8189 with stopDue := some 1 }
     (s.ec 15).stopDue = some 1 ∧ 1 ≤ s.tick + 1 ∧ (s.ec 15).stopAt = none) ∧
    (let s := ((core15 at8189).setReg (ecReg 15 0x18) 100).setReg (irqCfg 479) 0x80140100
     let s := { s.setPend 479 true with irq := { s.irq with rel := [479] } }
     ecOpen (s.ec 15) = true ∧ (s.ec 15).quota < s.field (ecReg 15 0x18) 15 0 ∧ irqCandidate s 20 (fun _ => true) = some 479) ∧
    (let v : EcSave := { pc := 5, status := 0, dec := 0, loops := [], halted := true }
     let s := core15 { at8189 with mode := .handler, save := some v }
     ecUp 15 s = true ∧ (s.ec 15).rep = none ∧ (s.ec 15).mode = .handler ∧ (s.ec 15).save = some v) ∧
    (State.reset.ec 15).queue = [] := by
  decide +kernel

/-! ### Registers -/

theorem test_witness_register_writes :
    ([(0x000040, Acc.rw), (0x00002C, Acc.w1c), (0x000000, Acc.ro), (0x010810, Acc.rwe)].all fun e =>
      e.1 % 4 == 0 && !inMsix e.1 && !hostUnmapped e.1 && (match rowAt e.1 with
        | some r => r.acc == e.2
        | none => false) && (pokeSpecial e.1 0xFFFFFFFF State.reset).isNone) = true ∧
    (State.reset.dieRuns = true ∧ isFollower State.reset = false ∧ State.reset.cmd.rwe.length < 4096 ∧ isRwe 0x010810 = true) ∧
    ((0xE : Nat) % 16 ≠ 15 ∧ hostUnmapped 0x12FFFC = false) ∧
    (hostUnmapped 0x130000 = true ∧ inMsix 0x130000 = false ∧ hostUnmapped 0x118FFC = true) ∧
    (let s := { State.reset with cmd := { State.reset.cmd with rwe := List.replicate 4096 (0x010810, 0, 0) } }
     isFollower s = false ∧ 4096 ≤ s.cmd.rwe.length) ∧
    (isFollower follows = true ∧ follows.dieRuns = true ∧ 0x010810 / 2 ^ 16 ≠ 0xB) ∧
    ((1 : Word).toNat.testBit 0 = true ∧ (2 : Word).toNat.testBit 0 = false ∧ (cntClears R.geoCntClr).isSome = true) := by
  decide +kernel

theorem test_witness_register_reads :
    ([0x10000, 0x000000].all fun a => !hostUnmapped a && (claimTarget a).isNone && (claimVec a).isNone && a != R.timNowLo && capPart a == 0 &&
      !isCompanion a && !latching a) = true ∧
    (hostUnmapped 0x0AF030 = false ∧ claimTarget 0x0AF030 = none ∧ claimVec 0x0AF030 = none ∧ 0x0AF030 ≠ R.timNowLo ∧
      capPart 0x0AF030 = 0 ∧ isCompanion 0x0AF030 = false ∧ latching 0x0AF030 = true) ∧
    (isCompanion 0x0AF034 = true ∧ capPart 0x0AF034 ≠ 1 ∧ claimTarget 0x0AF034 = none ∧ claimVec 0x0AF034 = none) ∧
    State.reset.caps 15 = [] ∧
    (let s := { State.reset with tim := { State.reset.tim with caps := [(15, [{ t4 := 9, falling := true }])] } }
     s.caps 15 = [{ t4 := 9, falling := true }]) := by
  decide +kernel

theorem test_witness_smbus :
    State.reset.pwr.retained = true ∧
    (let s := { State.reset with pwr := { State.reset.pwr with reset := .held } }
     s.dieRuns = false ∧ s.pwr.retained = true) ∧
    (bootStage State.reset ≠ 1 ∧ bootStage State.reset ≠ 2) := by
  decide +kernel

/-! ### Interrupts -/

/-- Reset with sources 40 and 479 enabled, pending and released; 479 at a target, the other at the host. -/
def asks (tgt : Word) : State :=
  let s := withRegs [(irqCfg 479, 0x80000101 ||| (tgt <<< 16)), (irqCfg 40, 0x80000000)]
  let s := (s.setPend 479 true).setPend 40 true
  { s with irq := { s.irq with rel := [40, 479] } }

theorem test_witness_irq_messages :
    (let s := with1 (irqCfg 479) 0x80000000
     (479 : Word).toNat % 512 < 480 ∧ s.isPend 479 = false ∧ s.srcEn 479 = true) ∧
    State.reset.srcEn 479 = false ∧ (asks 20).isPend 479 = true ∧ 480 ≤ (480 : Word).toNat % 512 := by
  decide +kernel

/-- The sources other than 40 and 479 are not pending in `asks`. -/
theorem asks_pending (tgt : Word) (ht : tgt = 0 ∨ tgt = 4) :
    (List.range 512).all (fun y => y == 40 || y == 479 || !deliverable (asks tgt) tgt.toNat y) = true := by
  rcases ht with rfl | rfl <;> decide +kernel

theorem test_witness_irq_candidate : Candidate (asks 4) 4 (fun _ => true) 479 ∧
    Candidate (asks 0) 0 (fun y => irqVec (asks 0) y == 1) 479 := by
  constructor
  · refine ⟨by decide +kernel, fun y hy => Or.inr ?_⟩
    have h := List.all_eq_true.mp (asks_pending 4 (Or.inr rfl)) y (List.mem_range.mpr hy.1)
    have h40 : deliverable (asks 4) 4 40 = false := by decide +kernel
    by_cases e1 : y = 40
    · subst e1; exact absurd (h40.symm.trans hy.2.1) (by decide)
    · by_cases e2 : y = 479
      · subst e2; exact ⟨rfl, Nat.le_refl _⟩
      · have h2 : deliverable (asks 4) 4 y = false := by simpa [e1, e2] using h
        exact absurd (h2.symm.trans hy.2.1) (by decide)
  · refine ⟨by decide +kernel, fun y hy => Or.inr ?_⟩
    have h := List.all_eq_true.mp (asks_pending 0 (Or.inl rfl)) y (List.mem_range.mpr hy.1)
    by_cases e1 : y = 40
    · exact absurd ⟨e1, rfl⟩ hy.2.2.2
    · by_cases e2 : y = 479
      · subst e2; exact ⟨rfl, Nat.le_refl _⟩
      · have h2 : deliverable (asks 0) 0 y = false := by simpa [e1, e2] using h
        exact absurd (h2.symm.trans hy.2.1) (by decide)

theorem test_witness_irq_none : NoCandidate State.reset 4 (fun _ => true) ∧
    NoCandidate State.reset 0 (fun y => irqVec State.reset y == 31) := by
  have h : (List.range 512).all (fun y => !deliverable State.reset 4 y && !deliverable State.reset 0 y) = true := by decide +kernel
  have g := List.all_eq_true.mp h
  constructor <;> intro y hy _ _ <;> have := g y (List.mem_range.mpr hy) <;> simp_all

/-- Reset with sources on target 20's stack, and its bottom `n` entries frozen. -/
def served20 (st : List (Nat × Nat)) (fr : List (Nat × Nat × Nat)) : State :=
  { State.reset with irq := { State.reset.irq with inServ := [(20, st)], frozen := fr } }

theorem test_witness_irq_complete :
    (let s := served20 [(479, 1), (7, 0)] []
     irqStack s 20 = (479, 1) :: [(7, 0)] ∧ tabGet s.irq.frozen 20 = none ∧ (0x5DF : Word).toNat % 1024 = 479 ∧
     (0xFFF : Word).toNat % 1024 = 1023 ∧ (7 : Word).toNat % 1024 ≠ 479) ∧
    (irqStack State.reset 20 = [] ∧ (0 : Word).toNat % 1024 ≠ 1023) ∧
    (let s := served20 [(9, 2), (479, 1), (7, 0)] [(20, 1, 2)]
     tabGet s.irq.frozen 20 = some (1, 2) ∧ 2 ≤ (irqStack s 20).length ∧
     (479, 1) ∈ (irqStack s 20).drop ((irqStack s 20).length - 2) ∧
     (∀ y ∈ (irqStack s 20).take ((irqStack s 20).length - 2), y.1 ≠ 479) ∧
     irqStack s 20 = (9, 2) :: [(479, 1), (7, 0)] ∧ 2 ≤ [(479, 1), (7, 0)].length ∧
     (∀ y ∈ (irqStack s 20).drop (2 + 1 - 2), y.1 ≠ 8) ∧ irqPrio s 300 ≤ 1) := by
  decide +kernel

theorem test_witness_irq_timers :
    (let s := { State.reset with irq := { State.reset.irq with hold := [(14, .clk 9), (15, .tick 0)] } }
     tabGet s.irq.hold 14 = some (.clk 9) ∧ s.dueOk 9 = true ∧ tabGet s.irq.hold 15 = some (.tick 0) ∧ 0 ≤ s.tick) ∧
    (with1 R.irqStatus 1).linkUp = true ∧
    (State.reset.irq.downAt = some 0 ∧ State.reset.linkUp = false ∧ State.reset.fallbackAct = false ∧
      State.reset.dueOk (0 + State.reset.field R.irqHostFallbackMs 15 0 * 1250000) = true) := by
  decide +kernel

/-! ### Cistern and bus matrix -/

theorem test_witness_bank_handover :
    (bankRegion State.reset.mapCm 239 ≠ 4 ∧ bankRegion State.reset.mapCm 255 = 4) ∧
    (let s := with1 (R.cisBankOwn + 4 * 255) 0x80000000
     ownerOk ((8 : Word).toNat % 32) = true ∧ bankPending s 255 = true ∧ bankPending State.reset 255 = false ∧
     bankOwner State.reset 255 = 0 ∧ ownerOk ((0 : Word).toNat % 32) = true ∧ bankBusy s 255 = false) ∧
    (let e : EcCore := { queue := [{ xOut with cis := 0x17F80000, inFlight := true }] }
     let s := (State.reset.setEc 0 e).setReg (R.cisBankOwn + 4 * 255) 0x80080010
     let s := { s with cis := { s.cis with drains := [(255, 5)] } }
     bankPending s 255 = true ∧ bankBusy s 255 = true ∧ tabGet s.cis.drains 255 = some 5 ∧ s.dueOk 5 = true) ∧
    (let e : EcCore := { queue := [{ xOut with cis := 0x17F80000 }] }
     let s := (State.reset.setEc 0 e).setReg (R.cisBankOwn + 4 * 255) 0x10
     let v := markInFlight ((s.setField (R.cisBankOwn + 4 * 255) 20 16 8).setBit (R.cisBankOwn + 4 * 255) 31 true) 255
     bankBusy v 255 = true) ∧
    (let v := markInFlight ((State.reset.setField (R.cisBankOwn + 4 * 255) 20 16 8).setBit (R.cisBankOwn + 4 * 255) 31 true) 255
     bankBusy v 255 = false) ∧
    ownerOk ((2 : Word).toNat % 32) = false ∧ State.reset.cis.waits = [] := by
  decide +kernel

/-- Reset with bank 255 the host's. -/
def hostBank : State := with1 (R.cisBankOwn + 4 * 255) 5

theorem test_witness_windows :
    (MemWf hostBank ∧ inOneBank 0x7FFFFFE 2 = true ∧ bankOf 0x7FFFFFE = 255 ∧ reaches hostBank 5 255 = true ∧
      hostBank.cis.upsets = [] ∧ bankLine hostBank 255 = false ∧ bankOwner State.reset 255 ≠ 5 ∧
      State.reset.cis.clearing.contains 255 = false ∧ bankPending State.reset 255 = false) ∧
    (0x8000000 : Nat) < 0x7FFFFFF + 2 ∧
    (let s := { State.reset with cis := { State.reset.cis with clearing := [255] } }
     s.cis.clearing.contains 255 = true ∧ s.cis.clearing ≠ [] ∧ s.dueOk (s.tickClk + 16384) = true) := by
  unfold MemWf
  decide +kernel

/-- A write of effect core 15 to the last word of bank 255, presented at its port. -/
def aWrite : BusTxn :=
  { master := 19
    id := 31
    addr := 0x17FFFFFC
    write := true
    len := 4
    data := [1, 2, 3, 4] }

def atPort (t : BusTxn) (port : Nat) (s : State) : State := { s with cis := { s.cis with bus := [presented 3 t port 0] } }

theorem test_witness_bus :
    (let t : BusTxn := { master := 24, id := 33, addr := 0x17FFFFFC }
     State.reset.cis.bus = [] ∧ isAlias State.reset t.addr = false ∧ portFor State.reset { t with id := t.id % 32 } < 21) ∧
    (let t : BusTxn := { master := 24, addr := 0x70000000 }
     isAlias State.reset t.addr = false ∧ portFor State.reset { t with id := t.id % 32 } = 99) ∧
    (let s := atPort aWrite 15 (with1 (R.cisBankOwn + 4 * 255) 0x1F)
     s.dieRuns = true ∧ (busWinner s 15).isSome = true ∧ s.cis.bus = [presented 3 aWrite 15 0] ∧ s.clk < 0 + 128 ∧ aWrite.len = aWrite.data.length ∧
     aWrite.addr / 0x8000000 = 2 ∧ inOneBank (aWrite.addr % 0x8000000) 4 = true ∧
     masterOwner aWrite.master = some 0x1F ∧ reaches s 0x1F (bankOf (aWrite.addr % 0x8000000)) = true ∧
     busQos s (presented 3 aWrite 15 0) = agedQos s (presented 3 aWrite 15 0) ∧ memWf s.cis.mem = true) ∧
    (let s := atPort aWrite 15 State.reset
     masterOwner aWrite.master ≠ some (bankOwner s (bankOf (aWrite.addr % 0x8000000))) ∧
     bankPending s (bankOf (aWrite.addr % 0x8000000)) = false ∧ s.cis.clearing = []) ∧
    (let t : BusTxn := { master := 20, addr := 0x100000000, write := true, data := [1, 2, 3, 4] }
     (atPort t 20 State.reset).cis.bus = [presented 3 t 20 0] ∧ t.write = true) := by
  decide +kernel

theorem test_witness_ec_memory :
    (let addr := 0x30F5FFFC
     addr / 0x100000 % 16 = 15 ∧ addr % 4 = 0 ∧ 0x40000 ≤ addr % 0x100000 ∧ addr % 0x100000 < 0x60000 ∧
     (State.reset.ec 15).active = false ∧ ((core15 at8189).ec 15).active = true) ∧
    (0x30F0FFFC % 0x100000 < 0x10000 ∧ 0x30F0FFFC % 4 = 0) := by
  decide +kernel

theorem test_witness_cistern_form : MemWf hostBank := by
  unfold MemWf
  decide +kernel

/-! ### Network -/

/-- `s` with committed registers. -/
def withCm (l : List (Nat × Word)) (s : State) : State :=
  { s with cm := l.foldl (fun c e => { c with rwe := tabSet c.rwe e.1 e.2 }) s.cm }

/-- Reset with port 3 up and enabled, VLAN 5. -/
def port3 : State := withCm [(portReg 3 0, 1), (portReg 3 0x1C, 5), (portReg 3 0x20, 1522)] (with1 (portReg 3 0x40) 1)

/-- A frame of `n` octets with the given 16-bit words after its addresses. -/
def aFrame (n : Nat) (w : List Nat) : List Byte :=
  let h := List.replicate 12 0 ++ w.flatMap fun x => beBytes 2 x
  h ++ List.replicate (n - h.length) 0

theorem test_witness_frames :
    ((portUp port3 3 && portEn port3 3) = true ∧ (portUp State.reset 3 && portEn State.reset 3) = false ∧ portMax port3 3 = 1522) ∧
    ((aFrame 59 []).length + 4 < 64 ∧ portMax port3 3 < (aFrame 1519 []).length + 4 ∧ (aFrame 1518 []).length + 4 ≤ portMax port3 3) ∧
    (64 ≤ (aFrame 60 []).length + 4 ∧ untag (aFrame 60 [0x88A8]) = none) ∧
    ((untag (aFrame 60 [0x8100, 0x2006, 0x0800])).any (fun x => !vlanOk port3 3 x.2.1) = true) ∧
    ((untag (aFrame 60 [0x8100, 0x2005, 0x1234])).any (fun x => vlanOk port3 3 x.2.1 && x.2.2.1 == 0x1234) = true) ∧
    (beNat (((aFrame 60 [0x8808, 1]).drop 12).take 2) = 0x8808 ∧ beNat (((aFrame 60 [0x8808, 1]).drop 14).take 2) = 1) ∧
    (let f := aFrame 60 [0x8808, 0x0101, 0x80, 0, 0, 0, 0, 0, 0, 0, 0xFFFF]
     beNat ((f.drop 14).take 2) = 0x0101 ∧ beNat ((f.drop 16).take 2) = 2 ^ 7 ∧ (fld (portPfc port3 3) 7 0).testBit 7 = false ∧
     beNat ((f.drop (18 + 2 * 7)).take 2) ≠ 0) ∧
    (let s := port3.setNp 3 { paused := [(7, 9)], rxq := [(6, 0x2001)], pfc := [(6, 8)], queues := [(5, [aFrame 60 []])] }
     tabGet (s.np 3).paused 7 = some 9 ∧ s.dueOk 9 = true ∧ tabGet (s.np 3).pfc 6 = some 8 ∧
     fwqLow < tabGetD (s.np 3).rxq 6 0 ∧ tabGetD (s.np 3).rxq 6 0 - 2 < fwqLow ∧ txClass (s.np 3) = some 5 ∧
     tabGetD (s.np 3).queues 5 [] = aFrame 60 [] :: [] ∧ s.cmd.netOut = []) ∧
    (tabGet (State.reset.np 3).paused 7 = none ∧ tabGet (State.reset.np 3).pfc 7 = none) ∧
    (State.reset.bit (portReg 3 0x40) 0 ≠ true ∧ portEn port3 3 = true ∧ port3.bit (portReg 3 0x40) 0 ≠ false) := by
  decide +kernel

/-! ### Time -/

/-- Reset as a PTP slave on port 3, its master heard; and as a server of time on port 3. -/
def slave : State :=
  let s := withCm [(R.timPtpCfg, 1), (R.timPtpCfg + 8, 8), (portReg 3 0, 1)] (with1 (portReg 3 0x40) 1)
  { s with tim := { s.tim with masters := [(3, ({ port := 3, srcId := 9, srcPort := 1, prio1 := 128 }, 1000))] } }

def serves : State :=
  withCm [(R.timPtpCfg, 0), (R.timPtpCfg + 8, 8), (portReg 3 0, 1)] (withRegs [(portReg 3 0x40, 1), (R.timState, 0x4000)])

/-- Reset with the PPS and 10 MHz inputs as references, the time in state `st`. -/
def onRef (st : Word) : State := withCm [(R.timPtpCfg, 2), (R.timRefCfg, 0x0A0A0001)] (withRegs [(R.timState, st), (R.timRefStatus, 3)])

/-- A message of the master, and one of another. -/
def fromIt : PtpMsg := { port := 3, srcId := 9, srcPort := 1, seq := 65535 }

theorem test_witness_ptp :
    (fromMaster State.reset fromIt = false ∧ fromMaster slave { fromIt with twoStep := true } = true) ∧
    (fromMaster slave { fromIt with twoStep := false } = true ∧ slave.tim.follow = none) ∧
    (let s := { slave with tim := { slave.tim with follow := some (3, 65535, 9 * 65536 + 1, 7) } }
     s.tim.follow = some (fromIt.port, fromIt.seq, fromIt.srcId * 65536 + fromIt.srcPort, 7) ∧ fromMaster s fromIt = true) ∧
    (servesTime serves 3 = true ∧ fromIt.domain = ptpDomain serves.mapCm ∧ servesTime State.reset 3 = false) ∧
    (let s := { slave with tim := { slave.tim with dreq := some (3, 65535, 7), syncD := some 5 } }
     let m := { fromIt with reqId := clockId s, reqPort := 4 }
     s.tim.dreq = some (m.port, m.seq, 7) ∧ s.tim.syncD = some 5 ∧ fromMaster s m = true ∧ m.reqId = clockId s ∧
     m.reqPort = m.port + 1 ∧ s.tim.path = []) ∧
    (let m := { fromIt with srcId := 8, prio1 := 1 }
     (ptpPortEn slave m.port && m.domain == ptpDomain slave.mapCm && portUp slave m.port) = true ∧ timSource slave = 1 ∧
     (tabGet slave.tim.masters m.port).any (fun q => ptpBetter m q.1) = true) ∧
    (timSource follows = 3 ∧ bestMaster slave = some (3, { port := 3, srcId := 9, srcPort := 1, prio1 := 128 }) ∧
      portUp slave 3 = true ∧ bestMaster State.reset = none) ∧
    ((tabGet slave.tim.masters 3).any (fun q => slave.dueOk (q.2 + 1)) = true ∧ tabGet State.reset.tim.masters 3 = none) ∧
    (let s := { slave with tim := { slave.tim with syncDue := some 4 } }
     s.tim.syncDue = some 4 ∧ timSource s = 1 ∧ s.dueOk 5 = true ∧ State.reset.tim.syncDue = none) := by
  decide +kernel

theorem test_witness_references :
    (true ≠ bit (refCfg (onRef 2).mapCm 0) 10 ∧ refUsed State.reset true = false) ∧
    (let s := { onRef 3 with tim := { (onRef 3).tim with ppsSec := some 5, ppsBad := 2 } }
     s.tim.ppsSec = some 5 ∧ refUsed s true = true ∧ 2 ≤ tSt s ∧ tSt s ≤ 3 ∧ s.tim.ppsBad = 2 ∧
     s.dueOk (s.clkOf (((5 + 1) * q4 + (ppsWin s).toNat) * 320) + 1) = true ∧ State.reset.tim.ppsSec = none) ∧
    (timSource State.reset ≠ 2 ∧ refUsed (onRef 2) false = true ∧ (onRef 2).bit R.timRefStatus 1 = true ∧ tSt (onRef 2) = 2 ∧
      absLe 0x7FFFFFFF (fld (refCfg (onRef 2).mapCm 0) 23 16 * 25600 : Nat) = false) ∧
    ((onRef 3).bit R.timRefStatus 0 = true ∧ tSt (onRef 3) = 3 ∧ State.reset.bit R.timRefStatus 0 = false) ∧
    (let s := with1 R.timRefStatus 0x100
     let s := { s with tim := { s.tim with wclkLast := some 0 } }
     s.tim.wclkLast = some 0 ∧ s.bit R.timRefStatus 8 = true ∧ s.dueOk (s.clkOf ((0 + 4 * q4 / s.fs) * 320) + 1) = true ∧
     State.reset.tim.wclkLast = none) ∧
    ((onRef 3).dueOk ((onRef 3).tim.holdAt + 75000000000) = true ∧ tSt State.reset ≠ 3) ∧
    (let s := withRegs [(R.timCtrl, 1), (R.timIncrHi, 0xCC)]
     let v := (0xCCE7A4C0 : Word).toNat + s.field R.timIncrHi 15 0 * 2 ^ 32
     s.bit R.timCtrl 0 = true ∧ 0xCCCCB1F4DA ≤ v ∧ v ≤ 0xCCCCE7A4C0) := by
  decide +kernel

theorem test_witness_triggers :
    (let s := { runs with tim := { runs.tim with trigs := [(15, { mode := 1, t := 100, width := 5, period := 0, high := true })] } }
     (tabGet s.tim.trigs 15).any (fun a => a.mode != 0 && !a.spent && !isLate s 15 a && s.dueOk (trigClk s 15 (trigTime s a a.k))) = true ∧
     s.tickRuns = true) ∧
    (let s := { State.reset with tim := { State.reset.tim with trigs := [(15, { mode := 1, pulseEnd := some 7 })] } }
     (tabGet s.tim.trigs 15).any (fun a => a.pulseEnd == some 7) = true ∧ s.dueOk (s.clkOf (7 * 320)) = true) ∧
    tabGet State.reset.tim.trigs 15 = none ∧
    (let s := { State.reset with tim := { State.reset.tim with inputs := [(15, 1)], caps := [(15, List.replicate 15 { t4 := 0, falling := true })] } }
     tabGet s.tim.inputs 15 = some (b2n true) ∧ tabGet s.tim.lastEdge 15 = none ∧ (s.caps 15).length < 16) ∧
    (let s := { State.reset with tim := { State.reset.tim with inputs := [(15, 2)], caps := [(15, List.replicate 16 { t4 := 0, falling := true })] } }
     tabGet s.tim.inputs 15 = some 2 ∧ tabGet s.tim.lastEdge 15 = none ∧ 16 ≤ (s.caps 15).length) ∧
    tabGet State.reset.tim.inputs 15 = none := by
  decide +kernel

/-! ### Tick, streams and rendering -/

/-- Reset in tick `n`, which runs. -/
def inTick (n : Nat) : State := { runs with tick := n, tickClk := n * 333333, clk := n * 333333 }

theorem test_witness_tick :
    (runs.dieRuns = true ∧ runs.tickRuns = true ∧ State.reset.tickRuns = false ∧ State.reset.tim.restart = false) ∧
    (let s := { runs with clk := 500000 }
     s.cmd.passDone = false ∧ s.dueOk (s.tickClk + 500000) = true ∧ isFollower s = false ∧ dueTxns s (s.tick + 1) = []) ∧
    (let a : Txn := { num := 0, id := 7, phase := .accepted, acc := some 0, mode1 := true, t := 0 }
     let s := { (runs.setBit R.pwrStatus 3 true) with clk := 500000 }
     let s := { s with cmd := { s.cmd with txns := [a] } }
     s.tickRuns = true ∧ s.dueOk (s.tickClk + 500000) = true ∧ isFollower s = false ∧ dueTxns s (s.tick + 1) = [a] ∧ passBlocked s = true) ∧
    (let s := { State.reset with cmd := { State.reset.cmd with passDone := true } }
     s.cmd.passDone = true) ∧
    (let s := inTick 1
     let s := { s with clk := 10000000 }
     s.dieRuns = true ∧ s.tickRuns = true ∧ 1 ≤ s.tick ∧ egressDone s = false ∧
     s.dueOk (sampleClk s (s.tick * s.blockLen + egressSamples s : Nat)).toNat = true) ∧
    (let s := inTick 1
     egressDone { s with smp := { s.smp with outBuf := [(0, [])] } } = true) ∧
    (runs.str.relT < (runs.tick + 1) * runs.blockLen ∧
      (let s := { runs with str := { runs.str with relT := 9999 } }
       (s.tick + 1) * s.blockLen ≤ s.str.relT)) := by
  decide +kernel

/-- A receive stream: one channel of 24 bits, packets of 6 samples, red leg on port 3, playout offset 4 samples. -/
def aDesc : List Word := [0x100, 0, 0x13, 0x0A000001, 0, 5004, 0, 0, 0, 4, 0, 1, 0, 0, 0, 0]

def aStream : RxRt := { descs := [(0, aDesc)], start := 0, w := [32], bursts := [{}] }

def hasStream (r : RxRt) (s : State) : State := s.setRxs 255 [r]

/-- Its packet with sequence number 9 and timestamp `ts`. -/
def aPkt (ts : Nat) (pay : List Byte) : Dgram :=
  { port := 3
    dstIp := 0x0A000001
    dstUdp := 5004
    udpLen := 8 + 12 + pay.length
    payload := [0x80, 0, 0, 9] ++ beBytes 4 ts ++ beBytes 4 77 ++ pay }

def kept (late : Bool) : RxPkt :=
  { seq := 9
    t := 0
    s := 6
    red := true
    blue := false
    samples := []
    pay := []
    late := late }

theorem test_witness_packets_at_deadlines :
    (let r := { aStream with pkts := [kept false] }
     let s := hasStream r State.reset
     rxNewest s 255 s.tick = some r ∧ (cutDue s r 9).any (fun due => s.dueOk due) = true ∧ r.stop = none ∧ r.decided.contains 9 = false ∧
     (inPair s && partnerUp s) = false ∧ r.pkts.find? (fun p => p.seq == 9 && !p.late) = some (kept false)) ∧
    (let r := { aStream with pkts := [kept true] }
     let s := hasStream r State.reset
     (cutDue s r 65535).isSome = true ∧ r.pkts.find? (fun p => p.seq == 65535 && !p.late) = none) ∧
    (let r := { aStream with pkts := [kept false], decided := [9], waits := [9] }
     let s := hasStream r State.reset
     rxNewest s 255 s.tick = some r ∧ r.decided.contains 9 = true ∧ r.waits.contains 9 = true ∧
     r.pkts.find? (fun p => p.seq == 9) = some (kept false) ∧ s.dueOk (sampleClk s ((kept false).t + rxLo r.d0)).toNat = true) ∧
    (let r := { aStream with mMin := -5, mSum := -5, mCnt := 1 }
     let s := hasStream r { runs with tick := 150 }
     s.tick % 150 = 0 ∧ s.str.winTick < s.tick ∧ s.str.rx = [(255, [r])] ∧ r.mCnt ≠ 0 ∧ r.mMin < (s.regNat R.strMarginWarn : Int)) ∧
    (State.reset.tick ≤ State.reset.str.winTick) ∧
    (let b : BurstSt := { muted := true }
     let s := hasStream { aStream with bursts := [b] } State.reset
     let s := { s with str := { s.str with relT := 8194 } }
     burstOf s (255 * 64) = some b ∧ b.want = 0 ∧ b.last + 8193 < s.str.relT) ∧
    (burstOf (hasStream aStream State.reset) (255 * 64) = some {}) ∧
    (let r := { aStream with stop := some 1, w := [0] }
     let s := hasStream r { runs with tick := 2 }
     let s := { s with str := { s.str with relT := 9999 } }
     (s.rxs 255).any (rxFaded s) = true ∧ (State.reset.rxs 255).any (rxFaded State.reset) = false) := by
  decide +kernel

theorem test_witness_stream_packets :
    (let s := hasStream aStream port3
     let d := aPkt 0 (List.replicate 18 1)
     (portUp s 3 && portEn s 3 && d.ok) = true ∧ legMatch s 3 d.srcIp d.dstIp d.dstUdp = some (255, 0, true) ∧
     s.rxAt 255 0 = some aStream ∧ legMatch s 2 d.srcIp d.dstIp d.dstUdp = none ∧
     (portUp State.reset 3 && portEn State.reset 3 && d.ok) = false ∧ (rtpOf d.payload).ver = 2 ∧
     (rtpOf d.payload).pt = fld (wAt aStream.d0 1) 6 0 ∧ 12 ≤ d.payload.length ∧
     (rtpOf d.payload).body.length = descCh aStream.d0 * descS s aStream.d0 * fmtBytes (descFmt aStream.d0) ∧
     (let t := extendTs (sampleNow s) (rtpOf d.payload).ts
      (s.clk : Int) ≤ sampleClk s (cutOff s aStream.d0 t) ∧
      (t + rxLo aStream.d0) * 1280000000000 ≤
        (s.t1280 * s.fs : Int) + (rxBuf s aStream.d0 - descS s aStream.d0 : Nat) * 1280000000000) ∧
     aStream.pkts.find? (fun p => p.seq == (rtpOf d.payload).seq) = none ∧ aStream.ssrc = none) ∧
    (let s := hasStream aStream port3
     (rtpOf (aPkt 0 (List.replicate 17 1)).payload).body.length ≠
       descCh aStream.d0 * descS s aStream.d0 * fmtBytes (descFmt aStream.d0)) ∧
    (let s := { hasStream aStream port3 with clk := 1000000 }
     let t := extendTs (sampleNow s) (rtpOf (aPkt 0 []).payload).ts
     sampleClk s (cutOff s aStream.d0 t) < (s.clk : Int)) ∧
    (let s := hasStream aStream port3
     let t := extendTs (sampleNow s) (rtpOf (aPkt 1000 []).payload).ts
     (s.clk : Int) ≤ sampleClk s (cutOff s aStream.d0 t) ∧
     (s.t1280 * s.fs : Int) + (rxBuf s aStream.d0 - descS s aStream.d0 : Nat) * 1280000000000 <
       (t + rxLo aStream.d0) * 1280000000000) := by
  decide +kernel

/-- Reset with the well of object 1023 born at block 0, and a path of it to output 5 of the given kind. -/
def aLeg (k : LegKind) : Leg := { obj := 1023, out := 5, kind := k, start := 0, len := 3 }

theorem test_witness_render :
    (let s := { State.reset with cm := { State.reset.cm with wells := [(1023, { base := 0, units := 1, birth := 0 })] } }
     tabGet (s.cmAt s.tick).wells 1023 = some { base := 0, units := 1, birth := 0 } ∧ primedAt (s.rt 1023) 0 = none ∧
     clearOfBirth s 1023 s.tick { base := 0, units := 1, birth := 0 } = true) ∧
    tabGet (State.reset.cmAt State.reset.tick).wells 1023 = none ∧
    (let done := fun l : Leg => l.obj == 1023 && l.out == 5 && l.kind != .plain && decide (l.start + l.len ≤ State.reset.tick + 3)
     (State.reset.setLegs [aLeg .xfOut, aLeg .xfIn]).geo.legs.any done = true) ∧
    State.reset.geo.legs = [] ∧
    (let s := State.reset.setRt 1023 { rule := 4 }
     let s := { s with geo := { s.geo with rules := [(4, { cm := {}, off := some { start := 0, len := 3 } })] } }
     (s.rt 1023).rule ≠ 0 ∧ (s.rt 1023).held = false ∧
     (tabGet s.geo.rules (s.rt 1023).rule).any (fun u => u.off.any fun r => decide (r.start + r.len ≤ s.tick + 3)) = true) ∧
    (State.reset.rt 1023).rule = 0 ∧
    (let c : ModeChange := { pol := true, sp := false, start := 0, due := 3, len := 3 }
     let s := State.reset.setOut 1023 { change := some c }
     (s.outRt 1023).change = some c ∧ c.sw = none ∧ c.due ≤ s.tick + 3) ∧
    (State.reset.outRt 1023).change = none := by
  decide +kernel

theorem test_witness_correction :
    (let s := { State.reset.setCor 1023 { fade := some { start := 0, len := 0, lin := true } } with tick := 0 }
     (s.cor 1023).fade = some { start := 0, len := 0, lin := true } ∧ 0 + 0 ≤ s.tick ∧ (s.cor 1023).queued = none) ∧
    (let s := State.reset.setCor 1023 { fade := some { start := 0, len := 0, lin := true }, queued := some (4, false) }
     (s.cor 1023).queued = some (4, false)) ∧
    (State.reset.cor 1023).fade = none ∧
    (let s := State.reset.setCor 1023 { supp := .down, pend := some (0, 0, 0), w := 0 }
     (s.cor 1023).supp = .down ∧ (s.cor 1023).pend = some (0, 0, 0) ∧ (s.cor 1023).w ≤ s.tick ∧ (s.cor 1023).loads = []) ∧
    (State.reset.cor 1023).pend = none ∧
    (let s := State.reset.setCor 1023 { supp := .hold, j := 0 }
     (s.cor 1023).supp = .hold ∧ (s.cor 1023).j ≤ nextOut s) ∧
    (State.reset.cor 1023).supp ≠ .hold := by
  decide +kernel

/-! ### Measurement and serial ports -/

theorem test_witness_measurement :
    (let s := State.reset.setMic 31 { start := some 0 }
     (s.mic 31).start = some 0 ∧ s.bit R.meaMicValid 31 = false ∧
     s.dueOk (sampleClk s (micValidFrom s (s.cmAt s.tick) 31 0)).toNat = true) ∧
    (State.reset.mic 31).start = none ∧
    (let s := { runs with tick := 300 }
     s.tickRuns = true ∧ s.tick % 150 = 0 ∧ s.mea.ffTick ≠ s.tick) ∧
    State.reset.mea.ffTick = State.reset.tick ∧
    (let p : IdentPend := { index := 1, count := 2, due := 0, outs := [], mics := [] }
     let s := { State.reset with mea := { State.reset.mea with pend := [p] } }
     s.mea.pend = p :: [] ∧ p.due ≤ s.tick ∧ s.tick < { p with due := 1 }.due) ∧
    State.reset.mea.pend = [] ∧ State.reset.mea.exports = [] ∧
    (let e : Export := { num := 3, addr := 0x1000, len := 20, pairs := [] }
     let s := { State.reset with mea := { State.reset.mea with exports := [e] } }
     s.mea.exports = e :: []) := by
  decide +kernel

/-- Reset with serial port 31 enabled as a slave. -/
def sap31 (r : SapRt) : State := { State.reset.setPort 31 { r with cfg := 1 } with clk := 100000 }

theorem test_witness_serial :
    ((State.reset.port 31).en = false ∧ ((sap31 {}).port 31).en = true ∧ ((sap31 {}).port 31).master = false ∧
      ((sap31 {}).port 31).last = none ∧ ((sap31 { edgeDue := true }).port 31).edgeDue = true) ∧
    (let s := sap31 { last := some 99999 }
     edgeExtra (s.port 31) (s.clk - 99999) = true) ∧
    (let s := sap31 { last := some 73958, rate := 1 }
     edgeExtra (s.port 31) (s.clk - 73958) = false ∧ edgeMissing (s.port 31) (s.clk - 73958) = false) ∧
    (let s := sap31 { last := some 9, st := 2 }
     let q := sapPeriod (s.port 31)
     (s.port 31).last = some 9 ∧ (s.port 31).st = 2 ∧ s.dueOk (9 + 4 * q.1 / q.2 + 1) = true) ∧
    (let s := sap31 { st := 2, rate := 1, differ := 1, winEdges := [] }
     (s.port 31).st = 2 ∧ s.dueOk ((s.port 31).winStart + 1250000) = true ∧
     within (windowRate ((s.port 31).winEdges.filter fun c => decide (c ≤ 1250000))) (sapRate (s.port 31).rate * 1000) 2 100 = false ∧
     (s.port 31).differ ≠ 0) ∧
    (let s := sap31 { st := 2, rate := 1, winEdges := [1250000, 1223958] }
     within (windowRate ((s.port 31).winEdges.filter fun c => decide (c ≤ 1250000))) (sapRate (s.port 31).rate * 1000) 2 100 = true) ∧
    (let x : AdmRx := { pa := 0, bits := 131072, tick := 0 }
     let s := { (State.reset.setEc 0 { mode := .halted }) with sap := { State.reset.sap with adm := [x] } }
     s.sap.adm = x :: [] ∧ x.tick ≤ s.tick ∧ (tabGetD s.ecs (fld (admW s.mapCm 0) 7 4) {}).mode = .halted ∧ x.bits ≤ 131072 ∧
     131072 < { x with bits := 131073 }.bits) ∧
    State.reset.sap.adm = [] := by
  decide +kernel

/-! ### Links, gangs and pairs -/

/-- Reset in a pair in state `st` over link 5, which is UP; PREFERRED where `pref`. -/
def paired (st : Nat) (pref : Bool) : State :=
  withCm [(R.mirCfg, 0x50), (R.nylPortCfg + 4, 3)]
    (withRegs [(linkReg 5 0, 2), (R.mirState, BitVec.ofNat 32 (st + (if pref then 16 else 0)))])

/-- A message of the partner, and the next of its class. -/
def fromPair (kind : Nat) (args : List Nat) : LinkMsg := { link := 5, kind := kind, args := args }

/-- A copy of the leader's transaction 3, and a transaction that waits for the partner's verdict. -/
def aCopy : Txn := { num := 0, id := 7, phase := .accepted, lead := some 3, boundary := 0, needGo := true }
def awaiting : Txn := { num := 3, id := 7, phase := .accepted, undecided := true, awaits := [16] }

theorem test_witness_links :
    (linkUp State.reset 5 = false ∧ linkUp (paired 2 false) 5 = true ∧ linkOn (paired 2 false).mapCm 5 = true ∧
      linkOn State.reset.mapCm 5 = false ∧
      (let s := (paired 2 false).setReg (linkReg 5 0) 0
       linkOn s.mapCm 5 = true ∧ linkUp s 5 = false)) ∧
    ((mkPhase, Instr.phaseMessage).1 = (fromPair mkPhase []).kind ∧ isResent mkPhase = false ∧
      { fromPair mkPhase [] with crcOk := false }.crcOk = false) ∧
    (let m := fromPair mkPhase [0, 1, 2, 3]
     let s := paired 2 true
     taken mkPhase m s = true ∧ fromPartner s m = true ∧ 4 ≤ m.args.length ∧ timSource s ≠ 3) ∧
    (let m := fromPair mkPresence [255, 9, 1, 5]
     let s := hasStream aStream (paired 2 false)
     taken mkPresence m s = true ∧ fromPartner s m = true ∧ rxNewest s 255 s.tick = some aStream ∧ tabGet aStream.reports 9 = none ∧
     aStream.waits.contains 9 = false) ∧
    (let m := fromPair mkSerial [31, 0, 1, 2]
     let s := paired 2 false
     taken mkSerial m s = true ∧ isPref s = false ∧ m.args.getD 0 0 < 32 ∧ s.str.relT ≤ m.args.getD 1 0) := by
  decide +kernel

theorem test_witness_copies :
    (let m := { fromPair mkStaged [0, 3, 0x0104, 0x0104, 0, 0, 1] with bytes := [1] }
     let s := { paired 2 false with cmd := { State.reset.cmd with txns := [aCopy] } }
     taken mkStaged m s = true ∧ forUs m s = true ∧ epochsFrom s m = true ∧ gangRole s ≠ 1 ∧ copyOf s (m.args.getD 1 0) = some aCopy) ∧
    (let m := fromPair mkAdmit [0, 3, 1, 0, 9]
     let s := paired 2 false
     taken mkAdmit m s = true ∧ forUs m s = true ∧ s.tick < m.args.getD 2 0 ∧ gangRole s ≠ 1) ∧
    (let m := fromPair mkVerdict [0, 3, 16, 0]
     let s := { paired 2 true with cmd := { State.reset.cmd with txns := [awaiting] } }
     taken mkVerdict m s = true ∧ forUs m s = true ∧
     s.cmd.txns.find? (fun t => t.undecided && (t.lead.getD t.num == m.args.getD 1 0)) = some awaiting ∧
     awaiting.awaits.contains (m.args.getD 2 0) = true ∧ (∀ b ∈ s.cmd.txns, b.undecided = true → ∀ v ∈ b.awaits, v = partnerId) ∧
     s.dueOk (s.tickClk + 750000) = true) ∧
    (let m := fromPair mkVerdict [0, 3, 16, 0]
     let s := { paired 2 false with cmd := { State.reset.cmd with txns := [aCopy] } }
     (∀ a ∈ s.cmd.txns, a.undecided = false) ∧ copyOf s (m.args.getD 1 0) = some aCopy ∧ aCopy.votes = [] ∧ taken mkVerdict m s = true) ∧
    (let m := fromPair mkCommit [0, 3, 1]
     let s := { paired 2 false with cmd := { State.reset.cmd with txns := [aCopy] } }
     taken mkCommit m s = true ∧ forUs m s = true ∧ copyOf s (m.args.getD 1 0) = some aCopy ∧ aCopy.phase = .accepted ∧
     s.tick < m.args.getD 2 0) ∧
    (missingGo State.reset = [] ∧
      (let s := { State.reset with cmd := { State.reset.cmd with txns := [aCopy] } }
       missingGo s ≠ [] ∧ gangRole s ≠ 2) ∧
      (let s := { follows with cmd := { State.reset.cmd with txns := [aCopy] } }
       missingGo s ≠ [] ∧ gangRole s = 2)) := by
  decide +kernel

theorem test_witness_pair_messages :
    ([mkSnapshot, mkDoorbell, mkJournal].all fun k => taken k (fromPair k [0, 1, 2]) (paired 2 false) && forUs (fromPair k [0, 1, 2]) (paired 2 false)) = true ∧
    (let m := fromPair mkDigest [0, 4, 5]
     let s := paired 2 false
     taken mkDigest m s = true ∧ fromPartner s m = true ∧ inStep (mirSt s) = true ∧ s.mir.theirs.any (·.1 == m.args.getD 1 0) = false ∧
     s.mir.own.find? (·.1 == m.args.getD 1 0) = none ∧
     (let s := { s with mir := { s.mir with theirs := [(4, [])] } }
      s.mir.theirs.any (·.1 == m.args.getD 1 0) = true)) ∧
    State.reset.mir.own = [] ∧
    (let s := { (paired 2 false).setReg R.mirLossTicks 2 with mir := { State.reset.mir with own := [(4, 5, [])] } }
     s.mir.own = (4, 5, []) :: [] ∧ s.dueOk (5 + s.field R.mirDigTo 19 0) = true ∧ s.mir.missing + 1 < s.field R.mirLossTicks 7 0) ∧
    (let s := { (paired 2 false).setReg R.mirLossTicks 2 with mir := { State.reset.mir with own := [(4, 5, [])], missing := 1 } }
     s.field R.mirLossTicks 7 0 ≤ s.mir.missing + 1 ∧ mirSt s = 2) ∧
    (let s := { runs with tick := 255 }
     let s := { s.setReg R.mirState 2 with mir := { s.mir with downFrom := some 0 } }
     s.mir.downFrom = some 0 ∧ 0 + s.field R.mirLossTicks 7 0 ≤ s.tick ∧ mirSt s = 2 ∧ State.reset.mir.downFrom = none) ∧
    (taken mkDown (fromPair mkDown []) (paired 2 false) = true ∧ fromPartner (paired 2 false) (fromPair mkDown []) = true) ∧
    (let m : LinkMsg := { link := 0, kind := mkDown, args := [0, 4] }
     let s := withRegs [(linkReg 0 0, 2), (R.nylGangState, 0x100)]
     let s := { s with nyl := { s.nyl with members := [(4, {})] } }
     taken mkDown m s = true ∧ fromPartner s m = false ∧ gangRole s = 1 ∧ m.args.getD 0 0 = gangMe s ∧
     (tabGet s.nyl.members (m.args.getD 1 0)).any (fun x => x.phase != 4) = true) := by
  decide +kernel

theorem test_witness_replay :
    (replaying (paired 2 false) = false ∧ replaying (paired 5 false) = true) ∧
    (let c : Checkpoint := { cm := {} }
     let m := { fromPair mkJournal [0, 0, 0, 0, 0, 0, 0, 9] with chk := some c }
     taken mkJournal m (paired 5 false) = true ∧ forUs m (paired 5 false) = true ∧ m.args.getD 1 0 = 0 ∧ m.chk = some c ∧
     m.args.getD 7 0 ≠ c.cm.epoch) ∧
    ([0, 2].all fun k => taken mkPrime (fromPair mkPrime [0, k]) (paired 6 false) && forUs (fromPair mkPrime [0, k]) (paired 6 false)) = true ∧
    (let s := { paired 6 false with mir := { State.reset.mir with copies := some 0 } }
     s.mir.copies = some s.mir.got ∧ s.mir.joinAt = none ∧ mirSt s = 6) ∧
    (let s := { follows with mir := { State.reset.mir with copies := some 0 } }
     s.mir.copies = some s.mir.got ∧ mirSt s ≠ 6 ∧ gangRole s = 2 ∧ gangSt s ≠ 2) ∧
    State.reset.mir.copies = none ∧
    (let m := { fromPair mkBulk [0, bulkStatus, 0] with bytes := bytesOfWords [0, 0, 0, 2] }
     let s := paired 2 false
     taken mkBulk m s = true ∧ fromPartner s m = true ∧ m.args.getD 1 0 = bulkStatus ∧ fld (wAt (wordsOf m.bytes) 3) 3 0 = 2) ∧
    ([0, 16].all fun k => taken mkDiscovery (fromPair mkDiscovery [k]) (paired 2 false) && taken mkAnswer (fromPair mkAnswer [0, k]) (paired 2 false)) = true ∧
    taken mkResend (fromPair mkResend [5, 3]) (paired 2 false) = true ∧
    (let s := { paired 7 false with tick := 0xFFFFFFFF }
     mirSt s = 7 ∧ s.mir.stalled = false ∧ s.mir.verifyFrom + s.regNat R.mirVerifyMax ≤ s.tick ∧ mirSt State.reset ≠ 7) := by
  decide +kernel

/-! ### Power, service and snapshots -/

def withPwr (p : PwrSt) : State := { State.reset with pwr := p }

theorem test_witness_supply :
    (State.reset.dieRuns = true ∧ State.reset.bit R.pwrStatus 3 = false ∧
      (State.reset.setBit R.pwrStatus 3 true).bit R.pwrStatus 3 = true) ∧
    (let s := State.reset.setBit R.pwrStatus 3 true
     passBlocked s = true ∧ s.bit R.pwrStatus 5 = false ∧ allSealed s = true) ∧
    (State.reset.pwr.inputOpen = false ∧ State.reset.pwr.clampAt = none ∧ State.reset.pwr.allowance ≠ 0) ∧
    (let s := withPwr { clampAt := some 0 }
     s.dieRuns = true ∧ s.pwr.clampAt = some 0 ∧ s.clk - 0 < s.pwr.allowance ∧ s.pwr.inputOpen = false) ∧
    (withPwr { inputOpen := true }).pwr.inputOpen = true ∧
    (let s := withPwr { inputLow := some 3 }
     s.pwr.inputLow = some 3 ∧ s.pwr.inputOpen = false ∧ s.dueOk (3 + 12500000000) = true) := by
  decide +kernel

theorem test_witness_resets :
    (let s := { State.reset with cmd := { State.reset.cmd with resetDue := some 5 } }
     s.cmd.resetDue = some 5 ∧ s.dueOk 5 = true) ∧
    (let s := withPwr { reset := .held, needHold := true }
     s.dieRuns = false ∧ s.pwr.needHold = true ∧ s.pwr.resetPin = false) ∧
    (let s := withPwr { reset := .off, needHold := true, resetPin := true }
     s.dieRuns = false ∧ s.pwr.needHold = true ∧ s.pwr.resetPin = true) ∧
    (let s := withPwr { reset := .held, resetPin := true }
     s.dieRuns = false ∧ s.pwr.needHold = false ∧ s.pwr.resetPin = true) := by
  decide +kernel

theorem test_witness_boot :
    ([1, 2, 3, 4].all fun n => bootStage (with1 R.pwrStatus (BitVec.ofNat 32 (n * 0x100000))) == n) = true ∧
    (chooseImage State.reset = some (0, 0x10000, 0) ∧ chooseImage (withSvc { rb := 1 }) = none) ∧
    (State.reset.pwr.reset ≠ .off ∧ ({ ok := false, fail := 300 } : BootIn).ok = false) := by
  decide +kernel

theorem test_witness_temperature :
    (State.reset.dieRuns = true ∧ State.reset.pwr.hot = 0 ∧ State.reset.bit R.pwrStatus 7 = false ∧ (-32768 : Int) ≤ 25599 ∧
      (25599 : Int) < 25600 ∧ (25600 : Int) < 29440 ∧ (29440 : Int) < 32000) ∧
    (let s := withPwr { hot := 2 }
     s.dieRuns = true ∧ s.pwr.hot = 2 ∧ s.pwr.trip = false) ∧
    (let s := { withPwr { tripAt := some 0 } with tick := 10 }
     s.pwr.tripAt = some 0 ∧ 0 + 9 ≤ nextOut s) ∧
    (let s := withPwr { reset := .standby, thermRestart := true }
     s.pwr.reset = .standby ∧ s.pwr.thermRestart = true ∧ s.pwr.needHold = false ∧ tempOf (s.reg R.pwrTj) < 21760) := by
  decide +kernel

theorem test_witness_drivers :
    (let s := (State.reset.setPort 31 { cfg := 3 }).setBit (R.pwrDrvOpenEn + 4 * (95 / 32)) (95 % 32) true
     s.dieRuns = true ∧ driven s 95 = true ∧ s.bit (R.pwrDrvOff + 4 * (95 / 32)) (95 % 32) = false ∧
     s.bit (R.pwrDrvOpenEn + 4 * (95 / 32)) (95 % 32) = true) ∧
    (let s := withPwr { drv := [(95, 7)] }
     tabGet s.pwr.drv 95 = some 7 ∧ s.dueOk 7 = true) ∧
    (let s := withCm [(R.meaMic + 4 * 31, 0x80000000)] (withPwr { probes := [(31, 31)] })
     micWatched s 31 = true ∧ s.bit R.pwrMicStuck 31 = false ∧ 31 ≤ tabGetD s.pwr.probes 31 0 ∧ s.bit R.pwrMicOpen 31 = false ∧
     tabGetD State.reset.pwr.probes 31 0 < 31) := by
  decide +kernel

theorem test_witness_service_and_snapshots :
    ((3 : Word).toNat.testBit 0 = true ∧ (withSvc { state := 2 }).svc.state = 2 ∧
      (let s := withSvc { state := 2, opened := 4, chal := some ([], 5), backoff := some 6 }
       s.svc.chal = some ([], 5) ∧ s.dueOk 5 = true ∧ s.svc.backoff = some 6 ∧ s.dueOk 6 = true ∧
       s.dueOk (s.svc.opened + s.field R.svcSessionTo 16 0 * 1250000000) = true)) ∧
    (let s := with1 R.snpCtrl 1
     s.dieRuns = true ∧ s.bit R.snpCtrl 0 = true ∧ s.bit R.snpCtrl 1 = false) ∧
    ((1 : Word).toNat.testBit 0 = true ∧ (1 : Word).toNat.testBit 1 = false ∧ (2 : Word).toNat.testBit 0 = false ∧
      (2 : Word).toNat.testBit 1 = true) ∧
    (let s := { State.reset with jnl := { State.reset.jnl with bg := some { cm := {} } } }
     s.jnl.bg = some { cm := {} }) := by
  decide +kernel

/-! ### Words of effect-core programs, field by field as R205 to R210 lay them out -/

theorem test_words_parallel :
    ecDecode 3 0 = .nop 3 {} ∧
    ecDecode 3 (0b00#2 ++ (0x02#5 ++ 2#2 ++ 3#4 ++ 5#4 ++ 1#1 ++ 0#6) ++ (0b001#3 ++ 15#4 ++ 7#3 ++ 0#2) ++
      (0b010#3 ++ 1#4 ++ 6#3 ++ 0#2) ++ (1#1 ++ 7#3 ++ 0b10#2 ++ 0#2) ++ 0#8 : BitVec 64) =
      .mac 3 2 3 5 true { m0 := .ld 15 7, m1 := .st 1 6, u0 := .upd 7 2 } ∧
    ecDecode 3 (0b00#2 ++ (0x10#5 ++ 4#4 ++ 9#4 ++ 0b10#2 ++ 1#1 ++ 0#2 ++ 11#4) ++ 0#40 : BitVec 64) = .shift 3 2 4 9 (.reg 11) {} ∧
    ecDecode 3 (0b00#2 ++ (0x19#5 ++ 3#2 ++ 1#2 ++ 0b100000#6 ++ 0#7) ++ 0#40 : BitVec 64) = .ash 3 3 1 (-32) {} ∧
    ecDecode 3 (0b00#2 ++ (0x07#5 ++ 1#4 ++ 2#4 ++ 3#4 ++ 7#3 ++ 1#1 ++ 0#1) ++ 0#40 : BitVec 64) = .acs2 3 1 2 3 7 true {} ∧
    ecDecode 3 (0b00#2 ++ (0x06#5 ++ 6#3 ++ 5#3 ++ 1#1 ++ 0#1 ++ 1#1 ++ 0#8) ++ 0#40 : BitVec 64) = .cmac 3 6 5 1 false true {} ∧
    ecDecode 3 (0b00#2 ++ 0#22 ++ (0b011#3 ++ 2#2 ++ 1#2 ++ 5#3 ++ 0#2) ++ 0#12 ++ 0#8 ++ (1#1 ++ 4#3 ++ 0b11#2 ++ 0#2) : BitVec 64) =
      .sta 3 2 1 5 .none .none (.upd 4 3) ∧
    ecDecode 3 (0b00#2 ++ 0#46 ++ (1#1 ++ 4#3 ++ 0b01#2 ++ 0#2) ++ 0#8 : BitVec 64) = .addressUpdate 3 4 1 .none := by
  decide +kernel

theorem test_words_control :
    ecDecode 3 (0b01#2 ++ 0x01#6 ++ 0x3#4 ++ 0#20 ++ 0#19 ++ 0x1FFF#13 : BitVec 64) = .br 3 3 0x1FFF ∧
    ecDecode 3 (0b01#2 ++ 0x05#6 ++ 0#8 ++ 9#4 ++ 1#1 ++ 0#11 ++ 0#32 : BitVec 64) = .rpt 3 (.reg 9) ∧
    ecDecode 3 (0b01#2 ++ 0x06#6 ++ 0#8 ++ 0#16 ++ 0#3 ++ 100#13 ++ 65535#16 : BitVec 64) = .loop 3 100 (.imm 65535) ∧
    ecDecode 3 (0b01#2 ++ 0x07#6 ++ 0#56 : BitVec 64) = .halt 3 ∧
    ecDecode 3 (0b01#2 ++ 0x08#6 ++ 0#8 ++ 0x31#8 ++ 0#8 ++ 0xDEADBEEF#32 : BitVec 64) = .ldi 3 0x31 0xDEADBEEF ∧
    ecDecode 3 (0b01#2 ++ 0x09#6 ++ 0#8 ++ 0x05#8 ++ 0x12#8 ++ 0#32 : BitVec 64) = .movc 3 0x05 0x12 ∧
    ecDecode 3 (0b01#2 ++ 0x0A#6 ++ 0#8 ++ 9#4 ++ 0#1 ++ 5#3 ++ 0#7 ++ 1#1 ++ 0#19 ++ 4096#13 : BitVec 64) = .xmov 3 9 5 true 4096 ∧
    ecDecode 3 (0b10#2 ++ 0x01#6 ++ 2#4 ++ 7#4 ++ 0#16 ++ 0x80000000#32 : BitVec 64) = .addsi 3 2 7 0x80000000 := by
  decide +kernel

theorem test_words_illegal :
    ([0b11#2 ++ 0#62, 0b00#2 ++ 0x1C#5 ++ 0#57, 0b00#2 ++ 0#22 ++ 0b100#3 ++ 0#37, 0b01#2 ++ 0x00#6 ++ 0#56, 0b01#2 ++ 0x0E#6 ++ 0#56,
      0b01#2 ++ 0x07#6 ++ 0x1#4 ++ 0#52, 0b10#2 ++ 0x08#6 ++ 0#56, 0b10#2 ++ 0x00#6 ++ 0#8 ++ 1#16 ++ 0#32] : List (BitVec 64)).all
      (fun w => ecDecode 3 w == .illegalInstruction 3) = true := by
  decide +kernel

/-! ### Ill-formed commands -/

theorem test_ill_formed_packets :
    packetRows.all (fun r => !(r.2 { sq := 32 } []).wellFormed && !(r.2 {} (List.replicate 65536 0)).wellFormed && (r.2 {} []).wellFormed) = true ∧
    ([{ tag := 0x10000 }, { txn := 0x100000000 }, { depth := 16 }, { path := 0x100000000 }] : List Hdr).all
      (fun h => !(Instr.opNop h []).wellFormed) = true := by
  decide +kernel

theorem test_ill_formed_parts :
    ([.ld 16 0, .ld 0 8, .st 16 0, .st 0 8, .sta 4 0 0, .sta 0 4 0, .sta 0 0 8] : List Mv).all (fun m =>
      !(Instr.mov 0 0 0 { m0 := m }).wellFormed && !(Instr.mov 0 0 0 { m1 := m }).wellFormed && !(Instr.ld 0 0 0 m .none .none).wellFormed) = true ∧
    ([.upd 8 0, .upd 0 4] : List Upd).all (fun u => !(Instr.mov 0 0 0 { u0 := u }).wellFormed && !(Instr.mov 0 0 0 { u1 := u }).wellFormed &&
      !(Instr.addressUpdate 0 0 0 u).wellFormed) = true ∧
    ([{ m0 := .ld 0 0 }, { u0 := .upd 0 0 }] : List Par).all (fun q => !(Instr.nop 0 q).wellFormed) = true ∧
    ([.imm 32, .reg 16] : List ShAmt).all (fun a => !(Instr.shift 0 0 0 0 a {}).wellFormed) = true ∧
    ([.rpt 0 (.imm 8192), .rpt 0 (.reg 16), .loop 0 0 (.imm 65536), .loop 0 0 (.reg 16), .tickBoundary { pdm := [(32, [])] },
      .tickBoundary { upsets := [(0x8000000, true)] }, .tickBoundary { upsets := [(2, true)] },
      .admStage { blocks := [{ zones := some [{ cart := true, bounds := [1, 2, 3, 4] }] }] }] : List Instr).all (fun i => !i.wellFormed) = true ∧
    ([{ port := 4 }, { vlan := 4096 }, { srcIp := 0x100000000 }, { dstIp := 0x100000000 }, { srcUdp := 0x10000 }, { dstUdp := 0x10000 },
      { udpLen := 0x10000 }] : List Dgram).all (fun d => !(Instr.hello d).wellFormed) = true ∧
    ([{ master := 25 }, { id := 32 }, { qos := 16 }, { len := 0 }, { write := true, len := 4, data := [1] }] : List BusTxn).all
      (fun t => !(Instr.busTransaction t).wellFormed) = true ∧
    ([{ port := 4 }, { seq := 0x10000 }, { domain := 256 }] : List PtpMsg).all (fun m => !(Instr.syncReceive m).wellFormed) = true ∧
    (Instr.verdict { link := 6 }).wellFormed = false := by
  decide +kernel

/-- A number too large for each operand, one at a time. -/
theorem test_ill_formed_numbers_1 : ([
    .sta 0 0 8 0 .none .none .none, .burstMuteEnd 16448, .packetCutoff 256 0, .packetCutoff 0 0x10000, .fillDeadline 256 0,
    .fillDeadline 0 0x10000, .wellPrimed 4096, .routeFadeEnd 4096 0, .routeFadeEnd 0 1024, .objOffRampEnd 4096,
    .outputModeSwitch 1024, .corFadeEnd 1024, .corSwitch 1024, .corSettled 1024, .micValid 32, .strRxFadeEnd 256,
    .ecOverrun 16, .lateHalt 16, .ecStopRampEnd 16, .packetFetch 32 [], .txnIdleTimeout 0x100000000, .nop 16 {},
    .mpy 16 0 0 0 false {}, .mpy 0 4 0 0 false {}, .mpy 0 0 16 0 false {}, .mpy 0 0 0 16 false {}, .mac 16 0 0 0 false {},
    .mac 0 4 0 0 false {}, .mac 0 0 16 0 false {}, .mac 0 0 0 16 false {}, .fir4 16 0 0 false false {},
    .fir4 0 16 0 false false {}, .fir4 0 0 4 false false {}, .dmac 16 0 0 0 0 0 {}, .dmac 0 2 0 0 0 0 {},
    .dmac 0 0 16 0 0 0 {}, .dmac 0 0 0 16 0 0 {}, .dmac 0 0 0 0 16 0 {}, .dmac 0 0 0 0 0 16 {}, .dmpy 16 0 0 0 0 0 {},
    .dmpy 0 2 0 0 0 0 {}, .dmpy 0 0 16 0 0 0 {}, .dmpy 0 0 0 16 0 0 {}, .dmpy 0 0 0 0 16 0 {}, .dmpy 0 0 0 0 0 16 {},
    .cmac 16 0 0 0 false false {}, .cmac 0 8 0 0 false false {}, .cmac 0 0 8 0 false false {}, .cmac 0 0 0 2 false false {},
    .acs2 16 0 0 0 0 false {}, .acs2 0 16 0 0 0 false {}, .acs2 0 0 16 0 0 false {}, .acs2 0 0 0 16 0 false {},
    .acs2 0 0 0 0 8 false {}, .acs1 16 0 0 0 0 false {}, .acs1 0 16 0 0 0 false {}, .acs1 0 0 16 0 0 false {},
    .acs1 0 0 0 16 0 false {}, .acs1 0 0 0 0 16 false {}, .add 16 0 0 0 {}, .add 0 16 0 0 {}, .add 0 0 16 0 {},
    .add 0 0 0 16 {}, .sub 16 0 0 0 {}] : List Instr).all (fun i => !i.wellFormed) = true := by
  decide +kernel

theorem test_ill_formed_numbers_2 : ([
    .sub 0 16 0 0 {}, .sub 0 0 16 0 {}, .sub 0 0 0 16 {}, .adds 16 0 0 0 {}, .adds 0 16 0 0 {}, .adds 0 0 16 0 {},
    .adds 0 0 0 16 {}, .subs 16 0 0 0 {}, .subs 0 16 0 0 {}, .subs 0 0 16 0 {}, .subs 0 0 0 16 {}, .and 16 0 0 0 {},
    .and 0 16 0 0 {}, .and 0 0 16 0 {}, .and 0 0 0 16 {}, .or 16 0 0 0 {}, .or 0 16 0 0 {}, .or 0 0 16 0 {}, .or 0 0 0 16 {},
    .xor 16 0 0 0 {}, .xor 0 16 0 0 {}, .xor 0 0 16 0 {}, .xor 0 0 0 16 {}, .shift 16 0 0 0 (.imm 0) {},
    .shift 0 4 0 0 (.imm 0) {}, .shift 0 0 16 0 (.imm 0) {}, .shift 0 0 0 16 (.imm 0) {}, .min 16 0 0 0 {}, .min 0 16 0 0 {},
    .min 0 0 16 0 {}, .min 0 0 0 16 {}, .max 16 0 0 0 {}, .max 0 16 0 0 {}, .max 0 0 16 0 {}, .max 0 0 0 16 {}, .abs 16 0 0 {},
    .abs 0 16 0 {}, .abs 0 0 16 {}, .neg 16 0 0 {}, .neg 0 16 0 {}, .neg 0 0 16 {}, .cmp 16 0 0 {}, .cmp 0 16 0 {},
    .cmp 0 0 16 {}, .mov 16 0 0 {}, .mov 0 16 0 {}, .mov 0 0 16 {}, .aclr 16 0 {}, .aclr 0 16 {}, .aadd 16 0 0 false {},
    .aadd 0 4 0 false {}, .aadd 0 0 4 false {}, .ash 16 0 0 0 {}, .ash 0 4 0 0 {}, .ash 0 0 4 0 {}, .ash 0 0 0 32 {},
    .arnd 16 0 0 0 {}, .arnd 0 16 0 0 {}, .arnd 0 0 4 0 {}, .arnd 0 0 0 4 {}, .ald 16 0 0 {}, .ald 0 4 0 {}, .ald 0 0 16 {},
    .ld 0 16 0 .none .none .none] : List Instr).all (fun i => !i.wellFormed) = true := by
  decide +kernel

theorem test_ill_formed_numbers_3 : ([
    .ld 0 0 8 .none .none .none, .st 0 16 0 .none .none .none, .st 0 0 8 .none .none .none, .sta 16 0 0 0 .none .none .none,
    .sta 0 0 4 0 .none .none .none, .sta 0 0 0 8 .none .none .none, .addressUpdate 16 0 0 .none, .addressUpdate 0 8 0 .none,
    .addressUpdate 0 0 4 .none, .br 16 0 0, .br 0 16 0, .br 0 0 8192, .call 16 0 0, .call 0 16 0, .call 0 0 8192, .ret 16 0,
    .ret 0 16, .reti 16, .rpt 16 (.imm 0), .loop 16 0 (.imm 0), .loop 0 8192 (.imm 0), .halt 16, .ldi 16 0 0, .ldi 0 256 0,
    .movc 16 0 0, .movc 0 256 0, .movc 0 0 256, .xmov 16 0 0 false 0, .xmov 0 16 0 false 0, .xmov 0 0 8 false 0,
    .xmov 0 0 0 false 8192, .xwait 16, .signal 16 0, .signal 0 512, .clrf 16 0, .clrf 0 4, .addi 16 0 0 0, .addi 0 16 0 0,
    .addi 0 0 16 0, .addsi 16 0 0 0, .addsi 0 16 0 0, .addsi 0 0 16 0, .andi 16 0 0 0, .andi 0 16 0 0, .andi 0 0 16 0,
    .ori 16 0 0 0, .ori 0 16 0 0, .ori 0 0 16 0, .xori 16 0 0 0, .xori 0 16 0 0, .xori 0 0 16 0, .cmpi 16 0 0, .cmpi 0 16 0,
    .mini 16 0 0 0, .mini 0 16 0 0, .mini 0 0 16 0, .maxi 16 0 0 0, .maxi 0 16 0 0, .maxi 0 0 16 0, .xmovComplete 16,
    .xwaitComplete 16, .irqHandlerEntry 16, .ecMemAccess 25 0 false 0, .ecMemAccess 0 0x100000000 false 0] : List Instr).all (fun i => !i.wellFormed) = true := by
  decide +kernel

theorem test_ill_formed_numbers_4 : ([
    .sqDoorbell 32 0, .cqDoorbell 32 0, .ringEnable false 32 0, .ringDisable false 32 0, .netKeyWrite 8 0,
    .rweWrite 0x130000 0, .registerWrite 0x1000000 0 0, .registerWrite 0 16 0, .counterClear 0x130000 0, .latchingRead 27 0,
    .latchingRead 0 0x1000000, .irqClaim 21, .irqHostVclaim 32, .irqComplete 21 0, .irqFaultClrResume 21,
    .irqFaultClrDiscard 21, .irqSrcCfgWrite 512 0, .holdoffEnd 16, .cisBankOwnWrite 256 0, .drainComplete 256,
    .drainTimeout 256, .busGrant 21, .windowAccess 0x8000000 false [] false, .scrubWriteback 256, .frameReceive 4 [] false,
    .pfcFrame 4 [], .pfcPauseEnd 4 0, .pfcPauseEnd 0 8, .pfcRepeat 4 0, .pfcRepeat 0 8, .frameTransmit 4, .linkChange 4 false,
    .syncTransmit 4, .announceTransmit 4, .announceTimeout 4, .timNowRead 27, .trigFire 16, .trigPulseEnd 16,
    .trigInputEdge 16 0 false, .timCapRead 27 0, .timCapRead 0 16, .sapLost 32, .sapRateWindow 32, .laneLockLoss 6,
    .linkTrained 6, .driverFault 119 false, .driverRetry 119 false, .micStuck 32, .micOpenProbe 32 false, .smbusBlockRead 256,
    .illegalInstruction 16, .micStuckClear 32, .firmwareQueueDrain 4 0 0, .firmwareQueueDrain 0 8 0, .streamPacket 4 {},
    .lrclkEdge 32 [], .ash 0 0 0 (-33) {}] : List Instr).all (fun i => !i.wellFormed) = true := by
  decide +kernel

/-! ### The manual's own examples -/

/-- Chapter 03, one window in the hall: the delays of samples 0, 15 and 31, and the window's first and last sample times. -/
theorem test_example_window :
    [0, 15, 31].map (fun j => (rampSamples 32 272568 272519).getD j 0) = [272566, 272544, 272519] ∧
    tapRange 32 83500000000032 272568 272519 none = (83499999998965, 83499999999001) := by
  decide +kernel

/-- Chapter 02, the hall: 6.0 m at 48 kHz and 343.0 m/s is 0x000347A6; gain 0x006D97 is −31.45 dB. -/
theorem test_example_hall_delay :
    pubDelay (travel { fs := 48000, ceff := 0x55C00000, sp := fun _ => false } (fxOfInt 6)) = 0x347A6 ∧
    dbOfGain 0x6D97 / 256 = -32 := by
  decide +kernel

/-- A speaker 5 m from the reference point, at ear height. -/
def spkAt (az : Int) : SpkRec := { pos := polarPos (az * 128) 0 (5 * 65536), enable := true }

/-- Chapter 02, the truck: an object at +20° on stereo, L 0.975257 and R 0.221073, to six places. -/
theorem test_example_truck_pan :
    (let c : Committed := { spks := [(1, spkAt 30), (2, spkAt (-30))] }
     let l : Layout := { members := [1, 2], tris := [[1, 2]] }
     let r := (panLayout (layoutTris c l) false l.vertices (pointDir false (polarPos (20 * 128) 0 (5 * 65536)))).1
     r.map (fun e => (e.1, fxFloor (e.2 * 1000000 + fxOne / 2))) = [(1, 975257), (2, 221073)]) := by
  decide +kernel

/-- Chapter 05: subwoofers and ring outputs of the hall (delay, partitions, KiB, settle time), and the weights of its fades. -/
theorem test_example_correction :
    (let cfg : Word := 0x6210A
     corTau cfg = 450 ∧ corParts 32 cfg 0x800004 = 12 ∧ corKiB 32 cfg 0x800004 0 = 66 ∧ corSettle 32 cfg 0x800004 0 = 66466) ∧
    (corParts 32 1 64 = 64 ∧ corKiB 32 1 64 7200 = 34 ∧ corSettle 32 1 64 7200 = 2498) ∧
    (corWeights { start := 0, len := 75, lin := true } 1).1 = 13981 := by
  decide +kernel

/-- Chapter 11, silencing the truck's heights: sequence number 0x1200 and timestamp 0xBDE60000. -/
theorem test_example_stream :
    (rtpPacket State.reset [0xA00, 0, 1, 0, 0, 0, 0, 0, 0x1200, 0] 96000000000000 []).take 8 = [0x80, 0, 0x12, 0, 0xBD, 0xE6, 0, 0] := by
  decide +kernel

/-- Chapter 10, completions on two CPUs: a claim on vector 2 returns 0x00060002, and with 2 at priority 6 on the stack a claim on
vector 5 returns 0x000003FF. -/
theorem test_example_claims :
    (let s := withRegs [(irqCfg 2, 0x80000602), (irqCfg 5, 0x80000605)]
     let s := (s.setPend 2 true).setPend 5 true
     let s := { s with irq := { s.irq with rel := [2, 5] } }
     let a := claimRead s 0 (fun x => irqVec s x == 2)
     let b := claimRead a.1 0 (fun x => irqVec s x == 5)
     a.2 = 0x00060002 ∧ irqStack a.1 0 = [(2, 6)] ∧ b.2 = 0x3FF ∧ irqStack b.1 0 = [(2, 6)] ∧ b.1.isPend 5 = true) := by
  decide +kernel

end Sys2Proof.Tests
end

section
/-! PROOFS. Effect cores, add-compare-select (R216): what ACS2 and ACS1 write, what they leave alone, and obligation O26. -/

namespace Sys2Proof.Machine

open Sys2Proof.Claims

/-! ### A P instruction in the block -/

/-- A P instruction that is ready leaves its core as slot A, the moves and the updates made it. -/
theorem exec_pDone {i : Instr} {core : Nat} {q : Par} {s : State} (f : EcEnv → EcCore → EcCore) (h : pReady core q s = true)
    (hi : exec i s = .next (settle (ecRun core (fun env => ecP env q (f env)) s))) :
    ∃ t, exec i s = .next t ∧
      Settled (coreNow core (pDone (ecEnvOf s core) (ecAt core s) q (f (ecEnvOf s core) (ecAt core s))) s) t := by
  rw [ecP_ok f h] at hi
  exact exec_settled hi

theorem pDone_dr (env : EcEnv) (c : EcCore) (q : Par) (x : EcCore) (j : Nat) : (pDone env c q x).dr j = x.dr j := by
  obtain ⟨hd, -⟩ := pDone_slot env c q x
  rw [EcCore.dr, hd, EcCore.dr]

theorem pDone_dec (env : EcEnv) (c : EcCore) (q : Par) (x : EcCore) : (pDone env c q x).dec = x.dec := by
  obtain ⟨-, -, -, -, -, -, -, hdec⟩ := pDone_slot env c q x
  exact hdec

/-! ### What a selection writes -/

/-- What a selection reaches: data registers, with the loads on their way to them, and the decision register. -/
structure SelectOnly (c x : EcCore) : Prop where
  same : x = { c with d := x.d, dec := x.dec, late := x.late }

theorem SelectOnly.slotOnly {c x : EcCore} (h : SelectOnly c x) : SlotOnly c x where
  same := by rw [h.same]
  sat hc := by rw [h.same]; exact hc
  gov hc := by rw [h.same]; exact hc

/-- A P instruction whose slot A selects keeps the accumulators and the condition flags. -/
theorem pDone_select_frame (env : EcEnv) {c x : EcCore} (q : Par) (h : SelectOnly c x) :
    accKept c (pDone env c q x) ∧ (pDone env c q x).z = c.z ∧ (pDone env c q x).n = c.n ∧ (pDone env c q x).v = c.v ∧
      (pDone env c q x).c = c.c ∧ PKeeps q c (pDone env c q x) := by
  obtain ⟨-, ha, hz, hn, hv, hc, hgov, -⟩ := pDone_slot env c q x
  have same := h.same
  exact ⟨⟨ha.trans (congrArg EcCore.a same :), hgov.trans (congrArg EcCore.gov same :)⟩, hz.trans (congrArg EcCore.z same :),
    hn.trans (congrArg EcCore.n same :), hv.trans (congrArg EcCore.v same :), hc.trans (congrArg EcCore.c same :),
    pDone_keeps env q h.slotOnly⟩

/-- The model's comparison is the one of R216 for either sense. -/
theorem ecBeats_eq_beats (cb ca : Word) (min : Bool) : ecBeats cb ca min = beats min cb ca := rfl

/-! ### ACS2 -/

theorem selectOnly_acs2 (ma mb bm k : Nat) (min : Bool) (c : EcCore) : SelectOnly c (ecAcs2 ma mb bm k min c) := ⟨rfl⟩

/-- The even register takes the better of the two paths into the butterfly's first state. -/
theorem ecAcs2_dr_even (ma mb bm : Nat) {k : Nat} (min : Bool) (c : EcCore) (hk : k < 8) :
    (ecAcs2 ma mb bm k min c).dr (2 * k) =
      if beats min (c.dr mb - c.dr bm) (c.dr ma + c.dr bm) then c.dr mb - c.dr bm else c.dr ma + c.dr bm := by
  have hne : 2 * k ≠ 2 * k + 1 := by omega
  simp only [← ecBeats_eq_beats]
  exact (dr_setD_ne _ _ hne).trans (dr_setD_self c _ (by omega))

/-- The odd register takes the better of the two paths into the butterfly's second state. -/
theorem ecAcs2_dr_odd (ma mb bm : Nat) {k : Nat} (min : Bool) (c : EcCore) (hk : k < 8) :
    (ecAcs2 ma mb bm k min c).dr (2 * k + 1) =
      if beats min (c.dr mb + c.dr bm) (c.dr ma - c.dr bm) then c.dr mb + c.dr bm else c.dr ma - c.dr bm := by
  simp only [← ecBeats_eq_beats]
  exact dr_setD_self _ _ (by omega)

theorem ecAcs2_dr_ne (ma mb bm : Nat) {k j : Nat} (min : Bool) (c : EcCore) (h0 : j ≠ 2 * k) (h1 : j ≠ 2 * k + 1) :
    (ecAcs2 ma mb bm k min c).dr j = c.dr j :=
  (dr_setD_ne _ _ h1).trans (dr_setD_ne c _ h0)

theorem ecAcs2_dec (ma mb bm k : Nat) (min : Bool) (c : EcCore) :
    (ecAcs2 ma mb bm k min c).dec = (c.dec <<< 2) |||
      wd (2 * b2n (beats min (c.dr mb - c.dr bm) (c.dr ma + c.dr bm)) +
        b2n (beats min (c.dr mb + c.dr bm) (c.dr ma - c.dr bm))) := by
  simp only [← ecBeats_eq_beats]
  rfl

/-! ### ACS1 -/

theorem selectOnly_acs1 (dst s0 s1 bm : Nat) (min : Bool) (c : EcCore) : SelectOnly c (ecAcs1 dst s0 s1 bm min c) := ⟨rfl⟩

theorem ecAcs1_dr_dst {dst : Nat} (s0 s1 bm : Nat) (min : Bool) (c : EcCore) (hd : dst < 16) :
    (ecAcs1 dst s0 s1 bm min c).dr dst = if beats min (c.dr s1) (c.dr s0 + c.dr bm) then c.dr s1 else c.dr s0 + c.dr bm := by
  simp only [← ecBeats_eq_beats]
  exact dr_setD_self c _ hd

theorem ecAcs1_dec (dst s0 s1 bm : Nat) (min : Bool) (c : EcCore) :
    (ecAcs1 dst s0 s1 bm min c).dec = (c.dec <<< 1) ||| wd (b2n (beats min (c.dr s1) (c.dr s0 + c.dr bm))) := by
  simp only [← ecBeats_eq_beats]
  rfl

theorem dataKept_acs1 (dst s0 s1 bm : Nat) (min : Bool) (c : EcCore) : dataKept dst c (ecAcs1 dst s0 s1 bm min c) :=
  fun _ hj => dr_setD_ne c _ hj

/-! ### The obligation -/

/-- Settles O26: slot A gives registers and decisions (`ecAcs2_dr_even` and the lemmas beside it), and what a selection does not
reach is kept (`pDone_select_frame`). -/
theorem ecAddCompareSelect : Obligations.EcAddCompareSelect := by
  unfold Obligations.EcAddCompareSelect
  constructor
  · intro core ma mb bm k min q s hk hready
    obtain ⟨t, hexec, hsettled⟩ := exec_pDone (i := .acs2 core ma mb bm k min q) (fun _ => ecAcs2 ma mb bm k min) hready rfl
    refine ⟨_, t, hexec, hsettled, ?even, ?odd, ?dec, ?others, pDone_select_frame _ q (selectOnly_acs2 ma mb bm k min _)⟩
    case even => exact (pDone_dr ..).trans (ecAcs2_dr_even ma mb bm min _ hk)
    case odd => exact (pDone_dr ..).trans (ecAcs2_dr_odd ma mb bm min _ hk)
    case dec => exact (pDone_dec ..).trans (ecAcs2_dec ..)
    case others =>
      intro j h0 h1
      exact (pDone_dr ..).trans (ecAcs2_dr_ne ma mb bm min _ h0 h1)
  · intro core dst s0 s1 bm min q s hd hready
    obtain ⟨t, hexec, hsettled⟩ := exec_pDone (i := .acs1 core dst s0 s1 bm min q) (fun _ => ecAcs1 dst s0 s1 bm min) hready rfl
    refine ⟨_, t, hexec, hsettled, ?dst, ?dec, ?others, pDone_select_frame _ q (selectOnly_acs1 dst s0 s1 bm min _)⟩
    case dst => exact (pDone_dr ..).trans (ecAcs1_dr_dst s0 s1 bm min _ hd)
    case dec => exact (pDone_dec ..).trans (ecAcs1_dec ..)
    case others =>
      intro j hj
      exact (pDone_dr ..).trans (dataKept_acs1 dst s0 s1 bm min _ j hj)

end Sys2Proof.Machine
end

section
/-! PROOFS. Completion of interrupts (R324 to R327): what a write to IRQ_COMPLETE and to IRQ_FAULT_CLR does to a target's stack, and
obligation O38. -/

namespace Sys2Proof.Machine

open Sys2Proof.Claims

/-! ### The frozen part of a stack -/

/-- Entries at the bottom of a target's stack that are frozen (R325, R326); none while the stack is not. -/
def frozenDepth (s : State) (t : Nat) : Nat := ((tabGet s.irq.frozen t).map Prod.snd).getD 0

theorem frozenDepth_none {s : State} {t : Nat} (h : tabGet s.irq.frozen t = none) : frozenDepth s t = 0 := by
  simp [frozenDepth, h]

theorem frozenDepth_some {s : State} {t f n : Nat} (h : tabGet s.irq.frozen t = some (f, n)) : frozenDepth s t = n := by
  simp [frozenDepth, h]

/-- The frozen entries of a target's stack. -/
def frozenPart (s : State) (t : Nat) : List (Nat × Nat) := (irqStack s t).drop ((irqStack s t).length - frozenDepth s t)

/-! ### What a completion does -/

theorem fld_9_0 (val : Word) : fld val 9 0 = val.toNat % 1024 := by simp [fld]

@[simp] theorem completeSrc_noSource (s : State) (t : Nat) : completeSrc s t 1023 = s := rfl

theorem completeSrc_nil {s : State} {t src : Nat} (hst : irqStack s t = []) (hsrc : src ≠ 1023) :
    completeSrc s t src = orderFault s t src := by
  simp [completeSrc, hst, hsrc]

/-- The three outcomes of a completion to a stack that is not empty, in the order in which they are tried. -/
theorem completeSrc_cons {s : State} {t src x p : Nat} {rest : List (Nat × Nat)} (hst : irqStack s t = (x, p) :: rest)
    (hsrc : src ≠ 1023) :
    completeSrc s t src =
      if frozenDepth s t ≤ rest.length ∧ x = src then s.setStack t rest
      else if (frozenPart s t).any (fun e => e.1 == src) then s
      else orderFault s t src := by
  rw [completeSrc, if_neg hsrc, frozenPart, frozenDepth, hst]
  rcases tabGet s.irq.frozen t with _ | ⟨f, n⟩ <;> simp

/-- A top entry above the frozen ones is popped (R324, R326). -/
theorem completeSrc_top {s : State} {t x p : Nat} {rest : List (Nat × Nat)} (hst : irqStack s t = (x, p) :: rest)
    (hx : x ≠ 1023) (habove : frozenDepth s t ≤ rest.length) : completeSrc s t x = s.setStack t rest := by
  rw [completeSrc_cons hst hx, if_pos ⟨habove, rfl⟩]

/-- Naming a frozen entry, and none above the frozen ones, does nothing (R326). -/
theorem completeSrc_frozen {s : State} {t : Nat} {e : Nat × Nat} (he : e ∈ frozenPart s t)
    (habove : ∀ y ∈ (irqStack s t).take ((irqStack s t).length - frozenDepth s t), y.1 ≠ e.1) : completeSrc s t e.1 = s := by
  by_cases hsrc : e.1 = 1023
  · rw [hsrc, completeSrc_noSource]
  cases hst : irqStack s t with
  | nil => simp [frozenPart, hst] at he
  | cons top rest =>
    have htop : ¬ (frozenDepth s t ≤ rest.length ∧ top.1 = e.1) := by
      rintro ⟨hlow, hxe⟩
      have hmem : top ∈ (irqStack s t).take ((irqStack s t).length - frozenDepth s t) := by
        rw [hst, List.length_cons, Nat.succ_sub hlow]
        exact List.mem_cons_self
      exact habove top hmem hxe
    have hany : (frozenPart s t).any (fun y => y.1 == e.1) = true := List.any_eq_true.mpr ⟨e, he, beq_self_eq_true _⟩
    rw [completeSrc_cons hst hsrc, if_neg htop, if_pos hany]

/-- Naming neither the top entry nor a frozen one is an order fault (R325, R326). -/
theorem completeSrc_other {s : State} {t src x p : Nat} {rest : List (Nat × Nat)} (hst : irqStack s t = (x, p) :: rest)
    (hsrc : src ≠ 1023) (htop : src ≠ x) (hfrozen : ∀ y ∈ frozenPart s t, y.1 ≠ src) :
    completeSrc s t src = orderFault s t src := by
  have hany : ¬ (frozenPart s t).any (fun e => e.1 == src) = true := by
    simpa only [List.any_eq_true, beq_iff_eq, not_exists, not_and] using hfrozen
  rw [completeSrc_cons hst hsrc, if_neg fun h => htop h.2.symm, if_neg hany]

/-! ### What an order fault records -/

/-- The stack of `t` frozen at priority `pri` with `depth` entries, and `src` recorded as the source named (R325). -/
def faultRecorded (s : State) (t pri depth src : Nat) : State :=
  (({ s with irq := { s.irq with frozen := tabSet s.irq.frozen t (pri, depth) } } : State).setNat (R.irqFaultInfo + 0x20 * t)
    (0x80000000 + depth * 65536 + src)).evt R.irqEvtStatus 0

theorem orderFault_nil {s : State} {t : Nat} (src : Nat) (hst : irqStack s t = []) :
    orderFault s t src = faultRecorded s t 0 0 src := by
  simp [orderFault, faultRecorded, hst]

theorem orderFault_cons {s : State} {t x p : Nat} {rest : List (Nat × Nat)} (src : Nat) (hst : irqStack s t = (x, p) :: rest) :
    orderFault s t src = faultRecorded s t p (rest.length + 1) src := by
  simp [orderFault, faultRecorded, hst]

/-! ### Delivery past a frozen stack, and its release -/

/-- A source at or below FREEZE_PRI is not delivered (R326); source 40 to the host bypasses every stack (R327). -/
theorem deliverable_frozen {s : State} {t src f n : Nat} (hf : tabGet s.irq.frozen t = some (f, n))
    (hbypass : ¬ (src = 40 ∧ t = 0)) (hprio : irqPrio s src ≤ f) : deliverable s t src = false := by
  simp [deliverable, hf, hbypass, Nat.not_lt.mpr hprio]

/-- The stack of `t` is frozen no more, and stands as it is. -/
def unfrozen (s : State) (t : Nat) : State := { s with irq := { s.irq with frozen := tabDel s.irq.frozen t } }

theorem unfreeze_eq (s : State) (t : Nat) :
    unfreeze s t = if tabDel s.irq.frozen t = [] then (unfrozen s t).setPend 40 false else unfrozen s t := by
  simp only [unfreeze, unfrozen, List.isEmpty_iff]

/-! ### The commands -/

theorem exec_irqComplete (t : Nat) (val : Word) (s : State) :
    exec (.irqComplete t val) s = .next (settle (doIrqComplete t val s)) := rfl

theorem exec_irqFaultClrResume (t : Nat) (s : State) :
    exec (.irqFaultClrResume t) s = .next (settle (doIrqFaultClrResume t s)) := rfl

theorem exec_irqFaultClrDiscard (t : Nat) (s : State) :
    exec (.irqFaultClrDiscard t) s = .next (settle (doIrqFaultClrDiscard t s)) := rfl

theorem gives_irqComplete {s u : State} {t : Nat} {val : Word} (ht : t ≤ 20) (h : completeSrc s t (val.toNat % 1024) = u) :
    Gives (.irqComplete t val) s u :=
  exec_settled (by rw [exec_irqComplete, doIrqComplete, if_pos ht, fld_9_0, h])

theorem gives_irqComplete_noSource (s : State) (t : Nat) {val : Word} (hval : val.toNat % 1024 = 1023) :
    Gives (.irqComplete t val) s s :=
  exec_settled (by rw [exec_irqComplete, doIrqComplete, fld_9_0, hval, completeSrc_noSource, ite_self])

theorem gives_irqFaultClrResume {s u : State} {t : Nat} {f : Nat × Nat} (hf : tabGet s.irq.frozen t = some f)
    (h : unfreeze s t = u) : Gives (.irqFaultClrResume t) s u :=
  exec_settled (by rw [exec_irqFaultClrResume, doIrqFaultClrResume, hf, Option.isSome_some, if_pos rfl, h])

theorem gives_irqFaultClrDiscard {s u : State} {t : Nat} {f : Nat × Nat} (hf : tabGet s.irq.frozen t = some f)
    (h : unfreeze (s.setStack t []) t = u) : Gives (.irqFaultClrDiscard t) s u :=
  exec_settled (by rw [exec_irqFaultClrDiscard, doIrqFaultClrDiscard, hf, Option.isSome_some, if_pos rfl, h])

/-! ### The obligation -/

/-- Settles O38: a completion pops, is ignored or is an order fault (`completeSrc_top`, `completeSrc_frozen`, `completeSrc_other`),
and a write to IRQ_FAULT_CLR unfreezes (`unfreeze_eq`). -/
theorem irqCompletion : Obligations.IrqCompletion := by
  unfold Obligations.IrqCompletion
  refine ⟨?pop, ?noSource, ?fault, ?faultEmpty, ?frozen, ?popAbove, ?faultAbove, ?blocked, ?resume, ?discard⟩
  case pop =>
    intro tgt val x p rest s ht hst hf hval hx
    have habove : frozenDepth s tgt ≤ rest.length := by simp [frozenDepth_none hf]
    exact gives_irqComplete ht (hval ▸ completeSrc_top hst hx habove)
  case noSource =>
    intro tgt val s hval
    exact gives_irqComplete_noSource s tgt hval
  case fault =>
    intro tgt val x p rest s ht hst hf htop hsrc
    have hfrozen : ∀ y ∈ frozenPart s tgt, y.1 ≠ val.toNat % 1024 := by simp [frozenPart, frozenDepth_none hf]
    exact gives_irqComplete ht ((completeSrc_other hst hsrc htop hfrozen).trans (orderFault_cons _ hst))
  case faultEmpty =>
    intro tgt val s ht hst hsrc
    exact gives_irqComplete ht ((completeSrc_nil hst hsrc).trans (orderFault_nil _ hst))
  case frozen =>
    intro tgt val f n e s ht hf _ he hval habove
    rw [← frozenDepth_some hf] at he habove
    exact gives_irqComplete ht (hval ▸ completeSrc_frozen he habove)
  case popAbove =>
    intro tgt val f n x p rest s ht hf hst hn hval hx
    have habove : frozenDepth s tgt ≤ rest.length := by rwa [frozenDepth_some hf]
    exact gives_irqComplete ht (hval ▸ completeSrc_top hst hx habove)
  case faultAbove =>
    intro tgt val f n x p rest s ht hf hst _ hsrc htop hkept
    have hfrozen : ∀ y ∈ frozenPart s tgt, y.1 ≠ val.toNat % 1024 := by
      simpa only [frozenPart, frozenDepth_some hf, hst, List.length_cons] using hkept
    exact gives_irqComplete ht ((completeSrc_other hst hsrc htop hfrozen).trans (orderFault_cons _ hst))
  case blocked =>
    intro tgt f n src s hf hbypass hprio
    exact deliverable_frozen hf hbypass hprio
  case resume =>
    intro tgt f s hf
    exact gives_irqFaultClrResume hf (unfreeze_eq s tgt)
  case discard =>
    intro tgt f s hf
    exact gives_irqFaultClrDiscard hf (unfreeze_eq (s.setStack tgt []) tgt)

end Sys2Proof.Machine
end

section
/-! PROOFS. The block as a whole: every command ends in `settle`, and what `settle` establishes from whatever state it finds: releases,
pins and owed messages. Obligations O1 to O8. -/

namespace Sys2Proof.Machine

open Sys2Proof.Claims

/-! ### Every command ends in `settle` -/

theorem exec_eq_settle (i : Instr) (s : State) : ∃ u, exec i s = .next (settle u) := by
  cases i <;> exact ⟨_, rfl⟩

theorem step_eq_settle (s : State) : ∃ u, step s = .next (settle u) := by
  unfold step
  split
  · exact exec_eq_settle _ _
  · exact ⟨_, rfl⟩

/-- What `settle` establishes holds after every step. -/
theorem after_step {P : State → Prop} (h : ∀ u, P (settle u)) {s t : State} (hs : step s = .next t) : P t := by
  obtain ⟨u, hu⟩ := step_eq_settle s
  rw [hu] at hs
  injection hs with ht
  exact ht ▸ h u

/-- Settles O1: the first branch of `step`. -/
theorem stepRunsFrontCommand : Obligations.StepRunsFrontCommand := fun _ _ _ => rfl

/-- Settles O3, by `exec_eq_settle`. -/
theorem everyCommandGoesOn : Obligations.EveryCommandGoesOn := fun c s =>
  let ⟨u, hu⟩ := exec_eq_settle c s
  ⟨settle u, hu⟩

/-- Settles O2: an idle cycle is one `settle` of a state whose clock and queue alone differ. -/
theorem emptyQueueIdles : Obligations.EmptyQueueIdles := by
  intro s hp
  have hstep : step s = .next (idleCycle s) := by unfold step; rw [hp]
  refine ⟨_, hstep, ?_⟩
  have hidle : idleCycle s =
      settle { s with clk := s.clk + 1, pending := if s.dieRuns then ecReady s else [] } := by
    have hready : ecReady { s with clk := s.clk + 1 } = ecReady s := rfl
    have hruns : State.dieRuns { s with clk := s.clk + 1 } = s.dieRuns := rfl
    unfold idleCycle
    dsimp only
    rw [hruns, hready, hp, List.nil_append]
    split
    · rfl
    · rw [← hp]
  rw [hidle]
  exact settle_settled _

/-! ### Pending and deliverable sources -/

theorem mem_pendList {s : State} {x : Nat} : x ∈ pendList s ↔ x < 512 ∧ s.isPend x = true := by
  have hword : ∀ g b, b < 32 → s.isPend (32 * g + b) = (s.reg (R.irqPend + 4 * g)).toNat.testBit b := by
    intro g b hb
    have hdiv : (32 * g + b) / 32 * 4 = 4 * g := by omega
    have hmod : (32 * g + b) % 32 = b := by omega
    rw [State.isPend, State.bit, hdiv, hmod]
  constructor
  · intro h
    refine ⟨pendList_lt h, ?_⟩
    simp only [pendList, List.mem_flatMap, List.mem_range] at h
    obtain ⟨g, _, hx⟩ := h
    split at hx
    · cases hx
    · simp only [List.mem_filterMap, List.mem_range, Option.ite_none_right_eq_some, Option.some.injEq] at hx
      obtain ⟨b, hb, hbit, rfl⟩ := hx
      rw [hword g b hb, hbit]
  · rintro ⟨hlt, hpend⟩
    have hx : 32 * (x / 32) + x % 32 = x := by omega
    have hb : x % 32 < 32 := by omega
    rw [← hx, hword _ _ hb] at hpend
    simp only [pendList, List.mem_flatMap, List.mem_range]
    refine ⟨x / 32, by omega, ?_⟩
    have hw : s.reg (R.irqPend + 4 * (x / 32)) ≠ 0 := by
      intro h0
      rw [h0] at hpend
      simp at hpend
    rw [if_neg hw, List.mem_filterMap]
    exact ⟨x % 32, List.mem_range.mpr hb, by rw [if_pos hpend, hx]⟩

theorem deliverable_isPend {s : State} {t x : Nat} (h : deliverable s t x = true) : s.isPend x = true := by
  simp only [deliverable, Bool.and_eq_true] at h
  exact h.1.1.1.1

theorem mem_hostDeliv {s : State} {x : Nat} : x ∈ hostDeliv s ↔ x < 512 ∧ deliverable s 0 x = true := by
  rw [hostDeliv, List.mem_filter, mem_pendList]
  exact ⟨fun h => ⟨h.1.1, h.2⟩, fun h => ⟨⟨h.1, deliverable_isPend h.2⟩, h.2⟩⟩

/-! ### Pins (R322, R494) -/

theorem intN_iff (s : State) : (pinsOf s).intN = false ↔
    s.pwr.reset = .running ∧ s.bit R.irqHostCfg 0 = true ∧ ∃ x, x < 512 ∧ deliverable s 0 x = true := by
  have hsome : (hostDeliv s).isEmpty = false ↔ ∃ x, x < 512 ∧ deliverable s 0 x = true := by
    rw [List.isEmpty_eq_false_iff_exists_mem]
    simp only [mem_hostDeliv]
  simp only [pinsOf, hostIntN, Bool.not_eq_false', Bool.and_eq_true, Bool.not_eq_true', beq_iff_eq, hsome, and_assoc]

theorem wakeN_iff (s : State) : (pinsOf s).wakeN = false ↔
    s.pwr.reset = .running ∧ ¬ (s.irq.d0 = true ∧ s.irq.l0 = true) ∧
      ∃ x, x < 512 ∧ deliverable s 0 x = true ∧ s.bit (irqCfg x) 30 = true := by
  have hsleeps : (s.irq.d0 && s.irq.l0) = false ↔ ¬ (s.irq.d0 = true ∧ s.irq.l0 = true) := by
    rw [← Bool.not_eq_true, Bool.and_eq_true]
  simp only [pinsOf, irqWake, Bool.not_eq_false', Bool.and_eq_true, Bool.not_eq_true', beq_iff_eq, List.any_eq_true, mem_hostDeliv,
    hsleeps, and_assoc]

theorem pg_iff (s : State) : (pinsOf s).pg = true ↔ s.pwr.reset = .running := by
  simp only [pinsOf, beq_iff_eq]

theorem pwrWarnN_iff (s : State) : (pinsOf s).pwrWarnN = false ↔
    (s.pwr.reset = .running ∧ s.bit R.pwrStatus 3 = true) ∨ (s.pwr.reset = .held ∧ s.pwr.retained = true) := by
  simp only [pinsOf, warnCond, Bool.not_eq_false', Bool.or_eq_true, Bool.and_eq_true, beq_iff_eq]

theorem faultN_iff (s : State) : (pinsOf s).faultN = false ↔
    s.pwr.reset ≠ .running ∨ s.field R.pwrStatus 23 20 ≠ 5 ∨
      (s.bit R.pwrFaultMask 0 = true ∧ s.bit R.pwrStatus 3 = true) ∨
      (s.bit R.pwrFaultMask 1 = true ∧ s.bit R.pwrStatus 7 = true) ∨
      (s.bit R.pwrFaultMask 2 = true ∧ ∃ i, i < 4 ∧ s.reg (R.pwrDrvOff + 4 * i) ≠ 0) ∨
      (s.bit R.pwrFaultMask 3 = true ∧ (s.reg R.pwrMicStuck ≠ 0 ∨ s.reg R.pwrMicOpen ≠ 0)) ∨
      (s.bit R.pwrFaultMask 4 = true ∧ s.bit R.pwrStatus 6 = true) := by
  simp only [pinsOf, faultCond, bit, State.bit, State.regNat, State.field, Bool.not_eq_false', Bool.or_eq_true, Bool.and_eq_true,
    bne_iff_ne, List.any_eq_true, List.mem_range, or_assoc]

/-- Settles O4: the pins are `pinsOf` the state after every step (`settle_pins`), read pin by pin. -/
theorem pinsFollowEveryStep : Obligations.PinsFollowEveryStep := by
  intro s t hstep
  have hpins : t.pins = pinsOf t := after_step settle_pins hstep
  rw [hpins]
  exact ⟨intN_iff t, wakeN_iff t, pg_iff t, pwrWarnN_iff t, faultN_iff t⟩

/-! ### Releases (R318) -/

/-- Released sources are pending. -/
def RelPending (s : State) : Prop := ∀ x, x < 512 → s.irq.rel.contains x = true → s.isPend x = true

/-- Source `x` is released, or its group's hold-off runs. -/
def relOrHeld (s : State) (x : Nat) : Prop :=
  s.irq.rel.contains x = true ∨ (tabGet s.irq.hold (x / 32)).isSome = true

theorem releasesTrue_iff (s : State) :
    ReleasesTrue s ↔ RelPending s ∧ ∀ x, x < 512 → s.isPend x = true → relOrHeld s x :=
  ⟨fun h => ⟨fun x hx => (h x hx).1, fun x hx => (h x hx).2⟩, fun h x hx => ⟨h.1 x hx, h.2 x hx⟩⟩

theorem mem_insertBy {α : Type} {key : α → Nat} {a x : α} {l : List α} : x ∈ insertBy key a l ↔ x = a ∨ x ∈ l := by
  induction l with
  | nil => simp [insertBy]
  | cons b t ih =>
    unfold insertBy
    split
    · simp only [List.mem_cons, ih]; tauto
    · simp only [List.mem_cons]

theorem mem_sortBy {α : Type} {key : α → Nat} {x : α} {l : List α} : x ∈ sortBy key l ↔ x ∈ l := by
  suffices H : ∀ (l acc : List α), x ∈ l.foldl (fun acc a => insertBy key a acc) acc ↔ x ∈ l ∨ x ∈ acc by
    rw [sortBy, H l []]
    simp
  intro l
  induction l with
  | nil => simp
  | cons a t ih =>
    intro acc
    rw [List.foldl_cons, ih, mem_insertBy, List.mem_cons]
    tauto

theorem dropReleased_relPending (s : State) : RelPending (dropReleased s) := by
  intro x _ h
  have hmem : x ∈ s.irq.rel.filter (s.isPend ·) := List.contains_iff_mem.mp h
  exact (List.mem_filter.mp hmem).2

/-- What releasing one group does: releases more, of pending sources, and leaves its own group released or held. -/
structure GroupReleased (g : Nat) (s t : State) : Prop where
  regs : t.regs = s.regs
  grows : ∀ x, s.irq.rel.contains x = true → t.irq.rel.contains x = true
  pending : ∀ x, t.irq.rel.contains x = true → s.irq.rel.contains x = true ∨ s.isPend x = true
  holds : ∀ k, (tabGet s.irq.hold k).isSome = true → (tabGet t.irq.hold k).isSome = true
  done : ∀ x, x / 32 = g → s.isPend x = true → relOrHeld t x

theorem isSome_tabSet {α : Type} (t : Tab α) (i k : Nat) (a : α) (h : (tabGet t k).isSome = true) :
    (tabGet (tabSet t i a) k).isSome = true := by
  by_cases hk : k = i
  · rw [hk, tabGet_tabSet_self, Option.isSome_some]
  · rwa [tabGet_tabSet_ne t a hk]

/-- The sources of group `g` that `releaseGroup` adds. -/
def freshOf (s : State) (g : Nat) : List Nat :=
  (List.range 32).filterMap fun b =>
    if (s.reg (R.irqPend + 4 * g)).toNat.testBit b && !s.irq.rel.contains (32 * g + b) then some (32 * g + b) else none

theorem mem_freshOf {s : State} {g x : Nat} :
    x ∈ freshOf s g ↔ x / 32 = g ∧ s.isPend x = true ∧ s.irq.rel.contains x = false := by
  have hbit : ∀ b, b < 32 → s.isPend (32 * g + b) = (s.reg (R.irqPend + 4 * g)).toNat.testBit b := by
    intro b hb
    rw [State.isPend, State.bit, show (32 * g + b) / 32 * 4 = 4 * g by omega, show (32 * g + b) % 32 = b by omega]
  simp only [freshOf, List.mem_filterMap, List.mem_range, Option.ite_none_right_eq_some, Option.some.injEq, Bool.and_eq_true,
    Bool.not_eq_true']
  constructor
  · rintro ⟨b, hb, ⟨hpend, hrel⟩, rfl⟩
    exact ⟨by omega, (hbit b hb).trans hpend, hrel⟩
  · rintro ⟨hg, hpend, hrel⟩
    have hx : 32 * g + x % 32 = x := by omega
    refine ⟨x % 32, by omega, ⟨?_, ?_⟩, hx⟩
    · rw [← hbit _ (by omega), hx, hpend]
    · rw [hx, hrel]

theorem releaseGroup_released (s : State) (g : Nat) : GroupReleased g s (releaseGroup s g) := by
  have unchanged : (∀ x, x / 32 = g → s.isPend x = true → relOrHeld s x) → GroupReleased g s s := fun h =>
    ⟨rfl, fun _ => id, fun _ => .inl, fun _ => id, h⟩
  unfold releaseGroup
  split
  case isTrue hheld => exact unchanged fun x hx _ => .inr (hx ▸ hheld)
  case isFalse =>
  dsimp only
  split
  case isTrue hzero =>
    refine unchanged fun x hx hpend => ?_
    rw [State.isPend, State.bit, hx, Nat.mul_comm g 4, hzero] at hpend
    simp at hpend
  case isFalse =>
  split
  case isTrue hnone =>
    refine unchanged fun x hx hpend => .inl ?_
    by_contra hrel
    have hmem : x ∈ freshOf s g := mem_freshOf.mpr ⟨hx, hpend, by simpa using hrel⟩
    rw [freshOf, List.isEmpty_iff.mp hnone] at hmem
    cases hmem
  case isFalse =>
    have hmem : ∀ x, (sortBy id (s.irq.rel ++ freshOf s g)).contains x = true ↔
        s.irq.rel.contains x = true ∨ x ∈ freshOf s g := by
      intro x
      rw [List.contains_iff_mem, mem_sortBy, List.mem_append, List.contains_iff_mem]
    refine ⟨rfl, fun x hx => (hmem x).mpr (.inl hx), fun x hx => ?_, fun k hk => ?_, fun x hx hpend => .inl ?_⟩
    · exact ((hmem x).mp hx).imp_right fun h => (mem_freshOf.mp h).2.1
    · dsimp only
      split
      · exact hk
      · split
        · split
          · exact isSome_tabSet _ _ _ _ hk
          · exact hk
        · exact isSome_tabSet _ _ _ _ hk
    · refine (hmem x).mpr ?_
      by_cases hrel : s.irq.rel.contains x = true
      · exact .inl hrel
      · exact .inr (mem_freshOf.mpr ⟨hx, hpend, by simpa using hrel⟩)

theorem isPend_congr {s t : State} (h : t.regs = s.regs) (x : Nat) : t.isPend x = s.isPend x := by
  simp only [State.isPend, State.bit, State.reg, h]

/-- Releasing the groups of a list leaves each of them released or held, and what is released is pending. -/
theorem releaseGroups_true (l : List Nat) (s : State) (hs : RelPending s) :
    RelPending (l.foldl releaseGroup s) ∧ (l.foldl releaseGroup s).regs = s.regs ∧
      ∀ x, x < 512 → s.isPend x = true → x / 32 ∈ l ∨ relOrHeld s x → relOrHeld (l.foldl releaseGroup s) x := by
  induction l generalizing s with
  | nil => exact ⟨hs, rfl, fun x _ _ h => h.resolve_left (by simp)⟩
  | cons g l ih =>
    have hg := releaseGroup_released s g
    have hpend := isPend_congr hg.regs
    have hrel : RelPending (releaseGroup s g) := fun x hx h => by
      rw [hpend]
      exact (hg.pending x h).elim (hs x hx) id
    obtain ⟨h1, h2, h3⟩ := ih _ hrel
    refine ⟨h1, h2.trans hg.regs, fun x hx hp h => h3 x hx ((hpend x).trans hp) ?_⟩
    rcases h with h | h | h
    · rcases List.mem_cons.mp h with h | h
      · exact .inr (hg.done x h hp)
      · exact .inl h
    · exact .inr (.inl (hg.grows x h))
    · exact .inr (.inr (hg.holds _ h))

theorem releaseAll_releasesTrue (s : State) (hs : RelPending s) : ReleasesTrue (releaseAll s) := by
  obtain ⟨hrel, hregs, hdone⟩ := releaseGroups_true (List.range 16) s hs
  refine (releasesTrue_iff _).mpr ⟨hrel, fun x hx hpend => ?_⟩
  have hgroup : x / 32 < 16 := by omega
  exact hdone x hx ((isPend_congr hregs x) ▸ hpend) (.inl (List.mem_range.mpr hgroup))

theorem isPend_setReg_ne (s : State) {a x : Nat} (v : Word) (hx : x < 512) (ha : a < 0x20100 ∨ 0x20140 ≤ a) :
    (s.setReg a v).isPend x = s.isPend x := by
  have hne : R.irqPend + x / 32 * 4 ≠ a := by
    show 0x20100 + x / 32 * 4 ≠ a
    omega
  simp only [State.isPend, State.bit, reg_setReg_ne s v hne]

/-- Writes outside the pending words keep the releases. -/
theorem releasesTrue_setReg {s : State} {a : Nat} (v : Word) (ha : a < 0x20100 ∨ 0x20140 ≤ a) (hs : ReleasesTrue s) :
    ReleasesTrue (s.setReg a v) := by
  intro x hx
  rw [isPend_setReg_ne s v hx ha]
  exact hs x hx

theorem isPend_setPend_self (s : State) (x : Nat) (v : Bool) : (s.setPend x v).isPend x = v :=
  bit_setBit_self _ _ _ (Nat.mod_lt _ (by decide))

theorem isPend_setPend_ne (s : State) {x y : Nat} (v : Bool) (h : y ≠ x) : (s.setPend x v).isPend y = s.isPend y := by
  unfold State.isPend State.setPend
  by_cases hw : y / 32 = x / 32
  · have hb : y % 32 ≠ x % 32 := by omega
    rw [hw, bit_setBit_ne _ _ _ (Nat.mod_lt _ (by decide)) hb]
  · have ha : R.irqPend + y / 32 * 4 ≠ R.irqPend + x / 32 * 4 := by omega
    simp only [State.bit, reg_setBit_ne _ _ _ ha]

theorem contains_filter_ne (l : List Nat) (x y : Nat) : (l.filter (· != x)).contains y = (l.contains y && y != x) := by
  rw [Bool.eq_iff_iff, List.contains_iff_mem, List.mem_filter, Bool.and_eq_true, List.contains_iff_mem]

/-- A source that stops pending and is released no more. -/
theorem releasesTrue_unpend {s : State} (x : Nat) (hs : ReleasesTrue s) :
    ReleasesTrue { s.setPend x false with irq := { s.irq with rel := s.irq.rel.filter (· != x) } } := by
  intro y hy
  show ((s.irq.rel.filter (· != x)).contains y = true → (s.setPend x false).isPend y = true) ∧
    ((s.setPend x false).isPend y = true → (s.irq.rel.filter (· != x)).contains y = true ∨ _)
  rw [contains_filter_ne]
  by_cases hyx : y = x
  · subst hyx
    simp [isPend_setPend_self]
  · rw [isPend_setPend_ne _ _ hyx]
    simpa [hyx] using hs y hy

theorem fallbackOne_releasesTrue (s : State) (hs : ReleasesTrue s) : ReleasesTrue (fallbackOne s) := by
  unfold fallbackOne
  split
  · exact hs
  · next src _ =>
    dsimp only
    refine releasesTrue_setReg _ (by decide) (releasesTrue_setReg _ (by decide) ?_)
    refine releasesTrue_setReg _ (.inr ?_) (releasesTrue_setReg _ (.inr ?_) (releasesTrue_unpend src hs))
    · exact Nat.le_trans (show 0x20140 ≤ R.irqFbLog by decide) (Nat.le_trans (Nat.le_add_right _ _) (Nat.le_add_right _ _))
    · exact Nat.le_trans (show 0x20140 ≤ R.irqFbLog by decide) (Nat.le_add_right _ _)

/-- What every step of a fold keeps, the fold keeps. -/
theorem foldl_keeps {α β : Type} {P : β → Prop} {f : β → α → β} (l : List α) (hf : ∀ b a, a ∈ l → P b → P (f b a)) {b : β} (hb : P b) :
    P (l.foldl f b) := by
  induction l generalizing b with
  | nil => exact hb
  | cons a l ih => exact ih (fun b x hx => hf b x (List.mem_cons_of_mem _ hx)) (hf b a List.mem_cons_self hb)

theorem fallbackAll_releasesTrue (s : State) (hs : ReleasesTrue s) : ReleasesTrue (fallbackAll s) := by
  unfold fallbackAll
  split
  · exact foldl_keeps _ (fun u _ _ => fallbackOne_releasesTrue u) hs
  · exact hs

/-! ### Messages to the host (R322, R522) -/

/-- `t` is `s` but for the pending bits of the MSI-X structure and messages that left. -/
structure MsixOnly (s t : State) : Prop where
  irq : t.irq = s.irq
  reg : ∀ a, a ≠ R.glbMsixPba → t.reg a = s.reg a

theorem MsixOnly.refl (s : State) : MsixOnly s s := ⟨rfl, fun _ _ => rfl⟩

theorem MsixOnly.trans {a b c : State} (h1 : MsixOnly a b) (h2 : MsixOnly b c) : MsixOnly a c :=
  ⟨h2.irq.trans h1.irq, fun x hx => (h2.reg x hx).trans (h1.reg x hx)⟩

theorem msixOnly_pba (s : State) (i : Nat) (v : Bool) : MsixOnly s (s.setBit R.glbMsixPba i v) :=
  ⟨rfl, fun _ ha => reg_setBit_ne s i v ha⟩

/-- Vector `v` of a state is masked (R522). -/
def vecMasked (s : State) (v : Nat) : Bool := s.bit (R.glbMsixTable + 16 * v + 12) 0

/-- The message of vector `v` leaves when it is owed and not masked. -/
def msixSendOne (s : State) (v : Nat) : State :=
  if s.bit R.glbMsixPba v && !s.bit (R.glbMsixTable + 16 * v + 12) 0 then
    (s.setBit R.glbMsixPba v false).emit
      (.msix (s.regNat (R.glbMsixTable + 16 * v) + 2 ^ 32 * s.regNat (R.glbMsixTable + 16 * v + 4))
        (s.regNat (R.glbMsixTable + 16 * v + 8)))
  else s

theorem msixSend_eq (s : State) :
    msixSend s = if s.linkUp && s.irq.d0 && s.irq.l0 then (List.range 32).foldl msixSendOne s else s := rfl

theorem msixOnly_sendOne (s : State) (v : Nat) : MsixOnly s (msixSendOne s v) := by
  unfold msixSendOne
  split
  · exact ⟨rfl, fun a ha => (reg_emit _ _ a).trans (reg_setBit_ne s v false ha)⟩
  · exact .refl s

theorem msixOnly_foldl {α : Type} {f : State → α → State} (l : List α) (hf : ∀ s a, a ∈ l → MsixOnly s (f s a)) (s : State) :
    MsixOnly s (l.foldl f s) :=
  foldl_keeps (P := MsixOnly s) l (fun b a ha hb => hb.trans (hf b a ha)) (.refl s)

theorem msixOnly_msixSend (s : State) : MsixOnly s (msixSend s) := by
  rw [msixSend_eq]
  split
  · exact msixOnly_foldl _ (fun u v _ => msixOnly_sendOne u v) s
  · exact .refl s

theorem msixOnly_owe (s : State) {v : Nat} (hv : v < 32) : MsixOnly s (msixOwe s v) := by
  have hword : v / 32 * 4 = 0 := by omega
  rw [msixOwe, hword]
  exact msixOnly_pba s _ true

theorem MsixOnly.releasesTrue {s t : State} (h : MsixOnly s t) (hs : ReleasesTrue s) : ReleasesTrue t := by
  intro x hx
  have hreg : t.reg (R.irqPend + x / 32 * 4) = s.reg (R.irqPend + x / 32 * 4) := h.reg _ (by
    show 0x20100 + x / 32 * 4 ≠ 0x9000
    omega)
  rw [State.isPend, State.bit, hreg, h.irq]
  exact hs x hx

/-- What the controller does before the messages that are owed leave. -/
def settledToSend (u : State) : State :=
  let s := fallbackAll (releaseAll (dropReleased u))
  let fresh := (hostDeliv s).filter fun x => !s.irq.deliv.contains x
  let v := if hostIntN s then s else fresh.foldl (fun s x => msixOwe s (irqVec s x)) s
  { v with irq := { v.irq with deliv := hostDeliv s } }

theorem settleIrq_eq (u : State) : settleIrq u = msixSend (settledToSend u) := rfl

theorem settledToSend_releasesTrue (u : State) : ReleasesTrue (settledToSend u) := by
  have hs : ReleasesTrue (fallbackAll (releaseAll (dropReleased u))) :=
    fallbackAll_releasesTrue _ (releaseAll_releasesTrue _ (dropReleased_relPending u))
  unfold settledToSend
  dsimp only
  generalize fallbackAll (releaseAll (dropReleased u)) = s at hs
  split
  · exact hs
  · exact (msixOnly_foldl _ (fun t x _ => msixOnly_owe t (irqVec_lt t x)) s).releasesTrue hs

/-- Settles O5: `releaseAll` leaves every pending source released or held (`releaseAll_releasesTrue`), and fallback, messages and
pins keep it so. -/
theorem releasesFollowEveryStep : Obligations.ReleasesFollowEveryStep := by
  intro s t hstep
  refine after_step (P := ReleasesTrue) (fun u => ?_) hstep
  exact (msixOnly_msixSend _).releasesTrue (settledToSend_releasesTrue u)

/-- No message is owed to an unmasked vector. -/
def oweMasked (s : State) (v : Nat) : Prop := s.bit R.glbMsixPba v = true → vecMasked s v = true

theorem msixTable_ne_pba {v : Nat} (hv : v < 32) : R.glbMsixTable + 16 * v + 12 ≠ R.glbMsixPba := by
  show 0x8000 + 16 * v + 12 ≠ 0x9000
  omega

theorem MsixOnly.vecMasked_eq {s t : State} (h : MsixOnly s t) {v : Nat} (hv : v < 32) : vecMasked t v = vecMasked s v := by
  simp only [vecMasked, State.bit, h.reg _ (msixTable_ne_pba hv)]

theorem msixSendOne_self (s : State) {v : Nat} (hv : v < 32) : oweMasked (msixSendOne s v) v := by
  intro howed
  rw [(msixOnly_sendOne s v).vecMasked_eq hv]
  unfold msixSendOne at howed
  by_cases hmask : vecMasked s v = true
  · exact hmask
  · have hopen : s.bit (R.glbMsixTable + 16 * v + 12) 0 = false := Bool.not_eq_true _ ▸ hmask
    rw [hopen] at howed
    cases hb : s.bit R.glbMsixPba v with
    | false => simp [hb] at howed
    | true =>
      rw [hb, if_pos (by decide)] at howed
      exact absurd ((bit_setBit_self s _ false hv).symm.trans howed) (by decide)

theorem msixSendOne_ne (s : State) {v w : Nat} (hv : v < 32) (hw : w < 32) (hs : oweMasked s w) : oweMasked (msixSendOne s v) w := by
  by_cases hne : w = v
  · subst hne
    exact msixSendOne_self s hw
  · intro howed
    rw [(msixOnly_sendOne s v).vecMasked_eq hw]
    refine hs ?_
    unfold msixSendOne at howed
    split at howed
    · exact (bit_setBit_ne s _ false hv hne).symm.trans howed
    · exact howed

/-- Every vector of a list was looked at. -/
theorem msixSends_oweMasked (l : List Nat) (hl : ∀ v ∈ l, v < 32) {w : Nat} (hw : w < 32) (s : State)
    (h : w ∈ l ∨ oweMasked s w) : oweMasked (l.foldl msixSendOne s) w := by
  induction l generalizing s with
  | nil => exact h.resolve_left (by simp)
  | cons v l ih =>
    have hv : v < 32 := hl v List.mem_cons_self
    refine ih (fun x hx => hl x (List.mem_cons_of_mem _ hx)) _ ?_
    rcases h with h | h
    · rcases List.mem_cons.mp h with h | h
      · exact .inr (h ▸ msixSendOne_self s (h ▸ hv))
      · exact .inl h
    · exact .inr (msixSendOne_ne s hv hw h)

theorem settle_reg (u : State) (a : Nat) : (settle u).reg a = (msixSend (settledToSend u)).reg a := rfl

theorem settle_irq (u : State) : (settle u).irq = (settledToSend u).irq := (msixOnly_msixSend _).irq

theorem settle_linkUp (u : State) : (settle u).linkUp = (settledToSend u).linkUp := by
  simp only [State.linkUp, State.bit, settle_reg, (msixOnly_msixSend _).reg R.irqStatus (by decide)]

/-- With the link up in L0 and the function in D0, sending leaves no message owed to an unmasked vector. -/
theorem msixSend_oweMasked (s : State) (hlink : s.linkUp = true) (hd0 : s.irq.d0 = true) (hl0 : s.irq.l0 = true) {v : Nat}
    (hv : v < 32) : oweMasked (msixSend s) v := by
  rw [msixSend_eq, if_pos (by rw [hlink, hd0, hl0]; rfl)]
  exact msixSends_oweMasked _ (fun x hx => List.mem_range.mp hx) hv _ (.inl (List.mem_range.mpr hv))

theorem settle_oweMasked (u : State) (hlink : (settle u).linkUp = true) (hd0 : (settle u).irq.d0 = true)
    (hl0 : (settle u).irq.l0 = true) {v : Nat} (hv : v < 32) : oweMasked (settle u) v := by
  rw [settle_linkUp] at hlink
  rw [settle_irq] at hd0 hl0
  have hsent := msixSend_oweMasked _ hlink hd0 hl0 hv
  simp only [oweMasked, vecMasked, State.bit, ← settle_reg] at hsent
  exact hsent

/-- Settles O6: with the link up, every step looks at every vector (`msixSends_oweMasked`). -/
theorem messagesLeaveEveryStep : Obligations.MessagesLeaveEveryStep := by
  intro s t hstep hlink hd0 hl0 v hv
  obtain ⟨u, hu⟩ := step_eq_settle s
  rw [hu] at hstep
  injection hstep with ht
  subst ht
  exact settle_oweMasked u hlink hd0 hl0 hv

/-! ### Reset -/

theorem reset_irqPend (g : Nat) (hg : g < 16) : State.reset.reg (R.irqPend + 4 * g) = 0 := by
  have h : ∀ g : Fin 16, State.reset.reg (R.irqPend + 4 * g.val) = 0 := by decide +kernel
  exact h ⟨g, hg⟩

theorem reset_irqCfg (src : Nat) (hsrc : src < 512) : State.reset.reg (irqCfg src) = 0 := by
  have h : ∀ x : Fin 512, State.reset.reg (irqCfg x.val) = 0 := by decide +kernel
  exact h ⟨src, hsrc⟩

theorem reset_isPend (x : Nat) (hx : x < 512) : State.reset.isPend x = false := by
  rw [State.isPend, State.bit, Nat.mul_comm, reset_irqPend (x / 32) (by omega)]
  exact Nat.zero_testBit _

/-- Settles O7: nothing is pending (`reset_isPend`) or released at reset. -/
theorem resetMeetsTheInvariants : Obligations.ResetMeetsTheInvariants := by
  refine ⟨by unfold PinsTrue; decide +kernel, fun x hx => ⟨fun h => ?_, fun h => ?_⟩, by decide +kernel, reset_memWf, rfl⟩
  · cases h
  · exact absurd ((reset_isPend x hx).symm.trans h) (by decide)

theorem reset_grpHold (g : Nat) (hg : g < 16) : grpHoldRead State.reset g = 0 := by
  have h : ∀ g : Fin 16, grpHoldRead State.reset g.val = 0 := by decide +kernel
  exact h ⟨g, hg⟩

theorem reset_stackStat (tgt : Nat) : stackStat State.reset tgt = 0x0003FF00 := by
  have hstack : irqStack State.reset tgt = [] := rfl
  have hfrozen : tabGet State.reset.irq.frozen tgt = none := rfl
  simp only [stackStat, hstack, hfrozen]
  decide

/-- Settles O8: the reset values of the register tables. -/
theorem resetValues : Obligations.ResetValues := by
  unfold Obligations.ResetValues
  dsimp only
  refine ⟨by decide +kernel, by decide +kernel, by decide +kernel, by decide +kernel, by decide +kernel, by decide +kernel,
    by decide +kernel, by decide +kernel, by decide +kernel, by decide +kernel, by decide +kernel, ?_, reset_irqCfg, ?_⟩
  · exact fun g hg => ⟨reset_irqPend g hg, reset_grpHold g hg⟩
  · exact fun tgt _ => reset_stackStat tgt

end Sys2Proof.Machine
end

section
/-! PROOFS. Words of program memory (R204 to R224): the decoder reads every field where the encoder put it, format by format. Obligation
O9. -/

namespace Sys2Proof.Machine

/-! ### Fields and flags of a number -/

theorem b2n_lt (b : Bool) : b2n b < 2 := by cases b <;> decide

/-- A flag is read where it was put. -/
theorem ibit_of_div {n i : Nat} {b : Bool} (h : n / 2 ^ i % 2 = b2n b) : ibit n i = b := by
  rw [ibit, Nat.testBit_eq_decide_div_mod_eq, h]
  cases b <;> rfl

theorem ibit_true_of_div {n i : Nat} (h : n / 2 ^ i % 2 = 1) : ibit n i = true := ibit_of_div (b := true) h

theorem ibit_false_of_div {n i : Nat} (h : n / 2 ^ i % 2 = 0) : ibit n i = false := ibit_of_div (b := false) h

/-- Bits that hold zero meet any mask of theirs in zero. -/
theorem and_ones_eq_zero {n lo w : Nat} (h : n / 2 ^ lo % 2 ^ w = 0) : n &&& (2 ^ w - 1) * 2 ^ lo = 0 := by
  refine Nat.eq_of_testBit_eq fun i => ?_
  rw [Nat.testBit_and, Nat.testBit_mul_two_pow, Nat.testBit_two_pow_sub_one, Nat.zero_testBit]
  by_cases hi : lo ≤ i ∧ i - lo < w
  · have hbit : (n / 2 ^ lo % 2 ^ w).testBit (i - lo) = n.testBit i := by
      rw [Nat.testBit_mod_two_pow, Nat.testBit_div_two_pow, Nat.sub_add_cancel hi.1]
      simp [hi.2]
    rw [← hbit, h, Nat.zero_testBit, Bool.false_and]
  · by_cases h1 : lo ≤ i
    · have h2 : ¬ i - lo < w := fun h2 => hi ⟨h1, h2⟩
      simp [h1, h2]
    · simp [h1]

/-! ### The three formats -/

theorem wd_toNat (v : Word) : wd v.toNat = v := by simp [wd]

theorem ecDecode_p {c : Nat} {v : BitVec 64} (h : ib v.toNat 63 62 = 0) :
    ecDecode c v = (decP c v.toNat).getD (.illegalInstruction c) := by
  simp only [ecDecode, h]

theorem ecDecode_c {c : Nat} {v : BitVec 64} (h : ib v.toNat 63 62 = 1) :
    ecDecode c v = (decC c v.toNat).getD (.illegalInstruction c) := by
  simp only [ecDecode, h]

theorem ecDecode_x {c : Nat} {v : BitVec 64} (h : ib v.toNat 63 62 = 2) :
    ecDecode c v = (decX c v.toNat).getD (.illegalInstruction c) := by
  simp only [ecDecode, h]

theorem toNat_word64 {n : Nat} (h : n < 2 ^ 64) : (BitVec.ofNat 64 n).toNat = n := by
  rw [BitVec.toNat_ofNat, Nat.mod_eq_of_lt h]

/-! ### Moves and updates (R207, R208) -/

theorem encMv_lt {m : Mv} (h : mvOk m = true) : encMv m < 2 ^ 12 := by
  cases m <;> simp only [mvOk, Bool.and_eq_true, decide_eq_true_eq] at h <;> simp only [encMv] <;> omega

theorem decMv_encMv {m : Mv} (h : mvOk m = true) : decMv (encMv m) = some m := by
  cases m with
  | none => rfl
  | ld d p =>
    simp only [mvOk, Bool.and_eq_true, decide_eq_true_eq] at h
    have hlow : ib (encMv (.ld d p)) 1 0 = 0 := by simp only [ib, encMv]; omega
    have hkind : ib (encMv (.ld d p)) 11 9 = 1 := by simp only [ib, encMv]; omega
    have hd : ib (encMv (.ld d p)) 8 5 = d := by simp only [ib, encMv]; omega
    have hp : ib (encMv (.ld d p)) 4 2 = p := by simp only [ib, encMv]; omega
    simp only [decMv, hlow, hkind, hd, hp]
    rfl
  | st d p =>
    simp only [mvOk, Bool.and_eq_true, decide_eq_true_eq] at h
    have hlow : ib (encMv (.st d p)) 1 0 = 0 := by simp only [ib, encMv]; omega
    have hkind : ib (encMv (.st d p)) 11 9 = 2 := by simp only [ib, encMv]; omega
    have hd : ib (encMv (.st d p)) 8 5 = d := by simp only [ib, encMv]; omega
    have hp : ib (encMv (.st d p)) 4 2 = p := by simp only [ib, encMv]; omega
    simp only [decMv, hlow, hkind, hd, hp]
    rfl
  | sta a sh p =>
    simp only [mvOk, Bool.and_eq_true, decide_eq_true_eq] at h
    have hlow : ib (encMv (.sta a sh p)) 1 0 = 0 := by simp only [ib, encMv]; omega
    have hkind : ib (encMv (.sta a sh p)) 11 9 = 3 := by simp only [ib, encMv]; omega
    have ha : ib (encMv (.sta a sh p)) 8 7 = a := by simp only [ib, encMv]; omega
    have hsh : ib (encMv (.sta a sh p)) 6 5 = sh := by simp only [ib, encMv]; omega
    have hp : ib (encMv (.sta a sh p)) 4 2 = p := by simp only [ib, encMv]; omega
    simp only [decMv, hlow, hkind, ha, hsh, hp]
    rfl

theorem encUpd_lt {u : Upd} (h : updOk u = true) : encUpd u < 2 ^ 8 := by
  cases u <;> simp only [updOk, Bool.and_eq_true, decide_eq_true_eq] at h <;> simp only [encUpd] <;> omega

theorem decUpd_encUpd {u : Upd} (h : updOk u = true) : decUpd (encUpd u) = some u := by
  cases u with
  | none => rfl
  | upd n op =>
    simp only [updOk, Bool.and_eq_true, decide_eq_true_eq] at h
    have hlow : ib (encUpd (.upd n op)) 1 0 = 0 := by simp only [ib, encUpd]; omega
    have hen : ibit (encUpd (.upd n op)) 7 = true := ibit_true_of_div (by simp only [encUpd]; omega)
    have hn : ib (encUpd (.upd n op)) 6 4 = n := by simp only [ib, encUpd]; omega
    have hop : ib (encUpd (.upd n op)) 3 2 = op := by simp only [ib, encUpd]; omega
    simp only [decUpd, hlow, hen, hn, hop]
    rfl

/-! ### Format P (R205) -/

/-- The parts of a P word: slot A, moves, updates. -/
theorem encP_parts {a : Nat} {q : Par} (ha : a < 2 ^ 22) (hq : parOk q = true) :
    encP a q < 2 ^ 62 ∧ ib (encP a q) 61 40 = a ∧ ib (encP a q) 39 28 = encMv q.m0 ∧ ib (encP a q) 27 16 = encMv q.m1 ∧
      ib (encP a q) 15 8 = encUpd q.u0 ∧ ib (encP a q) 7 0 = encUpd q.u1 := by
  simp only [parOk, Bool.and_eq_true] at hq
  obtain ⟨⟨⟨h0, h1⟩, h2⟩, h3⟩ := hq
  have l0 := encMv_lt h0
  have l1 := encMv_lt h1
  have l2 := encUpd_lt h2
  have l3 := encUpd_lt h3
  unfold encP ib
  generalize encMv q.m0 = m0 at *
  generalize encMv q.m1 = m1 at *
  generalize encUpd q.u0 = u0 at *
  generalize encUpd q.u1 = u1 at *
  refine ⟨?_, ?_, ?_, ?_, ?_, ?_⟩ <;> omega

theorem decP_encP {c a : Nat} {q : Par} (ha : a < 2 ^ 22) (hq : parOk q = true) :
    decP c (encP a q) = decSlotA c a q (emptySlot c q) := by
  obtain ⟨-, hslot, hm0, hm1, hu0, hu1⟩ := encP_parts ha hq
  simp only [parOk, Bool.and_eq_true] at hq
  obtain ⟨⟨⟨h0, h1⟩, h2⟩, h3⟩ := hq
  rw [decP, hslot, hm0, hm1, hu0, hu1, decMv_encMv h0, decMv_encMv h1, decUpd_encUpd h2, decUpd_encUpd h3]

/-- A P word decodes to what its slot A spells. -/
theorem ecDecode_encP {c a : Nat} {q : Par} {i : Instr} (ha : a < 2 ^ 22) (hq : parOk q = true)
    (h : decSlotA c a q (emptySlot c q) = some i) : ecDecode c (BitVec.ofNat 64 (encP a q)) = i := by
  have hlt := (encP_parts ha hq).1
  have hfmt : ib (encP a q) 63 62 = 0 := by unfold ib; omega
  have hnat := toNat_word64 (Nat.lt_trans hlt (by decide))
  rw [ecDecode_p (hnat.symm ▸ hfmt), hnat, decP_encP ha hq, h, Option.getD_some]

/-! ### Slot A (R206): the fields of each layout -/

/-- The low bits of slot A that a layout leaves clear. -/
theorem low_clear {n k : Nat} (h : n % 2 ^ 17 % 2 ^ k = 0) : n % 2 ^ 17 &&& (2 ^ k - 1) = 0 := by
  rw [Nat.and_two_pow_sub_one_eq_mod, h]

/-- MPY and MAC. -/
theorem macSlot_fields {op a x y : Nat} (neg : Bool) (ho : op < 32) (ha : a < 4) (hx : x < 16) (hy : y < 16) :
    let n := op * 2 ^ 17 + a * 2 ^ 15 + x * 2 ^ 11 + y * 2 ^ 7 + b2n neg * 2 ^ 6
    n < 2 ^ 22 ∧ ib n 21 17 = op ∧ ib n 16 15 = a ∧ ib n 14 11 = x ∧ ib n 10 7 = y ∧ ibit n 6 = neg ∧ n % 2 ^ 17 &&& 0x3F = 0 := by
  have hneg := b2n_lt neg
  unfold ib
  refine ⟨?_, ?_, ?_, ?_, ?_, ibit_of_div ?_, low_clear (k := 6) ?_⟩ <;> omega

theorem fir4Slot_fields {x k : Nat} (neg clr : Bool) (hx : x < 16) (hk : k < 4) :
    let n := 0x03 * 2 ^ 17 + x * 2 ^ 13 + k * 2 ^ 11 + b2n neg * 2 ^ 10 + b2n clr * 2 ^ 9
    n < 2 ^ 22 ∧ ib n 21 17 = 0x03 ∧ ib n 16 13 = x ∧ ib n 12 11 = k ∧ ibit n 10 = neg ∧ ibit n 9 = clr ∧
      n % 2 ^ 17 &&& 0x1FF = 0 := by
  have hneg := b2n_lt neg
  have hclr := b2n_lt clr
  unfold ib
  refine ⟨?_, ?_, ?_, ?_, ibit_of_div ?_, ibit_of_div ?_, low_clear (k := 9) ?_⟩ <;> omega

/-- DMAC and DMPY. -/
theorem dmacSlot_fields {op h x0 y0 x1 y1 : Nat} (ho : op < 32) (hh : h < 2) (hx0 : x0 < 16) (hy0 : y0 < 16) (hx1 : x1 < 16)
    (hy1 : y1 < 16) :
    let n := op * 2 ^ 17 + h * 2 ^ 16 + x0 * 2 ^ 12 + y0 * 2 ^ 8 + x1 * 2 ^ 4 + y1
    n < 2 ^ 22 ∧ ib n 21 17 = op ∧ ib n 16 16 = h ∧ ib n 15 12 = x0 ∧ ib n 11 8 = y0 ∧ ib n 7 4 = x1 ∧ ib n 3 0 = y1 := by
  unfold ib
  refine ⟨?_, ?_, ?_, ?_, ?_, ?_, ?_⟩ <;> omega

theorem cmacSlot_fields {u v h : Nat} (conj clr : Bool) (hu : u < 8) (hv : v < 8) (hh : h < 2) :
    let n := 0x06 * 2 ^ 17 + u * 2 ^ 14 + v * 2 ^ 11 + h * 2 ^ 10 + b2n conj * 2 ^ 9 + b2n clr * 2 ^ 8
    n < 2 ^ 22 ∧ ib n 21 17 = 0x06 ∧ ib n 16 14 = u ∧ ib n 13 11 = v ∧ ib n 10 10 = h ∧ ibit n 9 = conj ∧ ibit n 8 = clr ∧
      n % 2 ^ 17 &&& 0xFF = 0 := by
  have hconj := b2n_lt conj
  have hclr := b2n_lt clr
  unfold ib
  refine ⟨?_, ?_, ?_, ?_, ?_, ibit_of_div ?_, ibit_of_div ?_, low_clear (k := 8) ?_⟩ <;> omega

theorem acs2Slot_fields {ma mb bm k : Nat} (min : Bool) (ha : ma < 16) (hb : mb < 16) (hm : bm < 16) (hk : k < 8) :
    let n := 0x07 * 2 ^ 17 + ma * 2 ^ 13 + mb * 2 ^ 9 + bm * 2 ^ 5 + k * 2 ^ 2 + b2n min * 2
    n < 2 ^ 22 ∧ ib n 21 17 = 0x07 ∧ ib n 16 13 = ma ∧ ib n 12 9 = mb ∧ ib n 8 5 = bm ∧ ib n 4 2 = k ∧ ibit n 1 = min ∧
      n % 2 ^ 17 &&& 0x1 = 0 := by
  have hmin := b2n_lt min
  unfold ib
  refine ⟨?_, ?_, ?_, ?_, ?_, ?_, ibit_of_div ?_, low_clear (k := 1) ?_⟩ <;> omega

theorem acs1Slot_fields {dst s0 s1 bm : Nat} (min : Bool) (hd : dst < 16) (h0 : s0 < 16) (h1 : s1 < 16) (hm : bm < 16) :
    let n := 0x08 * 2 ^ 17 + dst * 2 ^ 13 + s0 * 2 ^ 9 + s1 * 2 ^ 5 + bm * 2 + b2n min
    n < 2 ^ 22 ∧ ib n 21 17 = 0x08 ∧ ib n 16 13 = dst ∧ ib n 12 9 = s0 ∧ ib n 8 5 = s1 ∧ ib n 4 1 = bm ∧ ibit n 0 = min := by
  have hmin := b2n_lt min
  unfold ib
  refine ⟨?_, ?_, ?_, ?_, ?_, ?_, ibit_of_div ?_⟩ <;> omega

/-- Three registers at [16:13], [12:9] and [8:5]. -/
theorem slot3_fields {op d x y : Nat} (ho : op < 32) (hd : d < 16) (hx : x < 16) (hy : y < 16) :
    slot3 op d x y < 2 ^ 22 ∧ ib (slot3 op d x y) 21 17 = op ∧ ib (slot3 op d x y) 16 13 = d ∧ ib (slot3 op d x y) 12 9 = x ∧
      ib (slot3 op d x y) 8 5 = y ∧ slot3 op d x y % 2 ^ 17 &&& 0x1F = 0 := by
  unfold slot3 ib
  refine ⟨?_, ?_, ?_, ?_, ?_, low_clear (k := 5) ?_⟩ <;> omega

/-- The third register is unused and its place clear. -/
theorem slot3_unary (op d x : Nat) : slot3 op d x 0 % 2 ^ 17 &&& 0x1FF = 0 := by
  unfold slot3
  exact low_clear (k := 9) (by omega)

/-- The destination is unused and its place clear. -/
theorem slot3_cmp (op : Nat) {x y : Nat} (hx : x < 16) (hy : y < 16) : slot3 op 0 x y % 2 ^ 17 &&& 0x1E01F = 0 := by
  have hmask : (0x1E01F : Nat) = (2 ^ 5 - 1) * 2 ^ 0 ||| (2 ^ 4 - 1) * 2 ^ 13 := by decide
  rw [hmask, Nat.and_or_distrib_left]
  unfold slot3
  rw [and_ones_eq_zero (by omega), and_ones_eq_zero (by omega)]
  rfl

theorem shiftImmSlot_fields {kind d x n : Nat} (hk : kind < 4) (hd : d < 16) (hx : x < 16) (hn : n < 32) :
    let m := slot3 0x10 d x 0 + kind * 2 ^ 7 + n
    m < 2 ^ 22 ∧ ib m 21 17 = 0x10 ∧ ib m 16 13 = d ∧ ib m 12 9 = x ∧ ib m 8 7 = kind ∧ ibit m 6 = false ∧ ib m 4 0 = n ∧
      m % 2 ^ 17 &&& 0x20 = 0 := by
  unfold slot3 ib
  refine ⟨?_, ?_, ?_, ?_, ?_, ibit_false_of_div ?_, ?_, and_ones_eq_zero (lo := 5) (w := 1) ?_⟩ <;> omega

theorem shiftRegSlot_fields {kind d x r : Nat} (hk : kind < 4) (hd : d < 16) (hx : x < 16) (hr : r < 16) :
    let m := slot3 0x10 d x 0 + kind * 2 ^ 7 + 2 ^ 6 + r
    m < 2 ^ 22 ∧ ib m 21 17 = 0x10 ∧ ib m 16 13 = d ∧ ib m 12 9 = x ∧ ib m 8 7 = kind ∧ ibit m 6 = true ∧ ib m 3 0 = r ∧
      m % 2 ^ 17 &&& 0x30 = 0 := by
  unfold slot3 ib
  refine ⟨?_, ?_, ?_, ?_, ?_, ibit_true_of_div ?_, ?_, and_ones_eq_zero (lo := 4) (w := 2) ?_⟩ <;> omega

theorem aclrSlot_fields {mask : Nat} (hm : mask < 16) :
    let n := 0x17 * 2 ^ 17 + mask * 2 ^ 13
    n < 2 ^ 22 ∧ ib n 21 17 = 0x17 ∧ ib n 16 13 = mask ∧ n % 2 ^ 17 &&& 0x1FFF = 0 := by
  unfold ib
  refine ⟨?_, ?_, ?_, low_clear (k := 13) ?_⟩ <;> omega

theorem aaddSlot_fields {d x : Nat} (sub : Bool) (hd : d < 4) (hx : x < 4) :
    let n := 0x18 * 2 ^ 17 + d * 2 ^ 15 + x * 2 ^ 13 + b2n sub * 2 ^ 12
    n < 2 ^ 22 ∧ ib n 21 17 = 0x18 ∧ ib n 16 15 = d ∧ ib n 14 13 = x ∧ ibit n 12 = sub ∧ n % 2 ^ 17 &&& 0xFFF = 0 := by
  have hsub := b2n_lt sub
  unfold ib
  refine ⟨?_, ?_, ?_, ?_, ibit_of_div ?_, low_clear (k := 12) ?_⟩ <;> omega

/-- A shift amount within six signed bits comes back. -/
theorem bitsOf_six {n : Int} (h1 : -32 ≤ n) (h2 : n < 32) : bitsOf 6 n < 64 ∧ signedOf 6 (bitsOf 6 n) = n := by
  unfold signedOf bitsOf
  dsimp only
  constructor
  · omega
  · split <;> omega

theorem ashSlot_fields {d x k : Nat} (hd : d < 4) (hx : x < 4) (hk : k < 64) :
    let n := 0x19 * 2 ^ 17 + d * 2 ^ 15 + x * 2 ^ 13 + k * 2 ^ 7
    n < 2 ^ 22 ∧ ib n 21 17 = 0x19 ∧ ib n 16 15 = d ∧ ib n 14 13 = x ∧ ib n 12 7 = k ∧ n % 2 ^ 17 &&& 0x7F = 0 := by
  unfold ib
  refine ⟨?_, ?_, ?_, ?_, ?_, low_clear (k := 7) ?_⟩ <;> omega

theorem arndSlot_fields {d a sh : Nat} (hd : d < 16) (ha : a < 4) (hs : sh < 4) :
    let n := 0x1A * 2 ^ 17 + d * 2 ^ 13 + a * 2 ^ 11 + sh * 2 ^ 9
    n < 2 ^ 22 ∧ ib n 21 17 = 0x1A ∧ ib n 16 13 = d ∧ ib n 12 11 = a ∧ ib n 10 9 = sh ∧ n % 2 ^ 17 &&& 0x1FF = 0 := by
  unfold ib
  refine ⟨?_, ?_, ?_, ?_, ?_, low_clear (k := 9) ?_⟩ <;> omega

theorem aldSlot_fields {a d : Nat} (ha : a < 4) (hd : d < 16) :
    let n := 0x1B * 2 ^ 17 + a * 2 ^ 15 + d * 2 ^ 11
    n < 2 ^ 22 ∧ ib n 21 17 = 0x1B ∧ ib n 16 15 = a ∧ ib n 14 11 = d ∧ n % 2 ^ 17 &&& 0x7FF = 0 := by
  unfold ib
  refine ⟨?_, ?_, ?_, ?_, low_clear (k := 11) ?_⟩ <;> omega

/-! ### Instructions of format P -/

/-- A P instruction is read back: its slot A fits 22 bits, its moves and updates are encodable, and slot A spells it. -/
structure ReadsBackP (i : Instr) (c a : Nat) (q : Par) : Prop where
  slot : a < 2 ^ 22
  par : parOk q = true
  reads : decSlotA c a q (emptySlot c q) = some i

/-- Slot A is empty: the word stands for its first move or its update. -/
theorem readsBack_empty {i : Instr} {c : Nat} {q : Par} (hq : parOk q = true) (h : emptySlot c q = i) : ReadsBackP i c 0 q where
  slot := by decide
  par := hq
  reads := congrArg some h

theorem parOk_mk {m0 m1 : Mv} {u0 u1 : Upd} (h0 : mvOk m0 = true) (h1 : mvOk m1 = true) (h2 : updOk u0 = true)
    (h3 : updOk u1 = true) : parOk { m0 := m0, m1 := m1, u0 := u0, u1 := u1 } = true := by
  rw [parOk, h0, h1, h2, h3]
  rfl

theorem emptySlot_nop (c : Nat) {q : Par} (h : emptyPar q = true) : emptySlot c q = .nop c q := by
  obtain ⟨m0, m1, u0, u1⟩ := q
  cases m0 with
  | none => cases m1 <;> cases u0 <;> simp_all [emptyPar, emptySlot]
  | ld d p => simp [emptyPar] at h
  | st d p => simp [emptyPar] at h
  | sta a sh p => simp [emptyPar] at h

theorem readsBack_slot3 (mk : Nat → Nat → Nat → Nat → Par → Instr) {op c d x y : Nat} {q : Par} (hd : d < 16) (hx : x < 16) (hy : y < 16)
    (hq : parOk q = true) (ho : op < 32)
    (hmk : ∀ a, ib a 21 17 = op → a % 2 ^ 17 &&& 0x1F = 0 →
      decSlotA c a q (emptySlot c q) = some (mk c (ib a 16 13) (ib a 12 9) (ib a 8 5) q)) :
    ReadsBackP (mk c d x y q) c (slot3 op d x y) q := by
  obtain ⟨hlt, hop, h1, h2, h3, hz⟩ := slot3_fields ho hd hx hy
  refine ⟨hlt, hq, ?_⟩
  rw [hmk _ hop hz, h1, h2, h3]

theorem readsBack_slot2 (mk : Nat → Nat → Nat → Par → Instr) {op c d x : Nat} {q : Par} (hd : d < 16) (hx : x < 16)
    (hq : parOk q = true) (ho : op < 32)
    (hmk : ∀ a, ib a 21 17 = op → a % 2 ^ 17 &&& 0x1FF = 0 →
      decSlotA c a q (emptySlot c q) = some (mk c (ib a 16 13) (ib a 12 9) q)) :
    ReadsBackP (mk c d x q) c (slot3 op d x 0) q := by
  obtain ⟨hlt, hop, h1, h2, -, -⟩ := slot3_fields ho hd hx (y := 0) (by decide)
  refine ⟨hlt, hq, ?_⟩
  rw [hmk _ hop (slot3_unary op d x), h1, h2]

/-- Every P instruction is read back from what the encoder puts into slot A. -/
theorem encPar_reads {i : Instr} {a : Nat} {q : Par} (hwf : i.wellFormed = true) (he : encPar i = some (a, q)) :
    ReadsBackP i (instrCore i) a q := by
  cases i with simp only [Instr.wellFormed, Bool.and_eq_true, decide_eq_true_eq] at hwf
  | nop c q =>
    cases he
    obtain ⟨⟨-, hq⟩, hempty⟩ := hwf
    exact readsBack_empty hq (emptySlot_nop c hempty)
  | ld c d p m1 u0 u1 =>
    cases he
    obtain ⟨⟨⟨⟨⟨-, hd⟩, hp⟩, h1⟩, h2⟩, h3⟩ := hwf
    exact readsBack_empty (parOk_mk (by simp [mvOk, hd, hp]) h1 h2 h3) rfl
  | st c d p m1 u0 u1 =>
    cases he
    obtain ⟨⟨⟨⟨⟨-, hd⟩, hp⟩, h1⟩, h2⟩, h3⟩ := hwf
    exact readsBack_empty (parOk_mk (by simp [mvOk, hd, hp]) h1 h2 h3) rfl
  | sta c k sh p m1 u0 u1 =>
    cases he
    obtain ⟨⟨⟨⟨⟨⟨-, hk⟩, hs⟩, hp⟩, h1⟩, h2⟩, h3⟩ := hwf
    exact readsBack_empty (parOk_mk (by simp [mvOk, hk, hs, hp]) h1 h2 h3) rfl
  | addressUpdate c n op u1 =>
    cases he
    obtain ⟨⟨⟨-, hn⟩, hop⟩, h1⟩ := hwf
    exact readsBack_empty (parOk_mk rfl rfl (by simp [updOk, hn, hop]) h1) rfl
  | mpy c k x y neg q =>
    cases he
    obtain ⟨⟨⟨⟨-, hk⟩, hx⟩, hy⟩, hq⟩ := hwf
    obtain ⟨hlt, hop, h1, h2, h3, h4, hz⟩ := macSlot_fields (op := 0x01) neg (by decide) hk hx hy
    exact ⟨hlt, hq, by simp only [decSlotA, instrCore, hop, h1, h2, h3, h4, hz, if_true]⟩
  | mac c k x y neg q =>
    cases he
    obtain ⟨⟨⟨⟨-, hk⟩, hx⟩, hy⟩, hq⟩ := hwf
    obtain ⟨hlt, hop, h1, h2, h3, h4, hz⟩ := macSlot_fields (op := 0x02) neg (by decide) hk hx hy
    exact ⟨hlt, hq, by simp only [decSlotA, instrCore, hop, h1, h2, h3, h4, hz, if_true]⟩
  | fir4 c x k neg clr q =>
    cases he
    obtain ⟨⟨⟨-, hx⟩, hk⟩, hq⟩ := hwf
    obtain ⟨hlt, hop, h1, h2, h3, h4, hz⟩ := fir4Slot_fields neg clr hx hk
    exact ⟨hlt, hq, by simp only [decSlotA, instrCore, hop, h1, h2, h3, h4, hz, if_true]⟩
  | dmac c h x0 y0 x1 y1 q =>
    cases he
    obtain ⟨⟨⟨⟨⟨⟨-, hh⟩, hx0⟩, hy0⟩, hx1⟩, hy1⟩, hq⟩ := hwf
    obtain ⟨hlt, hop, h1, h2, h3, h4, h5⟩ := dmacSlot_fields (op := 0x04) (by decide) hh hx0 hy0 hx1 hy1
    exact ⟨hlt, hq, by simp only [decSlotA, instrCore, hop, h1, h2, h3, h4, h5]⟩
  | dmpy c h x0 y0 x1 y1 q =>
    cases he
    obtain ⟨⟨⟨⟨⟨⟨-, hh⟩, hx0⟩, hy0⟩, hx1⟩, hy1⟩, hq⟩ := hwf
    obtain ⟨hlt, hop, h1, h2, h3, h4, h5⟩ := dmacSlot_fields (op := 0x05) (by decide) hh hx0 hy0 hx1 hy1
    exact ⟨hlt, hq, by simp only [decSlotA, instrCore, hop, h1, h2, h3, h4, h5]⟩
  | cmac c u v h conj clr q =>
    cases he
    obtain ⟨⟨⟨⟨-, hu⟩, hv⟩, hh⟩, hq⟩ := hwf
    obtain ⟨hlt, hop, h1, h2, h3, h4, h5, hz⟩ := cmacSlot_fields conj clr hu hv hh
    exact ⟨hlt, hq, by simp only [decSlotA, instrCore, hop, h1, h2, h3, h4, h5, hz, if_true]⟩
  | acs2 c ma mb bm k min q =>
    cases he
    obtain ⟨⟨⟨⟨⟨-, ha⟩, hb⟩, hm⟩, hk⟩, hq⟩ := hwf
    obtain ⟨hlt, hop, h1, h2, h3, h4, h5, hz⟩ := acs2Slot_fields min ha hb hm hk
    exact ⟨hlt, hq, by simp only [decSlotA, instrCore, hop, h1, h2, h3, h4, h5, hz, if_true]⟩
  | acs1 c dst s0 s1 bm min q =>
    cases he
    obtain ⟨⟨⟨⟨⟨-, hd⟩, h0⟩, h1⟩, hm⟩, hq⟩ := hwf
    obtain ⟨hlt, hop, e1, e2, e3, e4, e5⟩ := acs1Slot_fields min hd h0 h1 hm
    exact ⟨hlt, hq, by simp only [decSlotA, instrCore, hop, e1, e2, e3, e4, e5]⟩
  | add c d x y q =>
    cases he
    obtain ⟨⟨⟨⟨-, hd⟩, hx⟩, hy⟩, hq⟩ := hwf
    exact readsBack_slot3 .add hd hx hy hq (by decide) fun a ho hz => by simp only [decSlotA, ho, hz, if_true]
  | sub c d x y q =>
    cases he
    obtain ⟨⟨⟨⟨-, hd⟩, hx⟩, hy⟩, hq⟩ := hwf
    exact readsBack_slot3 .sub hd hx hy hq (by decide) fun a ho hz => by simp only [decSlotA, ho, hz, if_true]
  | adds c d x y q =>
    cases he
    obtain ⟨⟨⟨⟨-, hd⟩, hx⟩, hy⟩, hq⟩ := hwf
    exact readsBack_slot3 .adds hd hx hy hq (by decide) fun a ho hz => by simp only [decSlotA, ho, hz, if_true]
  | subs c d x y q =>
    cases he
    obtain ⟨⟨⟨⟨-, hd⟩, hx⟩, hy⟩, hq⟩ := hwf
    exact readsBack_slot3 .subs hd hx hy hq (by decide) fun a ho hz => by simp only [decSlotA, ho, hz, if_true]
  | and c d x y q =>
    cases he
    obtain ⟨⟨⟨⟨-, hd⟩, hx⟩, hy⟩, hq⟩ := hwf
    exact readsBack_slot3 .and hd hx hy hq (by decide) fun a ho hz => by simp only [decSlotA, ho, hz, if_true]
  | or c d x y q =>
    cases he
    obtain ⟨⟨⟨⟨-, hd⟩, hx⟩, hy⟩, hq⟩ := hwf
    exact readsBack_slot3 .or hd hx hy hq (by decide) fun a ho hz => by simp only [decSlotA, ho, hz, if_true]
  | xor c d x y q =>
    cases he
    obtain ⟨⟨⟨⟨-, hd⟩, hx⟩, hy⟩, hq⟩ := hwf
    exact readsBack_slot3 .xor hd hx hy hq (by decide) fun a ho hz => by simp only [decSlotA, ho, hz, if_true]
  | min c d x y q =>
    cases he
    obtain ⟨⟨⟨⟨-, hd⟩, hx⟩, hy⟩, hq⟩ := hwf
    exact readsBack_slot3 .min hd hx hy hq (by decide) fun a ho hz => by simp only [decSlotA, ho, hz, if_true]
  | max c d x y q =>
    cases he
    obtain ⟨⟨⟨⟨-, hd⟩, hx⟩, hy⟩, hq⟩ := hwf
    exact readsBack_slot3 .max hd hx hy hq (by decide) fun a ho hz => by simp only [decSlotA, ho, hz, if_true]
  | abs c d x q =>
    cases he
    obtain ⟨⟨⟨-, hd⟩, hx⟩, hq⟩ := hwf
    exact readsBack_slot2 .abs hd hx hq (by decide) fun a ho hz => by simp only [decSlotA, ho, hz, if_true]
  | neg c d x q =>
    cases he
    obtain ⟨⟨⟨-, hd⟩, hx⟩, hq⟩ := hwf
    exact readsBack_slot2 .neg hd hx hq (by decide) fun a ho hz => by simp only [decSlotA, ho, hz, if_true]
  | mov c d x q =>
    cases he
    obtain ⟨⟨⟨-, hd⟩, hx⟩, hq⟩ := hwf
    exact readsBack_slot2 .mov hd hx hq (by decide) fun a ho hz => by simp only [decSlotA, ho, hz, if_true]
  | cmp c x y q =>
    cases he
    obtain ⟨⟨⟨-, hx⟩, hy⟩, hq⟩ := hwf
    obtain ⟨hlt, hop, -, h1, h2, -⟩ := slot3_fields (op := 0x15) (d := 0) (by decide) (by decide) hx hy
    exact ⟨hlt, hq, by simp only [decSlotA, instrCore, hop, h1, h2, slot3_cmp 0x15 hx hy, if_true]⟩
  | shift c kind d x amt q =>
    obtain ⟨⟨⟨⟨⟨-, hk⟩, hd⟩, hx⟩, hamt⟩, hq⟩ := hwf
    cases amt with
    | imm n =>
      cases he
      obtain ⟨hlt, hop, h1, h2, h3, h4, h5, hz⟩ := shiftImmSlot_fields hk hd hx (of_decide_eq_true hamt)
      exact ⟨hlt, hq, by simp only [decSlotA, instrCore, hop, h1, h2, h3, h4, h5, hz, if_true, Bool.false_eq_true, if_false]⟩
    | reg r =>
      cases he
      obtain ⟨hlt, hop, h1, h2, h3, h4, h5, hz⟩ := shiftRegSlot_fields hk hd hx (of_decide_eq_true hamt)
      exact ⟨hlt, hq, by simp only [decSlotA, instrCore, hop, h1, h2, h3, h4, h5, hz, if_true]⟩
  | aclr c mask q =>
    cases he
    obtain ⟨⟨-, hm⟩, hq⟩ := hwf
    obtain ⟨hlt, hop, h1, hz⟩ := aclrSlot_fields hm
    exact ⟨hlt, hq, by simp only [decSlotA, instrCore, hop, h1, hz, if_true]⟩
  | aadd c d x sub q =>
    cases he
    obtain ⟨⟨⟨-, hd⟩, hx⟩, hq⟩ := hwf
    obtain ⟨hlt, hop, h1, h2, h3, hz⟩ := aaddSlot_fields sub hd hx
    exact ⟨hlt, hq, by simp only [decSlotA, instrCore, hop, h1, h2, h3, hz, if_true]⟩
  | ash c d x n q =>
    cases he
    obtain ⟨⟨⟨⟨⟨-, hd⟩, hx⟩, hn1⟩, hn2⟩, hq⟩ := hwf
    obtain ⟨hn, hback⟩ := bitsOf_six hn1 hn2
    obtain ⟨hlt, hop, h1, h2, h3, hz⟩ := ashSlot_fields hd hx hn
    exact ⟨hlt, hq, by simp only [decSlotA, instrCore, hop, h1, h2, h3, hz, hback, if_true]⟩
  | arnd c d k sh q =>
    cases he
    obtain ⟨⟨⟨⟨-, hd⟩, hk⟩, hs⟩, hq⟩ := hwf
    obtain ⟨hlt, hop, h1, h2, h3, hz⟩ := arndSlot_fields hd hk hs
    exact ⟨hlt, hq, by simp only [decSlotA, instrCore, hop, h1, h2, h3, hz, if_true]⟩
  | ald c k d q =>
    cases he
    obtain ⟨⟨⟨-, hk⟩, hd⟩, hq⟩ := hwf
    obtain ⟨hlt, hop, h1, h2, hz⟩ := aldSlot_fields hk hd
    exact ⟨hlt, hq, by simp only [decSlotA, instrCore, hop, h1, h2, hz, if_true]⟩
  | _ => cases he

/-! ### Formats C and X (R209, R210) -/

/-- The format, operation and condition of a C word, and its two operand fields. -/
theorem encC_fields {op cond mid imm : Nat} (ho : op < 64) (hc : cond < 16) (hm : mid < 2 ^ 20) (hi : imm < 2 ^ 32) :
    encC op cond mid imm < 2 ^ 64 ∧ ib (encC op cond mid imm) 63 62 = 1 ∧ ib (encC op cond mid imm) 61 56 = op ∧
      ib (encC op cond mid imm) 55 52 = cond ∧ encC op cond mid imm / 2 ^ 32 % 2 ^ 20 = mid ∧ encC op cond mid imm % 2 ^ 32 = imm := by
  unfold encC ib
  refine ⟨?_, ?_, ?_, ?_, ?_, ?_⟩ <;> omega

/-- What a C word decodes to is what `decC` makes of any number with its fields. -/
theorem ecDecode_encC {i : Instr} {c op cond mid imm : Nat} (ho : op < 64) (hc : cond < 16) (hm : mid < 2 ^ 20) (hi : imm < 2 ^ 32)
    (h : ∀ w, ib w 61 56 = op → ib w 55 52 = cond → w / 2 ^ 32 % 2 ^ 20 = mid → w % 2 ^ 32 = imm → decC c w = some i) :
    ecDecode c (BitVec.ofNat 64 (encC op cond mid imm)) = i := by
  obtain ⟨hlt, hfmt, hop, hcond, hmid, himm⟩ := encC_fields ho hc hm hi
  have hnat := toNat_word64 hlt
  rw [ecDecode_c (hnat.symm ▸ hfmt), hnat, h _ hop hcond hmid himm, Option.getD_some]

/-- What an X word decodes to, its operands read back. -/
theorem ecDecode_encX (mk : Nat → Nat → Nat → Word → Instr) {c op d x : Nat} {v : Word} (hd : d < 16) (hx : x < 16) (ho : op < 64)
    (h : ∀ w, ib w 61 56 = op → ib w 47 32 = 0 → decX c w = some (mk c (ib w 55 52) (ib w 51 48) (wd (ib w 31 0)))) :
    ecDecode c (BitVec.ofNat 64 (encX op d x v)) = mk c d x v := by
  have hv := v.isLt
  have hlt : encX op d x v < 2 ^ 64 := by unfold encX; omega
  have hnat := toNat_word64 hlt
  have hfmt : ib (encX op d x v) 63 62 = 2 := by unfold encX ib; omega
  have hop : ib (encX op d x v) 61 56 = op := by unfold encX ib; omega
  have h1 : ib (encX op d x v) 55 52 = d := by unfold encX ib; omega
  have h2 : ib (encX op d x v) 51 48 = x := by unfold encX ib; omega
  have hz : ib (encX op d x v) 47 32 = 0 := by unfold encX ib; omega
  have h3 : ib (encX op d x v) 31 0 = v.toNat := by unfold encX ib; omega
  rw [ecDecode_x (hnat.symm ▸ hfmt), hnat, h _ hop hz, Option.getD_some, h1, h2, h3, wd_toNat]

/-- The count of RPT and LOOP is read back: its fields, and what the decoder makes of them. -/
theorem encCnt_fields {most : Nat} {n : Cnt} (h : cntOk most n = true) (hmost : most ≤ 65536) :
    (encCnt n).1 < 2 ^ 20 ∧ (encCnt n).2 < 65536 ∧
      ∀ w k, w / 2 ^ 32 % 2 ^ 20 = (encCnt n).1 → k = (encCnt n).2 → (if ibit w 43 then Cnt.reg (ib w 47 44) else .imm k) = n := by
  cases n with
  | imm n =>
    have hn : n < most := of_decide_eq_true h
    refine ⟨by simp [encCnt], Nat.lt_of_lt_of_le hn hmost, fun w k hw hk => ?_⟩
    simp only [encCnt] at hw hk
    have hflag : ibit w 43 = false := ibit_false_of_div (by omega)
    rw [hflag, hk]
    rfl
  | reg r =>
    have hr : r < 16 := of_decide_eq_true h
    refine ⟨by simp only [encCnt]; omega, by simp [encCnt], fun w k hw _ => ?_⟩
    simp only [encCnt] at hw
    have hflag : ibit w 43 = true := ibit_true_of_div (by omega)
    have hreg : ib w 47 44 = r := by unfold ib; omega
    rw [hflag, hreg]
    rfl

/-- Every control and immediate instruction is read back. -/
theorem encWord_reads {i : Instr} {n : Nat} (hwf : i.wellFormed = true) (he : encWord i = some n) :
    ecDecode (instrCore i) (BitVec.ofNat 64 n) = i := by
  cases i with simp only [Instr.wellFormed, Bool.and_eq_true, decide_eq_true_eq] at hwf
  | br c cond target =>
    cases he
    obtain ⟨⟨-, hc⟩, ht⟩ := hwf
    refine ecDecode_encC (by decide) hc (by decide) (by omega) fun w ho hcond _ himm => ?_
    have hlow : ib w 31 0 = target := by unfold ib; omega
    simp only [decC, ho, hcond, hlow, ht, if_true, instrCore]
  | call c cond target =>
    cases he
    obtain ⟨⟨-, hc⟩, ht⟩ := hwf
    refine ecDecode_encC (by decide) hc (by decide) (by omega) fun w ho hcond _ himm => ?_
    have hlow : ib w 31 0 = target := by unfold ib; omega
    simp only [decC, ho, hcond, hlow, ht, if_true, instrCore]
  | ret c cond =>
    cases he
    exact ecDecode_encC (by decide) hwf.2 (by decide) (by decide) fun w ho hcond _ _ => by simp only [decC, ho, hcond, instrCore]
  | reti c =>
    cases he
    exact ecDecode_encC (by decide) (by decide) (by decide) (by decide) fun w ho hcond _ _ => by
      simp only [decC, ho, hcond, if_true, instrCore]
  | rpt c n =>
    cases he
    obtain ⟨hmid, himm, hback⟩ := encCnt_fields hwf.2 (by decide)
    have hsmall : (encCnt n).2 < 8192 := by
      cases n with
      | imm n => exact of_decide_eq_true hwf.2
      | reg r => exact (by decide : 0 < 8192)
    refine ecDecode_encC (by decide) (by decide) hmid (by omega) fun w ho hcond hw hi => ?_
    simp only [decC, ho, hcond, if_true, instrCore]
    rw [hback w _ hw (by unfold ib; omega)]
  | loop c stop n =>
    cases he
    obtain ⟨⟨-, hstop⟩, hn⟩ := hwf
    obtain ⟨hmid, himm, hback⟩ := encCnt_fields hn (by decide)
    refine ecDecode_encC (by decide) (by decide) hmid (by omega) fun w ho hcond hw hi => ?_
    have hhigh : ib w 31 29 = 0 := by unfold ib; omega
    have hend : ib w 28 16 = stop := by unfold ib; omega
    simp only [decC, ho, hcond, hhigh, hend, if_true, instrCore]
    rw [hback w _ hw (by unfold ib; omega)]
  | halt c =>
    cases he
    exact ecDecode_encC (by decide) (by decide) (by decide) (by decide) fun w ho hcond _ _ => by
      simp only [decC, ho, hcond, if_true, instrCore]
  | ldi c id v =>
    cases he
    have hid := hwf.2
    refine ecDecode_encC (by decide) (by decide) (by omega) v.isLt fun w ho hcond hw hi => ?_
    have h1 : ib w 47 40 = id := by unfold ib; omega
    have h2 : ib w 31 0 = v.toNat := by unfold ib; omega
    simp only [decC, ho, hcond, h1, h2, wd_toNat, if_true, instrCore]
  | movc c dst src =>
    cases he
    obtain ⟨⟨-, hd⟩, hs⟩ := hwf
    refine ecDecode_encC (by decide) (by decide) (by omega) (by decide) fun w ho hcond hw _ => ?_
    have h1 : ib w 47 40 = dst := by unfold ib; omega
    have h2 : ib w 39 32 = src := by unfold ib; omega
    simp only [decC, ho, hcond, h1, h2, if_true, instrCore]
  | xmov c d p out lines =>
    cases he
    obtain ⟨⟨⟨-, hd⟩, hp⟩, hl⟩ := hwf
    have hout := b2n_lt out
    refine ecDecode_encC (by decide) (by decide) (by omega) (by omega) fun w ho hcond hw hi => ?_
    have h1 : ib w 47 44 = d := by unfold ib; omega
    have h2 : ib w 42 40 = p := by unfold ib; omega
    have h3 : ibit w 32 = out := ibit_of_div (by omega)
    have h4 : ib w 12 0 = lines := by unfold ib; omega
    simp only [decC, ho, hcond, h1, h2, h3, h4, if_true, instrCore]
  | xwait c =>
    cases he
    exact ecDecode_encC (by decide) (by decide) (by decide) (by decide) fun w ho hcond _ _ => by
      simp only [decC, ho, hcond, if_true, instrCore]
  | signal c src =>
    cases he
    have hs := hwf.2
    refine ecDecode_encC (by decide) (by decide) (by decide) (by omega) fun w ho hcond _ hi => ?_
    have h1 : ib w 8 0 = src := by unfold ib; omega
    simp only [decC, ho, hcond, h1, if_true, instrCore]
  | clrf c mask =>
    cases he
    have hm := hwf.2
    refine ecDecode_encC (by decide) (by decide) (by decide) (by omega) fun w ho hcond _ hi => ?_
    have h1 : ib w 1 0 = mask := by unfold ib; omega
    simp only [decC, ho, hcond, h1, if_true, instrCore]
  | addi c d x v =>
    cases he
    obtain ⟨⟨-, hd⟩, hx⟩ := hwf
    exact ecDecode_encX .addi hd hx (by decide) fun w ho hz => by simp only [decX, ho, hz]; rfl
  | addsi c d x v =>
    cases he
    obtain ⟨⟨-, hd⟩, hx⟩ := hwf
    exact ecDecode_encX .addsi hd hx (by decide) fun w ho hz => by simp only [decX, ho, hz]; rfl
  | andi c d x v =>
    cases he
    obtain ⟨⟨-, hd⟩, hx⟩ := hwf
    exact ecDecode_encX .andi hd hx (by decide) fun w ho hz => by simp only [decX, ho, hz]; rfl
  | ori c d x v =>
    cases he
    obtain ⟨⟨-, hd⟩, hx⟩ := hwf
    exact ecDecode_encX .ori hd hx (by decide) fun w ho hz => by simp only [decX, ho, hz]; rfl
  | xori c d x v =>
    cases he
    obtain ⟨⟨-, hd⟩, hx⟩ := hwf
    exact ecDecode_encX .xori hd hx (by decide) fun w ho hz => by simp only [decX, ho, hz]; rfl
  | mini c d x v =>
    cases he
    obtain ⟨⟨-, hd⟩, hx⟩ := hwf
    exact ecDecode_encX .mini hd hx (by decide) fun w ho hz => by simp only [decX, ho, hz]; rfl
  | maxi c d x v =>
    cases he
    obtain ⟨⟨-, hd⟩, hx⟩ := hwf
    exact ecDecode_encX .maxi hd hx (by decide) fun w ho hz => by simp only [decX, ho, hz]; rfl
  | cmpi c x v =>
    cases he
    exact ecDecode_encX (fun c _ x v => .cmpi c x v) (by decide) hwf.2 (by decide) fun w ho hz => by simp only [decX, ho, hz]; rfl
  | _ => cases he

/-- Settles O9: format P by `encPar_reads`, formats C and X by `encWord_reads`. -/
theorem ecEncodeDecode : Obligations.EcEncodeDecode := by
  intro i w hwf he
  unfold ecEncode at he
  split at he
  · next a q hp =>
    cases he
    obtain ⟨hslot, hpar, hreads⟩ := encPar_reads hwf hp
    exact ecDecode_encP hslot hpar hreads
  · cases hw : encWord i with
    | none => rw [hw] at he; cases he
    | some n =>
      rw [hw] at he
      cases he
      exact encWord_reads hwf hw

end Sys2Proof.Machine
end

section
/-! PROOFS. Effect cores, results in data registers (R206, R210, R215): addition, subtraction, comparison, saturating arithmetic and
shifts. Obligations O22 and O23. -/

namespace Sys2Proof.Machine

open Sys2Proof.Claims

/-! ### What slot A leaves is what the instruction leaves -/

/-- An X instruction that is ready leaves its core as a P instruction without moves does. -/
theorem exec_xDone {i : Instr} {core : Nat} {s : State} (f : EcEnv → EcCore → EcCore) (h : xReady core s = true)
    (hi : exec i s = .next (settle (ecRun core (fun env => ecX env (f env)) s))) :
    ∃ t, exec i s = .next t ∧
      Settled (coreNow core (pDone (ecEnvOf s core) (ecAt core s) {} (f (ecEnvOf s core) (ecAt core s))) s) t := by
  rw [ecX_ok f h] at hi
  exact exec_settled hi

theorem pDone_d (env : EcEnv) (c : EcCore) (q : Par) (x : EcCore) : (pDone env c q x).d = x.d := (pDone_slot env c q x).1

theorem pDone_flags (env : EcEnv) (c : EcCore) (q : Par) (x : EcCore) :
    (pDone env c q x).z = x.z ∧ (pDone env c q x).n = x.n ∧ (pDone env c q x).v = x.v ∧ (pDone env c q x).c = x.c := by
  obtain ⟨-, -, hz, hn, hv, hc, -, -⟩ := pDone_slot env c q x
  exact ⟨hz, hn, hv, hc⟩

theorem pDone_zn (env : EcEnv) (c : EcCore) (q : Par) {x : EcCore} {r : Word} (h : zn x r) : zn (pDone env c q x) r := by
  obtain ⟨hz, hn, -, -⟩ := pDone_flags env c q x
  exact ⟨hz.trans h.1, hn.trans h.2⟩

theorem pDone_accKept (env : EcEnv) (q : Par) {c x : EcCore} (h : accKept c x) : accKept c (pDone env c q x) := by
  obtain ⟨-, ha, -, -, -, -, hg, -⟩ := pDone_slot env c q x
  exact ⟨ha.trans h.1, hg.trans h.2⟩

theorem pDone_dataKept (env : EcEnv) (q : Par) {c x : EcCore} {d : Nat} (h : dataKept d c x) : dataKept d c (pDone env c q x) :=
  fun j hj => (pDone_dr env c q x j).trans (h j hj)

theorem zn_result (c : EcCore) (r : Word) : zn (c.zn r) r := by
  refine ⟨?_, rfl⟩
  rw [Bool.eq_iff_iff, decide_eq_true_iff]
  exact beq_iff_eq

/-! ### Addition, subtraction and comparison -/

/-- R215: the 32-bit result. -/
def addSubRes (sub : Bool) (x y : Word) : Word := if sub then x - y else x + y

/-- The exact result. -/
def addSubInt (sub : Bool) (x y : Word) : Int := if sub then x.toInt - y.toInt else x.toInt + y.toInt

/-- R215: C of an addition is the carry out of bit 31, of a subtraction the borrow or its complement. -/
def addSubCarry (sub : Bool) (x y : Word) : Bool :=
  if sub then decide (x.toNat < y.toNat) == Config.subCarryIsBorrow else decide (2 ^ 32 ≤ x.toNat + y.toNat)

theorem sat32_eq_iff (i : Int) : sat32 i = i ↔ i = i.bmod (2 ^ 32) := by
  unfold sat32 satS Int.bmod
  dsimp only
  split
  · split <;> omega
  · split
    · split <;> omega
    · split <;> omega

/-- A signed result does not fit exactly when it differs from the 32-bit one. -/
theorem sat32_addSub (sub : Bool) (x y : Word) :
    decide (sat32 (addSubInt sub x y) ≠ addSubInt sub x y) = decide (addSubInt sub x y ≠ (addSubRes sub x y).toInt) := by
  have hres : (addSubRes sub x y).toInt = (addSubInt sub x y).bmod (2 ^ 32) := by
    cases sub
    · exact BitVec.toInt_add x y
    · exact BitVec.toInt_sub
  rw [hres]
  exact decide_eq_decide.mpr (not_congr (sat32_eq_iff _))

/-- What an addition or subtraction leaves in the flags, and keeps (R215). -/
structure AddSubFlags (sub : Bool) (x y : Word) (c e : EcCore) : Prop where
  zn : zn e (addSubRes sub x y)
  carry : e.c = addSubCarry sub x y
  overflow : e.v = decide (addSubInt sub x y ≠ (addSubRes sub x y).toInt)
  acc : accKept c e
  dec : e.dec = c.dec

theorem ecAddSub_flags (sub st : Bool) (d : Nat) (x y : Word) (c : EcCore) : AddSubFlags sub x y c (ecAddSub sub st d x y c) where
  zn := zn_result (if st then c.setD d (addSubRes sub x y) else c) _
  carry := by
    unfold ecAddSub addSubCarry
    cases sub
    · rfl
    · cases Config.subCarryIsBorrow <;> cases decide (x.toNat < y.toNat) <;> rfl
  overflow := sat32_addSub sub x y
  acc := by cases st <;> exact ⟨rfl, rfl⟩
  dec := by cases st <;> rfl

theorem AddSubFlags.done {sub : Bool} {x y : Word} {c e : EcCore} (env : EcEnv) (q : Par) (h : AddSubFlags sub x y c e) :
    AddSubFlags sub x y c (pDone env c q e) := by
  obtain ⟨-, -, hv, hc⟩ := pDone_flags env c q e
  exact ⟨pDone_zn env c q h.zn, hc.trans h.carry, hv.trans h.overflow, pDone_accKept env q h.acc, (pDone_dec ..).trans h.dec⟩

theorem ecAddSub_dr_self (sub : Bool) {d : Nat} (x y : Word) (c : EcCore) (hd : d < 16) :
    (ecAddSub sub true d x y c).dr d = addSubRes sub x y := dr_setD_self c _ hd

theorem ecAddSub_dataKept (sub : Bool) (d : Nat) (x y : Word) (c : EcCore) : dataKept d c (ecAddSub sub true d x y c) :=
  fun _ hj => dr_setD_ne c _ hj

/-- An addition or subtraction that is stored: all that the instruction leaves. -/
theorem addSub_stores (env : EcEnv) (q : Par) (sub : Bool) {d : Nat} (x y : Word) (c : EcCore) (hd : d < 16) :
    let e := pDone env c q (ecAddSub sub true d x y c)
    e.dr d = addSubRes sub x y ∧ zn e (addSubRes sub x y) ∧ e.c = addSubCarry sub x y ∧
      e.v = decide (addSubInt sub x y ≠ (addSubRes sub x y).toInt) ∧ dataKept d c e ∧ accKept c e ∧ e.dec = c.dec ∧ PKeeps q c e := by
  obtain ⟨hzn, hcarry, hover, hacc, hdec⟩ := (ecAddSub_flags sub true d x y c).done env q
  exact ⟨(pDone_dr ..).trans (ecAddSub_dr_self sub x y c hd), hzn, hcarry, hover,
    pDone_dataKept env q (ecAddSub_dataKept sub d x y c), hacc, hdec, pDone_keeps env q (slotOnly_addSub sub true d x y c)⟩

/-- A comparison: flags alone. -/
theorem addSub_compares (env : EcEnv) (q : Par) (x y : Word) (c : EcCore) :
    let e := pDone env c q (ecAddSub true false 0 x y c)
    e.d = c.d ∧ zn e (x - y) ∧ e.c = addSubCarry true x y ∧ e.v = decide (x.toInt - y.toInt ≠ (x - y).toInt) ∧ accKept c e ∧
      e.dec = c.dec ∧ PKeeps q c e := by
  obtain ⟨hzn, hcarry, hover, hacc, hdec⟩ := (ecAddSub_flags true false 0 x y c).done env q
  exact ⟨(pDone_d ..).trans rfl, hzn, hcarry, hover, hacc, hdec, pDone_keeps env q (slotOnly_addSub true false 0 x y c)⟩

/-- Settles O22: `addSub_stores` for what writes a register, `addSub_compares` for CMP and CMPI. -/
theorem ecAddAndCompare : Obligations.EcAddAndCompare := by
  unfold Obligations.EcAddAndCompare
  refine ⟨?add, ?sub, ?cmp, ?addi, ?cmpi⟩
  case add =>
    intro core d x y q s hd h
    obtain ⟨t, hexec, hs⟩ := exec_pDone (i := .add core d x y q) (fun _ r => ecAddSub false true d (r.dr x) (r.dr y) r) h rfl
    exact ⟨_, t, hexec, hs, addSub_stores _ q false _ _ _ hd⟩
  case sub =>
    intro core d x y q s hd h
    obtain ⟨t, hexec, hs⟩ := exec_pDone (i := .sub core d x y q) (fun _ r => ecAddSub true true d (r.dr x) (r.dr y) r) h rfl
    exact ⟨_, t, hexec, hs, addSub_stores _ q true _ _ _ hd⟩
  case cmp =>
    intro core x y q s h
    obtain ⟨t, hexec, hs⟩ := exec_pDone (i := .cmp core x y q) (fun _ r => ecAddSub true false 0 (r.dr x) (r.dr y) r) h rfl
    exact ⟨_, t, hexec, hs, addSub_compares _ q _ _ _⟩
  case addi =>
    intro core d x v s hd h
    obtain ⟨t, hexec, hs⟩ := exec_xDone (i := .addi core d x v) (fun _ r => ecAddSub false true d (r.dr x) v r) h rfl
    exact ⟨_, t, hexec, hs, addSub_stores _ {} false _ _ _ hd⟩
  case cmpi =>
    intro core x v s h
    obtain ⟨t, hexec, hs⟩ := exec_xDone (i := .cmpi core x v) (fun _ r => ecAddSub true false 0 (r.dr x) v r) h rfl
    exact ⟨_, t, hexec, hs, addSub_compares _ {} _ _ _⟩

/-! ### Saturating results -/

theorem satWrites_satRes {d : Nat} (i : Int) (c : EcCore) (hd : d < 16) : satWrites d i c (ecSatRes d i c) := by
  refine ⟨dr_setD_self c _ hd, zn_result (c.setD d (wdI (sat32 i))) _, rfl, rfl, fun h => ?_⟩
  show (c.sat || decide (sat32 i ≠ i)) = true
  simp [h]

theorem satWrites_done (env : EcEnv) (q : Par) {d : Nat} {i : Int} {c x : EcCore} (h : satWrites d i c x) :
    satWrites d i c (pDone env c q x) := by
  obtain ⟨hd, hzn, hv, hc, hsat⟩ := h
  obtain ⟨-, -, ev, ec⟩ := pDone_flags env c q x
  exact ⟨(pDone_dr ..).trans hd, pDone_zn env c q hzn, ev.trans hv, ec.trans hc, fun h => pDone_sat env c q x (hsat h)⟩

/-- A result that reaches one data register and the flags: what else the instruction keeps. -/
theorem oneRegister_keeps (env : EcEnv) (q : Par) {d : Nat} {c x : EcCore} (hdata : dataKept d c x) (hacc : accKept c x)
    (hdec : x.dec = c.dec) (hslot : SlotOnly c x) :
    let e := pDone env c q x
    dataKept d c e ∧ accKept c e ∧ e.dec = c.dec ∧ PKeeps q c e :=
  ⟨pDone_dataKept env q hdata, pDone_accKept env q hacc, (pDone_dec ..).trans hdec, pDone_keeps env q hslot⟩

theorem satRes_keeps (env : EcEnv) (q : Par) (d : Nat) (i : Int) (c : EcCore) :
    let e := pDone env c q (ecSatRes d i c)
    dataKept d c e ∧ accKept c e ∧ e.dec = c.dec ∧ PKeeps q c e :=
  oneRegister_keeps env q (fun _ hj => dr_setD_ne c _ hj) ⟨rfl, rfl⟩ rfl (slotOnly_satRes d i c)

/-- A P instruction whose slot A gives a saturating result. -/
theorem exec_satRes {i : Instr} {core d : Nat} {q : Par} {s : State} (r : EcCore → Int) (hd : d < 16) (h : pReady core q s = true)
    (hi : exec i s = .next (settle (ecRun core (fun env => ecP env q fun c => ecSatRes d (r c) c) s))) :
    ∃ e t, exec i s = .next t ∧ Settled (coreNow core e s) t ∧
      let c := ecAt core s
      satWrites d (r c) c e ∧ dataKept d c e ∧ accKept c e ∧ e.dec = c.dec ∧ PKeeps q c e := by
  obtain ⟨t, hexec, hs⟩ := exec_pDone (fun _ c => ecSatRes d (r c) c) h hi
  exact ⟨_, t, hexec, hs, satWrites_done _ q (satWrites_satRes _ _ hd), satRes_keeps _ q d _ _⟩

/-! ### Shifts (R206) -/

/-- A logical or arithmetic shift: the result, its flags, and the last bit shifted out. -/
def shiftRes (d : Nat) (r : Word) (out : Bool) (c : EcCore) : EcCore := { ecLogic d r c with c := out }

theorem shiftRes_writes {d : Nat} (r : Word) (out : Bool) (c : EcCore) (hd : d < 16) :
    (shiftRes d r out c).dr d = r ∧ zn (shiftRes d r out c) r ∧ (shiftRes d r out c).v = false ∧ (shiftRes d r out c).c = out :=
  ⟨dr_setD_self c r hd, zn_result (c.setD d r) r, rfl, rfl⟩

theorem shiftRes_done (env : EcEnv) (q : Par) {d : Nat} (r : Word) (out : Bool) (c : EcCore) (hd : d < 16) :
    let e := pDone env c q (shiftRes d r out c)
    (e.dr d = r ∧ zn e r ∧ e.v = false ∧ e.c = out) ∧ dataKept d c e ∧ accKept c e ∧ e.dec = c.dec ∧ PKeeps q c e := by
  obtain ⟨hdr, hzn, hv, hc⟩ := shiftRes_writes r out c hd
  obtain ⟨-, -, ev, ec⟩ := pDone_flags env c q (shiftRes d r out c)
  refine ⟨⟨(pDone_dr ..).trans hdr, pDone_zn env c q hzn, ev.trans hv, ec.trans hc⟩, ?_⟩
  exact oneRegister_keeps env q (fun _ hj => dr_setD_ne c r hj) ⟨rfl, rfl⟩ rfl ⟨rfl, id, id⟩

/-- The amount of a shift. -/
def shiftAmount (c : EcCore) : ShAmt → Nat
  | .imm k => k % 32
  | .reg r => (c.dr r).toNat % 32

theorem ecShift_eq (kind d x : Nat) (amt : ShAmt) (c : EcCore) :
    let n := shiftAmount c amt
    let w := c.dr x
    ecShift kind d x amt c =
      if kind = 0 then shiftRes d (w <<< n) (n ≠ 0 && w.toNat.testBit (32 - n)) c
      else if kind = 1 then shiftRes d (w >>> n) (n ≠ 0 && w.toNat.testBit (n - 1)) c
      else if kind = 2 then shiftRes d (w.sshiftRight n) (n ≠ 0 && w.toNat.testBit (n - 1)) c
      else ecSatRes d (w.toInt * 2 ^ n) c := by
  cases amt <;> (unfold ecShift shiftAmount; rcases kind with _ | _ | _ | k <;> rfl)

theorem satisfies_of_pos {n : Nat} {b out : Bool} (h : out = (decide (n ≠ 0) && b)) (hn : 0 < n) : out = b := by
  have hn' : n ≠ 0 := by omega
  simpa [hn'] using h

/-- What SHIFT leaves, kind by kind. -/
theorem ecShift_leaves (env : EcEnv) (q : Par) {kind d : Nat} (x : Nat) (amt : ShAmt) (c : EcCore) (hd : d < 16) :
    let e := pDone env c q (ecShift kind d x amt c)
    let n := shiftAmount c amt
    let w := c.dr x
    (kind = 0 → e.dr d = w <<< n ∧ zn e (w <<< n) ∧ e.v = false ∧ (0 < n → e.c = w.toNat.testBit (32 - n))) ∧
    (kind = 1 → e.dr d = w >>> n ∧ zn e (w >>> n) ∧ e.v = false ∧ (0 < n → e.c = w.toNat.testBit (n - 1))) ∧
    (kind = 2 → e.dr d = w.sshiftRight n ∧ zn e (w.sshiftRight n) ∧ e.v = false ∧ (0 < n → e.c = w.toNat.testBit (n - 1))) ∧
    (kind = 3 → satWrites d (w.toInt * 2 ^ n) c e) ∧
    dataKept d c e ∧ accKept c e ∧ e.dec = c.dec ∧ PKeeps q c e := by
  rw [ecShift_eq]
  dsimp only
  generalize shiftAmount c amt = n
  by_cases h0 : kind = 0
  · subst h0
    obtain ⟨⟨hdr, hzn, hv, hc⟩, hkeeps⟩ :=
      shiftRes_done env q (c.dr x <<< n) (n ≠ 0 && (c.dr x).toNat.testBit (32 - n)) c hd
    exact ⟨fun _ => ⟨hdr, hzn, hv, satisfies_of_pos hc⟩, nofun, nofun, nofun, hkeeps⟩
  by_cases h1 : kind = 1
  · subst h1
    obtain ⟨⟨hdr, hzn, hv, hc⟩, hkeeps⟩ :=
      shiftRes_done env q (c.dr x >>> n) (n ≠ 0 && (c.dr x).toNat.testBit (n - 1)) c hd
    exact ⟨nofun, fun _ => ⟨hdr, hzn, hv, satisfies_of_pos hc⟩, nofun, nofun, hkeeps⟩
  by_cases h2 : kind = 2
  · subst h2
    obtain ⟨⟨hdr, hzn, hv, hc⟩, hkeeps⟩ :=
      shiftRes_done env q ((c.dr x).sshiftRight n) (n ≠ 0 && (c.dr x).toNat.testBit (n - 1)) c hd
    exact ⟨nofun, nofun, fun _ => ⟨hdr, hzn, hv, satisfies_of_pos hc⟩, nofun, hkeeps⟩
  rw [if_neg h0, if_neg h1, if_neg h2]
  exact ⟨fun h => absurd h h0, fun h => absurd h h1, fun h => absurd h h2, fun _ => satWrites_done env q (satWrites_satRes _ c hd),
    satRes_keeps env q d _ c⟩

/-- Settles O23: `exec_satRes` for the saturating instructions, `ecShift_leaves` for SHIFT. -/
theorem ecSaturatingAndShiftResults : Obligations.EcSaturatingAndShiftResults := by
  unfold Obligations.EcSaturatingAndShiftResults
  refine ⟨?binary, ?unary, ?addsi, ?shift⟩
  case binary =>
    intro row hrow core d x y q s hd h
    simp only [satRows, List.mem_cons, List.not_mem_nil, or_false] at hrow
    rcases hrow with rfl | rfl
    · exact exec_satRes (i := .adds core d x y q) (fun c => c.di x + c.di y) hd h rfl
    · exact exec_satRes (i := .subs core d x y q) (fun c => c.di x - c.di y) hd h rfl
  case unary =>
    intro row hrow core d x q s hd h
    simp only [satRows1, List.mem_cons, List.not_mem_nil, or_false] at hrow
    rcases hrow with rfl | rfl
    · exact exec_satRes (i := .abs core d x q) (fun c => if c.di x < 0 then -(c.di x) else c.di x) hd h rfl
    · exact exec_satRes (i := .neg core d x q) (fun c => -(c.di x)) hd h rfl
  case addsi =>
    intro core d x v s hd h
    obtain ⟨t, hexec, hs⟩ := exec_xDone (i := .addsi core d x v) (fun _ r => ecSatRes d (r.di x + v.toInt) r) h rfl
    exact ⟨_, t, hexec, hs, satWrites_done _ {} (satWrites_satRes _ _ hd), satRes_keeps _ {} d _ _⟩
  case shift =>
    intro core kind d x amt q s _ hd h
    obtain ⟨t, hexec, hs⟩ := exec_pDone (i := .shift core kind d x amt q) (fun _ => ecShift kind d x amt) h rfl
    refine ⟨_, t, hexec, hs, ?_⟩
    have hleaves := ecShift_leaves (ecEnvOf s core) q (kind := kind) x amt (ecAt core s) hd
    cases amt <;> exact hleaves

end Sys2Proof.Machine
end

section
/-! PROOFS. Effect cores, accumulators (R206, R211, R212, R214): products, sums, shifts, loads and conversion. Obligations O24 and O25. -/

namespace Sys2Proof.Machine

open Sys2Proof.Claims

/-! ### Accumulator writes -/

theorem ac_setAcc_self (env : EcEnv) (c : EcCore) {i : Nat} (v : Int) (h : i < 4) : (c.setAcc env i v).ac i = accRes env.clamp v := by
  simp [EcCore.setAcc, EcCore.push, EcCore.ac, accRes, List.getD, Vector.toList_setIfInBounds, h]

theorem ac_setAcc_ne (env : EcEnv) (c : EcCore) {i j : Nat} (v : Int) (h : j ≠ i) : (c.setAcc env i v).ac j = c.ac j := by
  simp [EcCore.setAcc, EcCore.push, EcCore.ac, List.getD, Vector.toList_setIfInBounds, h.symm]

/-- Slot A writes accumulators and leaves data registers and condition flags. -/
structure AccOnly (c x : EcCore) : Prop where
  stays : dataStays c x
  slot : SlotOnly c x

theorem AccOnly.refl (c : EcCore) : AccOnly c c := ⟨⟨rfl, rfl, rfl, rfl, rfl, rfl⟩, .refl c⟩

theorem AccOnly.trans {a b c : EcCore} (h1 : AccOnly a b) (h2 : AccOnly b c) : AccOnly a c := by
  obtain ⟨⟨d1, z1, n1, v1, c1, e1⟩, s1⟩ := h1
  obtain ⟨⟨d2, z2, n2, v2, c2, e2⟩, s2⟩ := h2
  exact ⟨⟨d2.trans d1, z2.trans z1, n2.trans n1, v2.trans v1, c2.trans c1, e2.trans e1⟩, s1.trans s2⟩

theorem accOnly_setAcc (env : EcEnv) (c : EcCore) (i : Nat) (v : Int) : AccOnly c (c.setAcc env i v) :=
  ⟨⟨rfl, rfl, rfl, rfl, rfl, rfl⟩, slotOnly_setAcc env c i v⟩

theorem pDone_ac (env : EcEnv) (c : EcCore) (q : Par) (x : EcCore) (j : Nat) : (pDone env c q x).ac j = x.ac j := by
  obtain ⟨-, ha, -⟩ := pDone_slot env c q x
  rw [EcCore.ac, ha, EcCore.ac]

/-- What an instruction that writes accumulators alone keeps. -/
theorem AccOnly.done {c x : EcCore} (env : EcEnv) (q : Par) (h : AccOnly c x) :
    dataStays c (pDone env c q x) ∧ PKeeps q c (pDone env c q x) := by
  obtain ⟨⟨hd, hz, hn, hv, hc, hdec⟩, hslot⟩ := h
  obtain ⟨ez, en, ev, ec⟩ := pDone_flags env c q x
  exact ⟨⟨(pDone_d ..).trans hd, ez.trans hz, en.trans hn, ev.trans hv, ec.trans hc, (pDone_dec ..).trans hdec⟩, pDone_keeps env q hslot⟩

/-- An instruction that writes one accumulator. -/
theorem exec_setAcc {i : Instr} {core a : Nat} {q : Par} {s : State} (v : EcCore → Int) (ha : a < 4) (h : pReady core q s = true)
    (hi : exec i s = .next (settle (ecRun core (fun env => ecP env q fun c => c.setAcc env a (v c)) s))) :
    ∃ e t, exec i s = .next t ∧ Settled (coreNow core e s) t ∧
      let c := ecAt core s
      e.ac a = accRes (clampOf core s) (v c) ∧ (∀ j, j ≠ a → e.ac j = c.ac j) ∧ dataStays c e ∧ PKeeps q c e := by
  obtain ⟨t, hexec, hs⟩ := exec_pDone (fun env c => c.setAcc env a (v c)) h hi
  exact ⟨_, t, hexec, hs, (pDone_ac ..).trans (ac_setAcc_self _ _ _ ha), fun j hj => (pDone_ac ..).trans (ac_setAcc_ne _ _ _ hj),
    (accOnly_setAcc _ _ a _).done _ q⟩

/-- An instruction that writes a pair of accumulators, both from the core as it was. -/
theorem exec_setAccPair {i : Instr} {core h : Nat} {q : Par} {s : State} (v w : EcCore → Int) (hh : h < 2) (hr : pReady core q s = true)
    (hi : exec i s = .next (settle (ecRun core (fun env => ecP env q fun c =>
      (c.setAcc env (2 * h) (v c)).setAcc env (2 * h + 1) (w c)) s))) :
    ∃ e t, exec i s = .next t ∧ Settled (coreNow core e s) t ∧
      let c := ecAt core s
      e.ac (2 * h) = accRes (clampOf core s) (v c) ∧ e.ac (2 * h + 1) = accRes (clampOf core s) (w c) ∧
      (∀ j, j ≠ 2 * h → j ≠ 2 * h + 1 → e.ac j = c.ac j) ∧ dataStays c e ∧ PKeeps q c e := by
  obtain ⟨t, hexec, hs⟩ := exec_pDone (fun env c => (c.setAcc env (2 * h) (v c)).setAcc env (2 * h + 1) (w c)) hr hi
  refine ⟨_, t, hexec, hs, ?even, ?odd, ?others, ((accOnly_setAcc _ _ _ _).trans (accOnly_setAcc _ _ _ _)).done _ q⟩
  case even => exact (pDone_ac ..).trans ((ac_setAcc_ne _ _ _ (by omega)).trans (ac_setAcc_self _ _ _ (by omega)))
  case odd => exact (pDone_ac ..).trans (ac_setAcc_self _ _ _ (by omega))
  case others =>
    intro j h0 h1
    exact (pDone_ac ..).trans ((ac_setAcc_ne _ _ _ h1).trans (ac_setAcc_ne _ _ _ h0))

/-! ### Several accumulators -/

/-- Accumulators of a list written one after the other, each with its own value. -/
def setAccs (env : EcEnv) (f : Nat → Int) (l : List Nat) (c : EcCore) : EcCore := l.foldl (fun s j => s.setAcc env j (f j)) c

theorem accOnly_setAccs (env : EcEnv) (f : Nat → Int) (l : List Nat) (c : EcCore) : AccOnly c (setAccs env f l c) :=
  foldl_keeps (P := AccOnly c) l (fun b a _ hb => hb.trans (accOnly_setAcc env b a _)) (.refl c)

theorem ac_setAccs (env : EcEnv) (f : Nat → Int) (l : List Nat) (c : EcCore) {j : Nat} (hj : j < 4) :
    (setAccs env f l c).ac j = if j ∈ l then accRes env.clamp (f j) else c.ac j := by
  induction l generalizing c with
  | nil => rfl
  | cons a l ih =>
    have hcons : setAccs env f (a :: l) c = setAccs env f l (c.setAcc env a (f a)) := rfl
    rw [hcons, ih]
    by_cases hl : j ∈ l
    · rw [if_pos hl, if_pos (List.mem_cons_of_mem _ hl)]
    · by_cases hja : j = a
      · subst hja
        rw [if_neg hl, if_pos List.mem_cons_self, ac_setAcc_self _ _ _ hj]
      · rw [if_neg hl, if_neg (by simp [hl, hja]), ac_setAcc_ne _ _ _ hja]

theorem ecFir4_eq (env : EcEnv) (x q : Nat) (neg clr : Bool) (c : EcCore) :
    ecFir4 env x q neg clr c =
      setAccs env (fun j => (if clr then 0 else c.ac j) + signed neg (c.di x * c.di (4 * q + j))) (List.range 4) c := rfl

theorem ecAclr_eq (env : EcEnv) (mask : Nat) (c : EcCore) :
    ecAclr env mask c = setAccs env (fun _ => 0) ((List.range 4).filter mask.testBit) c := by
  rw [ecAclr, setAccs, List.foldl_filter]

theorem accRes_zero (clamp : Bool) : accRes clamp 0 = 0 := by cases clamp <;> decide

/-! ### The obligations -/

/-- Settles O24: one accumulator by `exec_setAcc`, a pair by `exec_setAccPair`, four by `ac_setAccs`. -/
theorem ecProductsAccumulate : Obligations.EcProductsAccumulate := by
  unfold Obligations.EcProductsAccumulate
  refine ⟨?mpy, ?mac, ?dmpy, ?dmac, ?cmac, ?fir4⟩
  case mpy =>
    intro core a x y neg q s ha h
    obtain ⟨e, t, hexec, hs, hself, hrest⟩ := exec_setAcc (i := .mpy core a x y neg q)
      (fun c => (if false then c.ac a else 0) + signed neg (c.di x * c.di y)) ha h rfl
    exact ⟨e, t, hexec, hs, hself.trans (congrArg _ (Int.zero_add _)), hrest⟩
  case mac =>
    intro core a x y neg q s ha h
    exact exec_setAcc (i := .mac core a x y neg q) (fun c => c.ac a + signed neg (c.di x * c.di y)) ha h rfl
  case dmpy =>
    intro core h x0 y0 x1 y1 q s hh hr
    obtain ⟨e, t, hexec, hs, heven, hodd, hrest⟩ := exec_setAccPair (i := .dmpy core h x0 y0 x1 y1 q)
      (fun c => 0 + c.di x0 * c.di y0) (fun c => 0 + c.di x1 * c.di y1) hh hr rfl
    exact ⟨e, t, hexec, hs, heven.trans (congrArg _ (Int.zero_add _)), hodd.trans (congrArg _ (Int.zero_add _)), hrest⟩
  case dmac =>
    intro core h x0 y0 x1 y1 q s hh hr
    exact exec_setAccPair (i := .dmac core h x0 y0 x1 y1 q) (fun c => c.ac (2 * h) + c.di x0 * c.di y0)
      (fun c => c.ac (2 * h + 1) + c.di x1 * c.di y1) hh hr rfl
  case cmac =>
    intro core u v h conj clr q s hh hr
    exact exec_setAccPair (i := .cmac core u v h conj clr q)
      (fun c => (if clr then 0 else c.ac (2 * h)) + (c.di (2 * u) * c.di (2 * v) - c.di (2 * u + 1) * signed conj (c.di (2 * v + 1))))
      (fun c => (if clr then 0 else c.ac (2 * h + 1)) +
        (c.di (2 * u) * signed conj (c.di (2 * v + 1)) + c.di (2 * u + 1) * c.di (2 * v))) hh hr rfl
  case fir4 =>
    intro core x k neg clr q s h
    obtain ⟨t, hexec, hs⟩ := exec_pDone (i := .fir4 core x k neg clr q) (fun env => ecFir4 env x k neg clr) h rfl
    refine ⟨_, t, hexec, hs, fun j hj => (pDone_ac ..).trans ?_, ?_⟩
    · rw [ecFir4_eq, ac_setAccs _ _ _ _ hj, if_pos (List.mem_range.mpr hj)]
      rfl
    · rw [ecFir4_eq]
      exact (accOnly_setAccs _ _ _ _).done _ q

/-- ARND: the conversion of an accumulator (R214) in a data register. -/
theorem ecArnd_writes {d : Nat} (a sh : Nat) (c : EcCore) (hd : d < 16) :
    let r := rne (c.aS.toList.getD a 0 * 2 ^ sh) 31
    (ecArnd d a sh c).dr d = wdI (sat32 r) ∧ (sat32 r ≠ r → (ecArnd d a sh c).sat = true) := by
  refine ⟨dr_setD_self c _ hd, fun h => ?_⟩
  show (c.sat || decide _) = true
  rw [decide_eq_true h, Bool.or_true]

theorem slotOnly_arnd (d a sh : Nat) (c : EcCore) : SlotOnly c (ecArnd d a sh c) := by
  refine ⟨rfl, fun h => ?_, id⟩
  show (c.sat || _) = true
  rw [h, Bool.true_or]

/-- Settles O25: `exec_setAcc` for AADD, ASH and ALD, `ac_setAccs` for ACLR, `ecArnd_writes` for ARND. -/
theorem ecAccumulatorOps : Obligations.EcAccumulatorOps := by
  unfold Obligations.EcAccumulatorOps
  refine ⟨?aclr, ?aadd, ?ash, ?ald, ?arnd⟩
  case aclr =>
    intro core mask q s h
    obtain ⟨t, hexec, hs⟩ := exec_pDone (i := .aclr core mask q) (fun env => ecAclr env mask) h rfl
    refine ⟨_, t, hexec, hs, fun j hj => (pDone_ac ..).trans ?_, ?_⟩
    · rw [ecAclr_eq, ac_setAccs _ _ _ _ hj, accRes_zero]
      simp [hj]
    · rw [ecAclr_eq]
      exact (accOnly_setAccs _ _ _ _).done _ q
  case aadd =>
    intro core d x sub q s hd h
    obtain ⟨e, t, hexec, hs, hself, hrest⟩ := exec_setAcc (i := .aadd core d x sub q)
      (fun c => if sub then c.ac d - c.ac x else c.ac d + c.ac x) hd h rfl
    refine ⟨e, t, hexec, hs, hself.trans (congrArg _ ?_), hrest⟩
    cases sub
    · rfl
    · exact Int.sub_eq_add_neg
  case ash =>
    intro core d x n q s hd h
    obtain ⟨e, t, hexec, hs, hself, hrest⟩ := exec_setAcc (i := .ash core d x n q)
      (fun c => if n ≥ 0 then c.ac x * 2 ^ n.toNat else (c.ac x).fdiv (2 ^ (-n).toNat)) hd h rfl
    refine ⟨e, t, hexec, hs, fun hn => ?_, fun hn => ?_, hrest⟩
    · rw [hself, if_pos hn]
    · rw [hself, if_neg (by omega)]
  case ald =>
    intro core a d q s ha h
    exact exec_setAcc (i := .ald core a d q) (fun c => c.di d * 2 ^ 31) ha h rfl
  case arnd =>
    intro core d a sh q s hd h
    obtain ⟨t, hexec, hs⟩ := exec_pDone (i := .arnd core d a sh q) (fun _ => ecArnd d a sh) h rfl
    obtain ⟨hdr, hsat⟩ := ecArnd_writes a sh (ecAt core s) hd
    obtain ⟨hz, hn, hv, hc⟩ := pDone_flags (ecEnvOf s core) (ecAt core s) q (ecArnd d a sh (ecAt core s))
    obtain ⟨hdata, hacc, hdec, hkeeps⟩ := oneRegister_keeps (ecEnvOf s core) q (c := ecAt core s) (x := ecArnd d a sh (ecAt core s))
      (d := d) (fun _ hj => dr_setD_ne _ _ hj) ⟨rfl, rfl⟩ rfl (slotOnly_arnd d a sh _)
    exact ⟨_, t, hexec, hs, (pDone_dr ..).trans hdr, fun h => pDone_sat _ _ q _ (hsat h), hdata, hacc, hdec, hz, hn, hv, hc, hkeeps⟩

end Sys2Proof.Machine
end

section
/-! PROOFS. Effect cores, moves and address updates (R207, R208, R214, R217, R223). Obligation O27. -/

namespace Sys2Proof.Machine

open Sys2Proof.Claims

/-! ### Loads on their way -/

theorem late_move (env : EcEnv) (r c : EcCore) (m : Mv) {e : Nat × Nat × EcWrite} (h : e ∈ c.late) : e ∈ (ecMove env r c m).late := by
  cases m with
  | ld d p => exact List.mem_append_left _ h
  | none => exact h
  | st d p => exact h
  | sta a sh p => exact h

/-- An update drops pointer writes on their way, and no others. -/
theorem late_update (c : EcCore) (u : Upd) {k l d : Nat} {v : Word} (h : (k, l, EcWrite.d d v) ∈ c.late) :
    (k, l, EcWrite.d d v) ∈ (ecUpdate c u).late := by
  cases u with
  | none => exact h
  | upd n op => exact List.mem_filter.mpr ⟨h, rfl⟩

theorem pDone_late (env : EcEnv) (c : EcCore) (q : Par) (x : EcCore) : (pDone env c q x).late = (ecPar env c q x).late := by
  rw [(pDone_next env c q x).same]

/-- A load of a word that no transfer covers is seen from the second cycle after (R217). -/
theorem load_late (env : EcEnv) (c : EcCore) (d p : Nat) (m1 : Mv) (u0 u1 : Upd) (h : c.covered (c.pr p) = false) :
    (c.cyc + 2, c.cyc, EcWrite.d d (c.word (c.pr p))) ∈ (pDone env c { m0 := .ld d p, m1 := m1, u0 := u0, u1 := u1 } c).late := by
  rw [pDone_late]
  refine late_update _ _ (late_update _ _ (late_move _ _ _ _ ?_))
  have hpush : (ecMove env c c (.ld d p)).late = c.late ++ [(c.cyc + 2, c.cyc, EcWrite.d d (c.word (c.pr p)))] := by
    simp only [ecMove, EcCore.push, h, Bool.false_eq_true, if_false]
  rw [hpush]
  exact List.mem_append_right _ List.mem_cons_self

/-! ### Stores -/

theorem pDone_word (env : EcEnv) (c : EcCore) (q : Par) (x : EcCore) (a : Nat) :
    (pDone env c q x).word a = (ecPar env c q x).word a := by
  rw [(pDone_next env c q x).same]
  rfl

/-- What the first move stored stands unless the second stores there too. -/
theorem firstStore_word (env : EcEnv) (c x : EcCore) (m0 m1 : Mv) (u0 u1 : Upd) {a : Nat} (h : storesAt { m0 := m1 } c a = false) :
    (pDone env c { m0 := m0, m1 := m1, u0 := u0, u1 := u1 } x).word a = (ecMove env c x m0).word a := by
  rw [pDone_word]
  have hsecond : (ecMove env c (ecMove env c x m0) m1).word a = (ecMove env c x m0).word a :=
    par_word env c (ecMove env c x m0) { m0 := m1 } a h
  exact (update_word _ _ _).trans ((update_word _ _ _).trans hsecond)

/-- The store of an accumulator that saturates sets SAT. -/
theorem sta_sat (env : EcEnv) (c : EcCore) (a sh p : Nat) (m1 : Mv) (u0 u1 : Upd)
    (h : sat32 (rne (c.aS.toList.getD a 0 * 2 ^ sh) 31) ≠ rne (c.aS.toList.getD a 0 * 2 ^ sh) 31) :
    (pDone env c { m0 := .sta a sh p, m1 := m1, u0 := u0, u1 := u1 } c).sat = true := by
  have hfirst : (ecMove env c c (.sta a sh p)).sat = true := by
    show (c.sat || decide _) = true
    rw [decide_eq_true h, Bool.or_true]
  rw [(pDone_next env c _ c).same]
  exact (moveOnly_update _ _).sat ((moveOnly_update _ _).sat ((moveOnly_move env c _ m1).sat hfirst))

/-! ### Updates -/

/-- The ring of a wrap register as R223 has it. -/
theorem ecRing_eq_ringStep (p : Nat) (step : Int) (w : Word) : ecRing p step w = ringStep p step w := by
  simp only [ecRing, ringStep, beq_iff_eq, ge_iff_le]

theorem update_p (c : EcCore) (n op : Nat) :
    (ecUpdate c (.upd n op)).p = c.p.setIfInBounds n (ringStep (c.pr n) (stepOf c n op) (c.wr n)) := by
  rw [← ecRing_eq_ringStep]
  rcases op with _ | _ | _ | op <;> rfl

theorem pr_update_self (c : EcCore) {n : Nat} (op : Nat) (hn : n < 8) :
    (ecUpdate c (.upd n op)).pr n = ringStep (c.pr n) (stepOf c n op) (c.wr n) := by
  rw [EcCore.pr, update_p]
  simp [List.getD, Vector.toList_setIfInBounds, hn]

/-- What the first update left stands unless the second names the same pointer. -/
theorem firstUpdate_ptr (env : EcEnv) (c : EcCore) {n : Nat} (op : Nat) (u1 : Upd) (hn : n < 8) (h : updates { u0 := u1 } n = false) :
    (pDone env c { u0 := .upd n op, u1 := u1 } c).pr n = ringStep (c.pr n) (stepOf c n op) (c.wr n) := by
  have hdone : (pDone env c { u0 := .upd n op, u1 := u1 } c).pr n = (ecUpdate (ecUpdate c (.upd n op)) u1).pr n := by
    rw [(pDone_next env c _ c).same]
    rfl
  have hsecond : (ecUpdate (ecUpdate c (.upd n op)) u1).pr n = (ecUpdate c (.upd n op)).pr n :=
    par_ptr env c (ecUpdate c (.upd n op)) { u0 := u1 } n h
  exact hdone.trans (hsecond.trans (pr_update_self c op hn))

/-! ### The obligation -/

/-- An instruction with slot A empty keeps registers, flags and accumulators. -/
theorem emptySlot_keeps (env : EcEnv) (q : Par) (c : EcCore) :
    dataStays c (pDone env c q c) ∧ accKept c (pDone env c q c) ∧ PKeeps q c (pDone env c q c) :=
  ⟨((AccOnly.refl c).done env q).1, pDone_accKept env q ⟨rfl, rfl⟩, pDone_keeps env q (.refl c)⟩

/-- Settles O27: `load_late`, `firstStore_word`, `sta_sat` and `firstUpdate_ptr` for the four rows, `emptySlot_keeps` for the rest. -/
theorem ecMovesAndUpdates : Obligations.EcMovesAndUpdates := by
  unfold Obligations.EcMovesAndUpdates
  refine ⟨?nop, ?ld, ?st, ?sta, ?upd⟩
  case nop =>
    intro core q s h
    obtain ⟨t, hexec, hs⟩ := exec_pDone (i := .nop core q) (fun _ => id) h rfl
    exact ⟨_, t, hexec, hs, emptySlot_keeps _ q _⟩
  case ld =>
    intro core d p m1 u0 u1 s h
    obtain ⟨t, hexec, hs⟩ := exec_pDone (i := .ld core d p m1 u0 u1) (fun _ => id) h rfl
    exact ⟨_, t, hexec, hs, load_late _ _ d p m1 u0 u1, emptySlot_keeps _ _ _⟩
  case st =>
    intro core d p m1 u0 u1 s h
    obtain ⟨t, hexec, hs⟩ := exec_pDone (i := .st core d p m1 u0 u1) (fun _ => id) h rfl
    exact ⟨_, t, hexec, hs, fun hm => (firstStore_word _ _ _ (.st d p) m1 u0 u1 hm).trans (word_store_self _ _ _), emptySlot_keeps _ _ _⟩
  case sta =>
    intro core a sh p m1 u0 u1 s h
    obtain ⟨t, hexec, hs⟩ := exec_pDone (i := .sta core a sh p m1 u0 u1) (fun _ => id) h rfl
    exact ⟨_, t, hexec, hs, fun hm => (firstStore_word _ _ _ (.sta a sh p) m1 u0 u1 hm).trans (word_store_self _ _ _),
      sta_sat _ _ a sh p m1 u0 u1, emptySlot_keeps _ _ _⟩
  case upd =>
    intro core n op u1 s hn h
    obtain ⟨t, hexec, hs⟩ := exec_pDone (i := .addressUpdate core n op u1) (fun _ => id) h rfl
    exact ⟨_, t, hexec, hs, firstUpdate_ptr _ _ op u1 hn, emptySlot_keeps _ _ _⟩

end Sys2Proof.Machine
end

section
/-! PROOFS. Effect cores, control flow (R209, R217, R219 to R222): branches, calls, returns, repeats and loops. Obligation O28. -/

namespace Sys2Proof.Machine

open Sys2Proof.Claims

/-! ### Going on to the next instruction -/

/-- A count of cycles moves none of the places an instruction goes on to. -/
theorem bump_place (c : EcCore) (k : Nat) (e : EcCore) :
    (bump c k e).pc = e.pc ∧ (bump c k e).slots = e.slots ∧ (bump c k e).loops = e.loops := by
  unfold bump
  split <;> exact ⟨rfl, rfl, rfl⟩

theorem advance_slots {c : EcCore} {t n : Nat} (hr : c.rep = none) (hs : c.slots = some (t, n)) :
    c.advance = if n = 1 then { c with rep := none, slots := none, pc := t, loops := loopsFor t c.loops }
      else { c with rep := none, slots := some (t, n - 1), pc := (c.pc + 1) % 8192 } := by
  unfold EcCore.advance
  simp only [hr, hs]
  by_cases hn : n = 1
  · subst hn; rfl
  · rw [if_neg hn]
    split
    · next h => cases h; exact absurd rfl hn
    · next h => cases h; rfl
    · next h => cases h

theorem advance_next {c : EcCore} (hr : c.rep = none) (hs : c.slots = none) :
    c.advance = { c with rep := none, slots := none, pc := (ecNext c.pc c.loops).1, loops := (ecNext c.pc c.loops).2 } := by
  unfold EcCore.advance
  simp only [hr, hs]

theorem ecNext_inside {pc : Nat} {l : EcLoop} (r : List EcLoop) (h : pc ≠ l.stop) : ecNext pc (l :: r) = ((pc + 1) % 8192, l :: r) := by
  rw [ecNext, if_neg (by simpa using h)]

theorem ecNext_again {pc : Nat} {l : EcLoop} (r : List EcLoop) (h : pc = l.stop) (hc : 1 < l.count) :
    ecNext pc (l :: r) = (l.start, { l with count := l.count - 1 } :: r) := by
  rw [ecNext, if_pos (beq_iff_eq.mpr h), if_pos hc]

theorem ecNext_done {pc : Nat} {l : EcLoop} (r : List EcLoop) (h : pc = l.stop) (hc : l.count ≤ 1) :
    ecNext pc (l :: r) = ecNext pc r := by
  rw [ecNext, if_pos (beq_iff_eq.mpr h), if_neg (by omega)]

/-- An instruction that is not repeated goes on, and changes its place in the program alone. -/
theorem goesOn_advance {c : EcCore} (k : Nat) (hr : c.rep = none) : GoesOn c (bump c k c.advance) := by
  obtain ⟨hpc, hslots, hloops⟩ := bump_place c k c.advance
  refine ⟨?slot, ?target, ?plain, ?inside, ?again, ?closes⟩ <;> simp only [hpc, hslots, hloops]
  case slot =>
    intro t n hs hn
    rw [advance_slots hr hs, if_neg (by omega)]
    exact ⟨rfl, rfl⟩
  case target =>
    intro t hs
    rw [advance_slots hr hs, if_pos rfl]
    exact ⟨rfl, rfl⟩
  case plain =>
    intro hs hl
    rw [advance_next hr hs, hl]
    exact ⟨rfl, rfl, rfl⟩
  case inside =>
    intro l r hs hl hne
    rw [advance_next hr hs, hl, ecNext_inside r hne]
    exact ⟨rfl, rfl, rfl⟩
  case again =>
    intro l r hs hl heq hcount
    rw [advance_next hr hs, hl, ecNext_again r heq hcount]
    exact ⟨rfl, rfl, rfl⟩
  case closes =>
    intro l hs hl heq hcount
    rw [advance_next hr hs, hl, ecNext_done [] heq hcount]
    exact ⟨rfl, rfl, rfl⟩

theorem advance_rep {c : EcCore} (hr : c.rep = none) : c.advance.rep = none := by
  cases hs : c.slots with
  | none => rw [advance_next hr hs]
  | some x => rw [advance_slots hr hs]; split <;> rfl

theorem onlyFlow_advance {c : EcCore} (k : Nat) (hr : c.rep = none) : onlyFlow c (bump c k c.advance) := by
  have hnext := ((nextOnly_advance c).trans (nextOnly_bump c k c.advance)).same
  have hrep : (bump c k c.advance).rep = c.rep := by
    have hb : (bump c k c.advance).rep = c.advance.rep := by unfold bump; split <;> rfl
    rw [hb, advance_rep hr, hr]
  unfold onlyFlow
  rw [hrep] at hnext
  exact hnext

/-! ### Issue of an instruction that changes the flow -/

theorem flowReady_parts {core k : Nat} {s : State} (h : flowReady core k s = true) :
    ecUp core s = true ∧ ecFits core k s = true ∧ (s.ec core).rep = none ∧ (s.ec core).slots = none := by
  simp only [flowReady, cReady, Bool.and_eq_true, Option.isNone_iff_eq_none] at h
  obtain ⟨⟨⟨hup, hfits⟩, hrep⟩, hslots⟩ := h
  exact ⟨hup, hfits, hrep, hslots⟩

/-- Such an instruction that is ready leaves its core as its function made it, its cycles counted. -/
theorem flow_gives {i : Instr} {core k : Nat} {s : State} {cost : EcCore → Nat} {f : EcCore → Nat ⊕ (EcCore × EcEff)} {x : EcCore}
    (h : flowReady core k s = true) (hk : cost (ecAt core s) = k) (hf : f (ecAt core s) = .inr (x, .none))
    (hi : exec i s = .next (settle (ecRun core (fun env => ecIssue env .flow cost f) s))) :
    Gives i s (coreNow core (spent k (ecAt core s) x) s) := by
  obtain ⟨hup, hfits, hrep, hslots⟩ := flowReady_parts h
  subst hk
  rw [ecRun_ok hup, ecIssue_ok hup hfits (.inr ⟨hrep, .inr hslots⟩) hf] at hi
  exact exec_settled hi

/-! ### The obligation -/

/-- Settles O28: each clause is `flow_gives` with what the instruction's function makes of the core. -/
theorem ecControlFlow : Obligations.EcControlFlow := by
  unfold Obligations.EcControlFlow
  refine ⟨?br, ?call, ?retNot, ?ret, ?rpt, ?rptNone, ?loop, ?loopNone⟩
  case br =>
    intro core cond target s h
    exact flow_gives (i := .br core cond target) h rfl rfl rfl
  case call =>
    intro core cond target s h hroom
    refine flow_gives (i := .call core cond target) h rfl ?_ rfl
    cases hc : (ecAt core s).cond cond with
    | false => rfl
    | true =>
      have hlen : ¬ (ecAt core s).stack.length ≥ 8 := by
        have := hroom.resolve_left (by rw [hc]; decide)
        omega
      simp only [hlen, if_false]
      rfl
  case retNot =>
    intro core cond s h hc
    refine flow_gives (i := .ret core cond) h rfl ?_ rfl
    simp only [hc]
    rfl
  case ret =>
    intro core cond x r s h hc hstack
    refine flow_gives (i := .ret core cond) h rfl ?_ rfl
    simp only [hc, hstack]
    rfl
  case rpt =>
    intro core n s h k hpos hle
    have hrep : (ecAt core s).rep = none := (settle_rep _).trans (flowReady_parts h).2.2.1
    refine ⟨bump (ecAt core s) 2 (ecAt core s).advance, ?_, goesOn_advance 2 hrep, ?_, onlyFlow_advance 2 hrep⟩
    · have hgives := flow_gives (i := .rpt core n) (x := { (ecAt core s).advance with rep := some k }) h rfl
        (by
          have h1 : ¬ cntVal (ecAt core s) n > 4096 := by omega
          have h0 : (cntVal (ecAt core s) n == 0) = false := beq_false_of_ne (by omega)
          simp only [h1, h0, if_false]
          rfl) rfl
      have hcount : spent 2 (ecAt core s) { (ecAt core s).advance with rep := some k } =
          { bump (ecAt core s) 2 (ecAt core s).advance with rep := some k } := by
        unfold spent bump
        split <;> rfl
      rwa [hcount] at hgives
    · have hb : (bump (ecAt core s) 2 (ecAt core s).advance).rep = (ecAt core s).advance.rep := by
        unfold bump
        split <;> rfl
      rw [hb, advance_rep hrep]
  case rptNone =>
    intro core n s h hk hl
    refine flow_gives (i := .rpt core n) h rfl ?_ rfl
    simp only [hk, hl, ecNext]
    rw [← hl]
    rfl
  case loop =>
    intro core stop n s h c k hk hbody hroom
    have hk0 : (cntVal c n % 65536 == 0) = false := beq_false_of_ne hk
    refine flow_gives (i := .loop core stop n) h ?_ ?_ rfl
    · show (if (cntVal c n % 65536 == 0) = true then 3 else 1) = 1
      rw [hk0]
      rfl
    · have hlen : ¬ c.loops.length ≥ 2 := by omega
      show (if (!ecBodyOk c (c.pc + 1) stop) = true then _ else _) = _
      rw [hbody, hk0, if_neg (by decide), if_neg hlen]
      rfl
  case loopNone =>
    intro core stop n s h c hk hbody hl
    have hk0 : (cntVal c n % 65536 == 0) = true := beq_iff_eq.mpr hk
    refine flow_gives (i := .loop core stop n) h ?_ ?_ rfl
    · show (if (cntVal c n % 65536 == 0) = true then 3 else 1) = 3
      rw [hk0]
      rfl
    · show (if (!ecBodyOk c (c.pc + 1) stop) = true then _ else _) = _
      have hlen : ¬ c.loops.length ≥ 2 := by rw [hl]; decide
      rw [hbody, hk0, if_neg (by decide), if_neg hlen, if_pos rfl, hl]
      show Sum.inr (({ c with pc := (stop + 1) % 8192, loops := [] } : EcCore), EcEff.none) = _
      rw [← hl]

end Sys2Proof.Machine
end

section
/-! PROOFS. Effect cores, ends of a program (R222, R226, R231 to R235): HALT, faults, overruns, late halts, handlers, stops and
transfers. Obligation O30. -/

namespace Sys2Proof.Machine

open Sys2Proof.Claims

/-! ### What a settled state shows -/

/-- A register above the interrupt controller's block is not the controller's to write. -/
theorem not_ctlReg_of_le {a : Nat} (h : 0x30000 ≤ a) : ¬ ctlReg a := by
  unfold ctlReg R.irqPend R.irqFbLog R.irqFbPos R.irqCntFb R.glbMsixPba
  omega

theorem le_ecReg (c off : Nat) : 0x30000 ≤ ecReg c off := by unfold ecReg; omega

theorem settled_ec {u t : State} (h : Settled u t) (k : Nat) : t.ec k = u.ec k := by simp only [State.ec, h.ecs]

theorem settled_regHigh {u t : State} (h : Settled u t) {a : Nat} (ha : 0x30000 ≤ a) : t.reg a = u.reg a := h.reg a (not_ctlReg_of_le ha)

theorem settled_irqStack {u t : State} (h : Settled u t) (k : Nat) : irqStack t k = irqStack u k := by
  simp only [irqStack, h.inServ]

theorem leaves_of {i : Instr} {s u : State} {P : State → Prop} (hi : exec i s = .next (settle u)) (h : ∀ t, Settled u t → P t) :
    Leaves i s P := ⟨_, hi, h _ (settle_settled u)⟩

/-! ### Issues that fault -/

theorem ecIssue_fault {core n : Nat} {s : State} {kind : EcKind} {cost : EcCore → Nat} {f : EcCore → Nat ⊕ (EcCore × EcEff)}
    (hu : ecUp core s = true) (hf : ecFits core (cost (ecAt core s)) s = true)
    (hp : kind = .px ∨ ((s.ec core).rep = none ∧ (s.ec core).slots = none)) (hr : f (ecAt core s) = .inl n) :
    ecIssue (ecEnvOf s core) kind cost f (s.ec core) = ((ecAt core s).stopFault n, .faulted) := by
  simp only [ecUp, Bool.and_eq_true, Bool.not_eq_true', decide_eq_true_eq] at hu
  obtain ⟨⟨_, ha⟩, hw⟩ := hu
  have hover := fits_not_over hf
  have hplace : (((s.ec core).settle.rep.isSome && kind != .px) || ((s.ec core).settle.slots.isSome && kind == .flow)) = false := by
    rw [settle_rep, settle_slots]
    rcases hp with rfl | ⟨h1, h2⟩
    · simp
    · simp [h1, h2]
  have hr' : f (s.ec core).settle = .inl n := hr
  have hidle : (!(s.ec core).active || (s.ec core).waiting) = false := by simp [ha, hw]
  unfold ecIssue
  rw [if_neg (by rw [hidle]; decide)]
  dsimp only
  rw [if_neg (by rw [ecAt] at hover; rw [hover]; decide), if_neg (by rw [hplace]; decide), hr']
  rfl

/-! ### A core that stops -/

theorem ecReg_block {c off : Nat} (hc : c < 16) (ho : off < 0x1000) : ecReg c off / 0x10000 = 10 := by unfold ecReg; omega

theorem ecReg_ne {c off off' : Nat} (h : off ≠ off') : ecReg c off ≠ ecReg c off' := by unfold ecReg; omega

theorem ServeKeeps.ecReg {s t : State} (h : ServeKeeps s t) {c off : Nat} (hc : c < 16) (ho : off < 0x1000) :
    t.reg (ecReg c off) = s.reg (ecReg c off) := by
  have hblock := ecReg_block hc ho
  exact h.reg _ (by omega) (by omega)

/-- The place a core stopped at is recorded (R232, R233). -/
theorem stopped_faultPc {c : Nat} (hc : c < 16) {cnt b : Nat} (s : State) (hb : b < 32) (hcnt : cnt ≠ 0x2C) :
    (ecStopped c cnt b s).reg (ecReg c 0x2C) = wd (s.ec c).pc := by
  have hlow : 0x20140 ≤ Machine.ecReg c 0x2C := Nat.le_trans (by decide) (le_ecReg c _)
  unfold ecStopped
  dsimp only
  rw [((serve_takeOut c true _).trans (serve_ecServe c _)).ecReg hc (by decide), reg_evt_ne _ _ hb (ecReg_ne (by decide)) (.inr hlow),
    reg_inc_ne _ _ (ecReg_ne hcnt.symm), reg_setNat_self]

/-- From a state whose core `c` holds `e`, the end of its program leaves it stopped as `e` says. -/
theorem coreStopped_of {c cnt b : Nat} {s v t : State} {e : EcCore} (hc : c < 16) (hb : b < 32) (hcnt : cnt ≠ 0x2C) (he : v.ec c = e)
    (hothers : ∀ k, k ≠ c → v.ec k = s.ec k) (htick : v.tick = s.tick) (hcm : v.cm = s.cm)
    (hregs : e.d = (ecAt c s).d ∧ e.a = (ecAt c s).a ∧ e.p = (ecAt c s).p) (ht : Settled (ecStopped c cnt b v) t) :
    CoreStopped c b e.mode e.cause e.pc s t := by
  have hends := ends_ecStopped c cnt b v
  have hcore : t.ec c = { e with mem := ((ecStopped c cnt b v).ec c).mem } := by rw [settled_ec ht, hends.core, he]
  exact
    { mode := by rw [hcore]
      cause := by rw [hcore]
      pc := by rw [hcore]
      faultPc := by rw [settled_regHigh ht (le_ecReg c _), stopped_faultPc hc v hb hcnt, he]
      event := by
        have hevt := stopped_evt c cnt v hb hc
        simp only [State.bit] at hevt ⊢
        rwa [settled_regHigh ht (le_ecReg c _)]
      regs := by rw [hcore]; exact hregs
      others := fun k hk => by
        rw [settled_ec ht, hends.core, hothers k hk]
        exact ⟨rfl, rfl, rfl⟩
      tick := ht.tick.trans (hends.tick.trans htick)
      committed := ht.cm.trans (hends.cm.trans hcm) }

theorem ec_coreNow_self (core : Nat) (e : EcCore) (s : State) : (coreNow core e s).ec core = e := ec_setEc_self s core e

theorem ec_coreNow_ne {core k : Nat} (e : EcCore) (s : State) (h : k ≠ core) : (coreNow core e s).ec k = s.ec k := ec_setEc_ne s e h

/-- A fault of an instruction: cause `n`, event bit 1. -/
theorem fault_leaves {i : Instr} {core n : Nat} {s : State} {kind : EcKind} {cost : EcCore → Nat} {f : EcCore → Nat ⊕ (EcCore × EcEff)}
    (hu : ecUp core s = true) (hf : ecFits core (cost (ecAt core s)) s = true)
    (hp : kind = .px ∨ ((s.ec core).rep = none ∧ (s.ec core).slots = none)) (hr : f (ecAt core s) = .inl n)
    (hi : exec i s = .next (settle (ecRun core (fun env => ecIssue env kind cost f) s))) :
    Leaves i s (CoreStopped core 1 .fault n (s.ec core).pc s) := by
  have hpc : (ecAt core s).pc = (s.ec core).pc := (congrArg EcCore.pc (regsOnly_settle (s.ec core)).same :)
  have hcore : core < 16 := by
    simp only [ecUp, Bool.and_eq_true, decide_eq_true_eq] at hu
    exact hu.1.1
  rw [ecRun_ok hu, ecIssue_fault hu hf hp hr] at hi
  refine leaves_of hi fun t ht => hpc ▸ ?_
  exact coreStopped_of hcore (by decide) (by decide) (ec_coreNow_self core ((ecAt core s).stopFault n) s)
    (fun k hk => ec_coreNow_ne _ s hk) rfl rfl ⟨rfl, rfl, rfl⟩ ht

theorem lateHalt_running {c : Nat} {s : State} (h : (s.ec c).mode = .running) :
    lateHalt c s = failSelf (ecStopped c 0x3C 0 (s.setEc c ((s.ec c).stopFault 6))) := by
  have hrunning : ((s.ec c).mode == EcMode.running) = true := by rw [h]; rfl
  unfold lateHalt
  dsimp only
  rw [hrunning, Bool.true_or, if_pos rfl]

/-! ### HALT (R231) -/

theorem reg_ecFlags_ne {c off : Nat} (s : State) (h : off ≠ 0x28) : (ecFlags c s).reg (ecReg c off) = s.reg (ecReg c off) :=
  reg_setReg_ne s _ (ecReg_ne h)

/-- ECX_LAST_ISSUE after the end of a tick program. -/
theorem halted_lastIssue {c : Nat} (hc : c < 16) (s : State) : (ecHalted c s).reg (ecReg c 0x1C) = wd (s.ec c).issue := by
  unfold ecHalted
  dsimp only
  rw [((serve_takeOut c false _).trans (serve_ecServe c _)).ecReg hc (by decide), reg_ecFlags_ne _ (by decide),
    reg_setNat_ne _ _ (ecReg_ne (by decide))]
  split
  · rw [reg_setNat_ne _ _ (ecReg_ne (by decide)), reg_setNat_self]
  · rw [reg_setNat_self]

/-! ### Claims and stacks -/

theorem irqStack_setStack (s : State) (k : Nat) (l : List (Nat × Nat)) : irqStack (s.setStack k l) k = l := by
  unfold irqStack State.setStack
  dsimp only
  cases l with
  | nil => rw [List.isEmpty_nil, if_pos rfl, tabGetD, tabGet_tabDel_self, Option.getD_none]
  | cons x l => rw [List.isEmpty_cons, if_neg (by decide), tabGetD_tabSet_self]

theorem irqPrio_setPend (s : State) {x : Nat} (y : Nat) (v : Bool) (hx : x < 512) : irqPrio (s.setPend x v) y = irqPrio s y := by
  have hreg : (s.setPend x v).reg (irqCfg y) = s.reg (irqCfg y) :=
    reg_setPend_ne s x v hx (.inr (Nat.le_trans (show 0x20140 ≤ R.irqSrcCfg by decide) (Nat.le_add_right _ _)))
  simp only [irqPrio, State.field, hreg]

/-- A claim puts the source with its priority on the stack (R323). -/
theorem claimSrc_stack (s : State) (t : Nat) {x : Nat} (hx : x < 512) : irqStack (claimSrc s t x) t = (x, irqPrio s x) :: irqStack s t :=
  (irqStack_setStack _ _ _).trans (congrArg (fun p => (x, p) :: irqStack s t) (irqPrio_setPend s x false hx))

/-! ### Handlers (R226) -/

/-- What entry saves of a core. -/
def entrySave (e : EcCore) : EcSave :=
  { pc := e.pc, status := e.status, dec := e.dec, loops := e.loops, halted := e.mode == .halted }

/-- The core in a handler that begins at `vec` for source `x`. -/
def inHandler (e : EcCore) (vec x : Nat) : EcCore :=
  { e.store 0x7FFF (wd x) with
    save := some (entrySave e)
    mode := .handler
    pc := vec
    loops := []
    quota := e.quota + 2
    cyc := e.cyc + 2 }

theorem handlerEntry_eq {core x : Nat} {s : State} (hc : core < 16) (hopen : ecOpen (s.ec core) = true)
    (hquota : (s.ec core).quota < s.field (ecReg core 0x18) 15 0) (hx : irqCandidate s (core + 5) (fun _ => true) = some x) :
    ∃ vec, doIrqHandlerEntry core s = (claimSrc s (core + 5) x).setEc core (inHandler (s.ec core) vec x) := by
  refine ⟨fld ((ecCm (claimSrc s (core + 5) x) (s.ec core)).reg (ecReg core 0x10)) 12 0, ?_⟩
  unfold doIrqHandlerEntry
  dsimp only
  rw [if_neg (by rw [hopen]; simp; omega), if_neg (by omega), hx]
  rfl

/-- RETI: what was saved stands again (R226). -/
def handlerLeft (c : EcCore) (v : EcSave) : EcCore :=
  { c with
    pc := v.pc
    z := bit v.status 0
    n := bit v.status 1
    v := bit v.status 2
    c := bit v.status 3
    sat := bit v.status 8
    gov := bit v.status 9
    dec := v.dec
    loops := v.loops
    save := none
    slots := none
    rep := none
    mode := if v.halted then .halted else .running }

theorem reti_run {core : Nat} {v : EcSave} {s : State} (hu : ecUp core s = true) (hrep : (s.ec core).rep = none)
    (hmode : (s.ec core).mode = .handler) (hsave : (s.ec core).save = some v) :
    ecRun core (fun env => ecReti env) s =
      ecServe core (ecClaimDone core (coreNow core (bump (ecAt core s) 3 (handlerLeft (ecAt core s) v)) s)) := by
  have hfits : ecFits core 3 s = true := by simp [ecFits, hmode]
  have hm : (ecAt core s).mode = .handler := (settle_mode _).trans hmode
  have hs : (ecAt core s).save = some v := (congrArg EcCore.save (regsOnly_settle (s.ec core)).same :).trans hsave
  rw [ecRun_ok hu]
  unfold ecReti
  rw [ecIssue_ok (x := handlerLeft (ecAt core s) v) (eff := .reti) hu hfits (.inr ⟨hrep, .inl rfl⟩) (by simp only [hm, hs]; rfl)]
  rfl

/-! ### Transfers (R204) -/

/-- The words of a line of data memory, as bytes. -/
def lineBytes (e : EcCore) (loc : Nat) : List Byte := bytesOfWords ((List.range 8).map fun j => e.word (loc + j))

/-- A line that the core's bank takes is stored. -/
theorem xmovLine_out {core : Nat} {x : EcXfer} {s : State} (hout : x.out = true) (hlo : 0x10000000 ≤ x.cis) (hhi : x.cis < 0x18000000)
    (hreach : reaches s (0x10 + core) ((x.cis - 0x10000000) / 0x80000) = true) :
    xmovLine core x 0 s = (cisWrite s (x.cis - 0x10000000) (lineBytes (s.ec core) x.loc), false) := by
  simp only [reaches, Bool.and_eq_true, beq_iff_eq, Bool.not_eq_true'] at hreach
  obtain ⟨⟨howner, hpend⟩, -⟩ := hreach
  unfold xmovLine
  dsimp only [Nat.mul_zero, Nat.add_zero]
  have hin : ¬ (x.cis < 0x10000000 ∨ cisSize ≤ x.cis - 0x10000000) := by unfold cisSize; omega
  have hmine : ¬ (bankOwner s (bankOf (x.cis - 0x10000000)) ≠ 0x10 + core ∨
      (bankPending s (bankOf (x.cis - 0x10000000)) = true ∧ x.inFlight = false)) := by
    rw [bankOf, howner, hpend]
    simp
  rw [if_neg hin, if_neg hmine, if_pos hout]
  rfl

theorem cisWrite_ec (s : State) (a k : Nat) (l : List Byte) : (cisWrite s a l).ec k = s.ec k := rfl

theorem xmovComplete_line {core : Nat} {x : EcXfer} {rest : List EcXfer} {s : State} (hc : core < 16)
    (hq : (s.ec core).queue = x :: rest) (hout : x.out = true) (hlines : x.lines = 1) (hlo : 0x10000000 ≤ x.cis)
    (hhi : x.cis < 0x18000000) (hreach : reaches s (0x10 + core) ((x.cis - 0x10000000) / 0x80000) = true) :
    doXmovComplete core s = (cisWrite s (x.cis - 0x10000000) (lineBytes (s.ec core) x.loc)).setEc core
      { s.ec core with queue := rest } := by
  have hclear : s.cis.clearing.contains (bankOf (x.cis - 0x10000000)) = false := by
    simp only [reaches, Bool.and_eq_true, Bool.not_eq_true'] at hreach
    exact hreach.2
  have hwait : ¬ (16 ≤ core ∨
      ((List.range x.lines).map fun i => bankOf (x.cis + 32 * i - 0x10000000)).any (s.cis.clearing.contains ·) = true) := by
    rw [hlines, List.range_succ, List.range_zero, List.nil_append, List.map_singleton, List.any_cons, List.any_nil, Bool.or_false,
      Nat.mul_zero, Nat.add_zero, hclear]
    rintro (h | h)
    · omega
    · exact absurd h (by decide)
  have hline : (List.range x.lines).foldl (fun (s, bad) i => if bad then (s, bad) else xmovLine core x i s) (s, false) =
      xmovLine core x 0 s := by
    rw [hlines]
    rfl
  unfold doXmovComplete
  dsimp only
  rw [hq]
  dsimp only
  rw [if_neg hwait, hline, xmovLine_out hout hlo hhi hreach]
  dsimp only
  rw [Bool.false_and, if_neg (by decide), cisWrite_ec]

theorem ecClaimDone_ec (c k : Nat) (s : State) : (ecClaimDone c s).ec k = s.ec k := rfl

theorem ecClaimDone_stack (c : Nat) (s : State) : irqStack (ecClaimDone c s) (c + 5) = (irqStack s (c + 5)).tail :=
  irqStack_setStack _ _ _

theorem setEc_cis (s : State) (k : Nat) (e : EcCore) : (s.setEc k e).cis = s.cis := rfl

/-- A cistern write leaves its bytes and no others. -/
theorem wrote_cisWrite {s : State} (h : MemWf s) (off : Nat) (l : List Byte) : Wrote s (cisWrite s off l) off l :=
  fun a => memGet_cisWrite s off a l h

theorem wrote_of_cis {s t u : State} {off : Nat} {l : List Byte} (ht : t.cis = u.cis) (h : Wrote s u off l) : Wrote s t off l :=
  fun a => (congrArg (fun c => memGet c.mem a) ht).trans (h a)

/-! ### The obligation -/

/-- Settles O30: faults and overruns by `coreStopped_of`, HALT by `ends_ecHalted`, handlers by `handlerEntry_eq` and `reti_run`,
transfers by `xmovComplete_line`. -/
theorem ecEnds : Obligations.EcEnds := by
  unfold Obligations.EcEnds
  refine ⟨?halt, ?illegal, ?callFull, ?overrun, ?lateHalt, ?stopRamp, ?entry, ?reti, ?noTransfer, ?transfer⟩
  case halt =>
    intro core s h hmode
    obtain ⟨hup, hfits, hrep, hslots⟩ := flowReady_parts h
    have hcore : core < 16 := by
      simp only [ecUp, Bool.and_eq_true, decide_eq_true_eq] at hup
      exact hup.1.1
    have hm : (ecAt core s).mode = .running := (settle_mode _).trans hmode
    have hpc : (ecAt core s).pc = (s.ec core).pc := (congrArg EcCore.pc (regsOnly_settle (s.ec core)).same :)
    have hissue : (ecAt core s).issue = (s.ec core).issue := settle_issue _
    have hrun : ecRun core (fun env => ecHalt env) s =
        ecHalted core (coreNow core (bump (ecAt core s) 1 { ecAt core s with mode := .halted }) s) := by
      rw [ecRun_ok hup]
      unfold ecHalt
      rw [ecIssue_ok (x := { ecAt core s with mode := .halted }) (eff := .halted) hup hfits (.inr ⟨hrep, .inr hslots⟩)
        (by rw [hm]; rfl)]
      rfl
    refine leaves_of (u := ecRun core (fun env => ecHalt env) s) rfl fun t ht => ?_
    rw [hrun] at ht
    have hends := ends_ecHalted core (coreNow core (bump (ecAt core s) 1 { ecAt core s with mode := .halted }) s)
    have hbump : bump (ecAt core s) 1 { ecAt core s with mode := .halted } =
        { ecAt core s with mode := .halted, cyc := (ecAt core s).cyc + 1, issue := (ecAt core s).issue + 1 } := if_pos hm
    rw [hbump] at ht hends
    have hec := (settled_ec ht core).trans (hends.core core)
    rw [ec_coreNow_self] at hec
    refine ⟨by rw [hec], by rw [hec]; exact hpc, by rw [hec, ← hissue], by rw [hec], ?_, ht.tick.trans hends.tick,
      ht.cm.trans hends.cm⟩
    rw [settled_regHigh ht (le_ecReg _ _), halted_lastIssue hcore, ec_coreNow_self, ← hissue]
    rfl
  case illegal =>
    intro core s hup hfits
    exact fault_leaves (i := .illegalInstruction core) (kind := .px) (cost := fun _ => 1) hup hfits (.inl rfl) rfl rfl
  case callFull =>
    intro core cond target s h hcond hfull
    obtain ⟨hup, hfits, hrep, hslots⟩ := flowReady_parts h
    refine fault_leaves (i := .call core cond target) (kind := .flow) (cost := fun _ => 1) hup hfits (.inr ⟨hrep, hslots⟩) ?_ rfl
    have hlen : (ecAt core s).stack.length ≥ 8 := by omega
    simp only [hcond, hlen, if_true]
    rfl
  case overrun =>
    intro core s hc hmode hwait hover
    refine leaves_of (u := doEcOverrun core s) rfl fun t ht => ?_
    rw [doEcOverrun, if_pos ⟨hc, hmode, hwait, hover⟩] at ht
    have hpc : (ecAt core s).pc = (s.ec core).pc := (congrArg EcCore.pc (regsOnly_settle (s.ec core)).same :)
    have hcause : (ecAt core s).cause = (s.ec core).cause := (congrArg EcCore.cause (regsOnly_settle (s.ec core)).same :)
    rw [← hpc, ← hcause]
    exact coreStopped_of hc (by decide) (by decide) (ec_setEc_self s core { ecAt core s with mode := .overrun })
      (fun k hk => ec_setEc_ne s _ hk) rfl rfl ⟨rfl, rfl, rfl⟩ ht
  case lateHalt =>
    intro core s hruns hc hmode
    have hactive : (s.ec core).active = true := by rw [EcCore.active, hmode]; rfl
    refine leaves_of (u := doLateHalt core s) rfl fun t ht => ?_
    have hlate : doLateHalt core s =
        failSelf (ecStopped core 0x3C 0 ((s.atClk s.tickEnd).setEc core ((s.ec core).stopFault 6))) := by
      have hmode' : ((s.atClk s.tickEnd).ec core).mode = .running := hmode
      rw [doLateHalt, if_pos ⟨hruns, hc, hactive⟩, lateHalt_running hmode']
      rfl
    rw [hlate] at ht
    have hends := ends_ecStopped core 0x3C 0 ((s.atClk s.tickEnd).setEc core ((s.ec core).stopFault 6))
    have hec := (settled_ec ht core).trans (hends.core core)
    rw [ec_setEc_self] at hec
    refine ⟨by rw [hec]; rfl, by rw [hec]; rfl, by rw [hec]; rfl, ?_, ?_, by rw [ht.cis]; rfl⟩
    · rw [settled_regHigh ht (le_ecReg _ _)]
      refine (stopped_faultPc hc _ (by decide) (by decide)).trans ?_
      rw [ec_setEc_self]
      rfl
    · have hevt := stopped_evt core 0x3C (b := 0) ((s.atClk s.tickEnd).setEc core ((s.ec core).stopFault 6)) (by decide) hc
      simp only [State.bit] at hevt ⊢
      rw [settled_regHigh ht (le_ecReg _ _)]
      exact hevt
  case stopRamp =>
    intro core d s hdue hle hat
    refine exec_settled (i := .ecStopRampEnd core) (congrArg (fun u => Host.Outcome.next (settle u)) ?_)
    unfold doEcStopRampEnd
    simp only [hdue]
    rw [if_pos ⟨hle, hat⟩]
  case entry =>
    intro core x s hc hopen hquota hx
    obtain ⟨vec, hentry⟩ := handlerEntry_eq hc hopen hquota hx
    refine leaves_of (u := doIrqHandlerEntry core s) rfl fun t ht => ?_
    rw [hentry] at ht
    have hec := settled_ec ht core
    rw [ec_setEc_self] at hec
    rw [hec, settled_irqStack ht]
    refine ⟨rfl, rfl, rfl, word_store_self _ _ _, claimSrc_stack s (core + 5) (irqCandidate_lt hx), entrySave (s.ec core), rfl, rfl, rfl,
      rfl, rfl, ?_⟩
    rw [entrySave]
    cases (s.ec core).mode <;> rfl
  case reti =>
    intro core v s hup hrep hmode hsave
    refine leaves_of (u := ecRun core (fun env => ecReti env) s) rfl fun t ht => ?_
    rw [reti_run hup hrep hmode hsave] at ht
    have hm : (ecAt core s).mode ≠ .running := by rw [ecAt, settle_mode, hmode]; decide
    have hserve := serve_ecServe core (ecClaimDone core (coreNow core (bump (ecAt core s) 3 (handlerLeft (ecAt core s) v)) s))
    have hbump : bump (ecAt core s) 3 (handlerLeft (ecAt core s) v) =
        { handlerLeft (ecAt core s) v with cyc := (ecAt core s).cyc + 3, quota := (ecAt core s).quota + 3 } := if_neg hm
    rw [hbump] at ht hserve
    have hec := (settled_ec ht core).trans (hserve.core core)
    rw [ecClaimDone_ec, ec_coreNow_self] at hec
    have hquota : (ecAt core s).quota = (s.ec core).quota := (congrArg EcCore.quota (regsOnly_settle (s.ec core)).same :)
    refine ⟨by rw [hec]; rfl, by rw [hec]; rfl, by rw [hec]; rfl, by rw [hec]; rfl, by rw [hec]; rfl, by rw [hec]; rfl,
      by rw [hec, ← hquota], by rw [hec]; rfl, ?_⟩
    rw [settled_irqStack ht, irqStack, hserve.irq]
    exact ecClaimDone_stack core _
  case noTransfer =>
    intro core s hq
    refine exec_settled (i := .xmovComplete core) (congrArg (fun u => Host.Outcome.next (settle u)) ?_)
    unfold doXmovComplete
    simp only [hq]
  case transfer =>
    intro core x rest s hc hq hout hlines _ hlo hhi _ hreach hwf
    refine leaves_of (u := doXmovComplete core s) rfl fun t ht => ?_
    rw [xmovComplete_line hc hq hout hlines hlo hhi hreach] at ht
    have hec := settled_ec ht core
    rw [ec_setEc_self] at hec
    exact ⟨by rw [hec], by rw [hec], by rw [hec], wrote_of_cis (ht.cis.trans (setEc_cis _ _ _)) (wrote_cisWrite hwf _ _)⟩

end Sys2Proof.Machine
end

section
/-! PROOFS. Interrupts (R315 to R329): doorbells and routing, claims, hold-offs and the host link. Obligations O36, O37 and O39. -/

namespace Sys2Proof.Machine

open Sys2Proof.Claims

/-- A command that leaves `v` before the controller follows gives what `v` is. -/
theorem gives_of {i : Instr} {s v u : State} (hi : exec i s = .next (settle v)) (h : v = u) : Gives i s u := by
  subst h
  exact ⟨_, hi, settle_settled v⟩

/-! ### Doorbells and routing -/

theorem ringDoorbell_pends {s : State} {val : Nat} (hlt : val % 512 < 480) (hpend : s.isPend (val % 512) = false)
    (hen : s.srcEn (val % 512) = true) : ringDoorbell s val = s.setPend (val % 512) true := by
  unfold ringDoorbell
  dsimp only
  rw [if_neg (by omega), ringSource, hpend, if_neg (by decide), State.edge, if_pos hen]

theorem ringDoorbell_disabled {s : State} {val : Nat} (hlt : val % 512 < 480) (hpend : s.isPend (val % 512) = false)
    (hen : s.srcEn (val % 512) = false) : ringDoorbell s val = s := by
  unfold ringDoorbell
  dsimp only
  rw [if_neg (by omega), ringSource, hpend, if_neg (by decide), State.edge, hen, if_neg (by decide)]

theorem ringDoorbell_merges {s : State} {val : Nat} (hlt : val % 512 < 480) (hpend : s.isPend (val % 512) = true) :
    ringDoorbell s val = s.inc R.irqCntDbMerge := by
  unfold ringDoorbell
  dsimp only
  rw [if_neg (by omega), ringSource, if_pos hpend]

theorem ringDoorbell_refused {s : State} {val : Nat} (h : 480 ≤ val % 512) : ringDoorbell s val = msgErr s := if_pos h

theorem irqLocked_iff (src : Nat) : irqLocked src = true ↔ src = 40 ∨ 480 ≤ src := by
  simp [irqLocked]

theorem doIrqSrcCfgWrite_sets {src : Nat} (val : Word) (s : State) (hlt : src < 480) (h40 : src ≠ 40) :
    doIrqSrcCfgWrite src val s = s.setReg (irqCfg src) (val &&& 0xC01F0F1F) := by
  have hfree : ¬ irqLocked src = true := by
    rw [irqLocked_iff]
    omega
  rw [doIrqSrcCfgWrite, if_neg (by omega), if_neg hfree]

theorem doIrqSrcCfgWrite_locked {src : Nat} (val : Word) (s : State) (hlt : src < 512) (h : src = 40 ∨ 480 ≤ src) :
    doIrqSrcCfgWrite src val s = msgErr s := by
  rw [doIrqSrcCfgWrite, if_neg (by omega), if_pos ((irqLocked_iff src).mpr h)]
  rfl

/-- Settles O36: one equation of `ringDoorbell` or `doIrqSrcCfgWrite` for each clause. -/
theorem irqMessagesAndRouting : Obligations.IrqMessagesAndRouting := by
  unfold Obligations.IrqMessagesAndRouting
  refine ⟨fun val s hlt hpend hen => ?_, fun val s hlt hpend hen => ?_, fun val s hlt hpend => ?_, fun val s h => ?_,
    fun src val s hlt h40 => ?_, fun src val s hlt h => ?_⟩
  · exact gives_of (v := doIrqDoorbell val s) rfl (ringDoorbell_pends hlt hpend hen)
  · exact gives_of (v := doIrqDoorbell val s) rfl (ringDoorbell_disabled hlt hpend hen)
  · exact gives_of (v := doIrqDoorbell val s) rfl (ringDoorbell_merges hlt hpend)
  · exact gives_of (v := doIrqDoorbell val s) rfl (ringDoorbell_refused h)
  · exact gives_of (v := doIrqSrcCfgWrite src val s) rfl (doIrqSrcCfgWrite_sets val s hlt h40)
  · exact gives_of (v := doIrqSrcCfgWrite src val s) rfl (doIrqSrcCfgWrite_locked val s hlt h)

/-! ### Delivery -/

theorem deliverable_iff {tgt src : Nat} {s : State} (h40 : ¬ (src = 40 ∧ tgt = 0)) :
    deliverable s tgt src = true ↔
      s.isPend src = true ∧ s.srcEn src = true ∧ s.irq.rel.contains src = true ∧ irqRoute s src = tgt ∧
      (∀ e ∈ (irqStack s tgt).head?, e.2 < irqPrio s src) ∧ (∀ e ∈ tabGet s.irq.frozen tgt, e.1 < irqPrio s src) ∧
      (5 ≤ tgt → ecTakes s (tgt - 5) (irqWake s src) = true) := by
  have hstack : (match irqStack s tgt with
      | [] => true
      | (_, p) :: _ => decide (p < irqPrio s src)) = true ↔ ∀ e ∈ (irqStack s tgt).head?, e.2 < irqPrio s src := by
    cases irqStack s tgt <;> simp
  have hfrozen : (match tabGet s.irq.frozen tgt with
      | none => true
      | some (fp, _) => decide (fp < irqPrio s src)) = true ↔ ∀ e ∈ tabGet s.irq.frozen tgt, e.1 < irqPrio s src := by
    cases tabGet s.irq.frozen tgt <;> simp
  have hcore : (if tgt < 5 then true else ecTakes s (tgt - 5) (irqWake s src)) = true ↔
      (5 ≤ tgt → ecTakes s (tgt - 5) (irqWake s src) = true) := by
    by_cases h : tgt < 5
    · simp [h, Nat.not_le.mpr h]
    · simp [h, Nat.not_lt.mp h]
  unfold deliverable
  rw [if_neg h40]
  simp only [Bool.and_eq_true, beq_iff_eq, hcore, and_assoc]
  exact and_congr_right fun _ => and_congr_right fun _ => and_congr_right fun _ => and_congr_right fun _ =>
    and_congr hstack (and_congr_left' hfrozen)

/-! ### Candidates and claims -/

/-- `y` gives way to `x`: a lower priority, or an equal one and no lower number (R320). -/
def givesWay (s : State) (y x : Nat) : Prop := irqPrio s y < irqPrio s x ∨ (irqPrio s y = irqPrio s x ∧ x ≤ y)

/-- One step of `irqBest`. -/
def irqBetter (s : State) (b : Option Nat) (x : Nat) : Option Nat :=
  match b with
  | none => some x
  | some y => if irqPrio s y < irqPrio s x ∨ (irqPrio s y = irqPrio s x ∧ x < y) then some x else some y

theorem irqBest_eq_foldl (s : State) (l : List Nat) : irqBest s l = l.foldl (irqBetter s) none := rfl

/-- Once the best source is held, what gives way to it does not displace it. -/
theorem irqBetter_keeps {s : State} {x y : Nat} (h : givesWay s y x) : irqBetter s (some x) y = some x := by
  unfold givesWay at h
  exact if_neg (by omega)

theorem irqBetter_takes {s : State} {x : Nat} {b : Option Nat} (h : ∀ y ∈ b, givesWay s y x) : irqBetter s b x = some x := by
  cases b with
  | none => rfl
  | some y =>
    have hy := h y rfl
    unfold givesWay at hy
    unfold irqBetter
    dsimp only
    by_cases hxy : x = y
    · subst hxy
      exact ite_self _
    · exact if_pos (by omega)

theorem irqBetter_givesWay {s : State} {x y : Nat} {b : Option Nat} (hb : ∀ z ∈ b, givesWay s z x) (hy : givesWay s y x) :
    ∀ z ∈ irqBetter s b y, givesWay s z x := by
  cases b with
  | none =>
    rintro z ⟨⟩
    exact hy
  | some w =>
    unfold irqBetter
    dsimp only
    split <;> rintro z ⟨⟩
    · exact hy
    · exact hb w rfl

/-- A member to which every member gives way is the best of a list. -/
theorem foldl_irqBetter {s : State} {x : Nat} (l : List Nat) (b : Option Nat) (hl : ∀ y ∈ l, givesWay s y x)
    (hb : ∀ y ∈ b, givesWay s y x) (hx : x ∈ l ∨ b = some x) : l.foldl (irqBetter s) b = some x := by
  induction l generalizing b with
  | nil => exact hx.resolve_left (by simp)
  | cons y l ih =>
    have hy := hl y (List.mem_cons_self ..)
    refine ih _ (fun z hz => hl z (List.mem_cons_of_mem _ hz)) (irqBetter_givesWay hb hy) ?_
    rcases hx with hx | rfl
    · rcases List.mem_cons.mp hx with rfl | hx
      · exact .inr (irqBetter_takes hb)
      · exact .inl hx
    · exact .inr (irqBetter_keeps hy)

/-- The sources among which a target's candidate is sought. -/
theorem mem_claimable {s : State} {tgt y : Nat} {f : Nat → Bool} :
    y ∈ (pendList s).filter (fun x => deliverable s tgt x && f x && !(x == 40 && tgt == 0)) ↔
      y < 512 ∧ deliverable s tgt y = true ∧ f y = true ∧ ¬ (y = 40 ∧ tgt = 0) := by
  simp only [List.mem_filter, mem_pendList, Bool.and_eq_true, Bool.not_eq_true', Bool.and_eq_false_iff, beq_eq_false_iff_ne, ne_eq,
    not_and_or]
  constructor
  · rintro ⟨⟨hlt, -⟩, ⟨hd, hf⟩, h⟩
    exact ⟨hlt, hd, hf, h⟩
  · rintro ⟨hlt, hd, hf, h⟩
    exact ⟨⟨hlt, deliverable_isPend hd⟩, ⟨hd, hf⟩, h⟩

theorem irqCandidate_eq_some {s : State} {tgt x : Nat} {f : Nat → Bool} (h : Candidate s tgt f x) :
    irqCandidate s tgt f = some x := by
  obtain ⟨hx, hbest⟩ := h
  exact foldl_irqBetter _ none (fun y hy => hbest y (mem_claimable.mp hy)) (by rintro y ⟨⟩) (.inl (mem_claimable.mpr hx))

theorem irqCandidate_eq_none {s : State} {tgt : Nat} {f : Nat → Bool} (h : NoCandidate s tgt f) : irqCandidate s tgt f = none := by
  have hnil : (pendList s).filter (fun x => deliverable s tgt x && f x && !(x == 40 && tgt == 0)) = [] := by
    refine List.eq_nil_iff_forall_not_mem.mpr fun y hy => ?_
    obtain ⟨hlt, hd, hf, h40⟩ := mem_claimable.mp hy
    rw [h y hlt hf h40] at hd
    cases hd
  rw [irqCandidate, hnil]
  rfl

/-- A claim is R323's. -/
theorem claimSrc_eq_claimed (s : State) (tgt : Nat) {x : Nat} (hx : x < 512) : claimSrc s tgt x = claimed s tgt x := by
  have hprio := irqPrio_setPend s (y := x) false hx
  unfold claimSrc State.setStack claimed
  dsimp only
  rw [List.isEmpty_cons, if_neg (by decide)]
  exact congrArg (fun p => ({ s.setPend x false with irq := { (s.setPend x false).irq with
    rel := (s.setPend x false).irq.rel.filter (· != x)
    inServ := tabSet (s.setPend x false).irq.inServ tgt ((x, p) :: irqStack s tgt) } } : State)) hprio

theorem claimRead_candidate {s : State} {tgt x : Nat} {f : Nat → Bool} (h : Candidate s tgt f x) :
    claimRead s tgt f = (claimed s tgt x, wd (irqPrio s x * 65536 + x)) := by
  have hlt : x < 512 := h.1.1
  rw [claimRead, irqCandidate_eq_some h]
  dsimp only
  rw [claimSrc_eq_claimed s tgt hlt]

theorem claimRead_none {s : State} {tgt : Nat} {f : Nat → Bool} (h : NoCandidate s tgt f) :
    claimRead s tgt f = (s.inc R.irqCntEmpty, 0x3FF) := by
  rw [claimRead, irqCandidate_eq_none h]

theorem doIrqClaim_eq {tgt : Nat} {s : State} (h : tgt ≤ 20) :
    doIrqClaim tgt s = (claimRead s tgt fun _ => true).1.emit (.read 0 (R.irqClaim + 0x20 * tgt) (claimRead s tgt fun _ => true).2) :=
  if_pos h

theorem doIrqHostVclaim_eq {vec : Nat} {s : State} (h : vec < 32) :
    doIrqHostVclaim vec s = (claimRead s 0 fun x => irqVec s x == vec).1.emit
      (.read 0 (R.irqHostVclaim + 4 * vec) (claimRead s 0 fun x => irqVec s x == vec).2) :=
  if_pos h

/-- Settles O37: `deliverable_iff` for delivery, `claimRead_candidate` and `claimRead_none` for the claims. -/
theorem irqClaims : Obligations.IrqClaims := by
  unfold Obligations.IrqClaims
  refine ⟨fun tgt src s h => deliverable_iff h, fun tgt x s htgt h => ?_, fun tgt s htgt h => ?_, fun vec x s hvec h => ?_,
    fun vec s hvec h => ?_⟩
  · exact gives_of (v := doIrqClaim tgt s) rfl (by rw [doIrqClaim_eq htgt, claimRead_candidate h])
  · exact gives_of (v := doIrqClaim tgt s) rfl (by rw [doIrqClaim_eq htgt, claimRead_none h])
  · exact gives_of (v := doIrqHostVclaim vec s) rfl (by rw [doIrqHostVclaim_eq hvec, claimRead_candidate h])
  · exact gives_of (v := doIrqHostVclaim vec s) rfl (by rw [doIrqHostVclaim_eq hvec, claimRead_none h])

/-! ### Hold-offs -/

/-- Every pending source of group `g` is released. -/
def GroupFree (g : Nat) (s : State) : Prop := ∀ x, x / 32 = g → s.isPend x = true → s.irq.rel.contains x = true

theorem releaseGroup_free {s : State} {g : Nat} (h : tabGet s.irq.hold g = none) : GroupFree g (releaseGroup s g) := by
  intro x hx hpend
  rw [isPend_congr (releaseGroup_released s g).regs] at hpend
  by_cases hrel : s.irq.rel.contains x = true
  · exact (releaseGroup_released s g).grows x hrel
  have hfresh : x ∈ freshOf s g := mem_freshOf.mpr ⟨hx, hpend, by simpa using hrel⟩
  have hw : s.reg (R.irqPend + 4 * g) ≠ 0 := by
    rintro hzero
    rw [State.isPend, State.bit, hx, Nat.mul_comm g 4, hzero] at hpend
    simp at hpend
  have hsome : ¬ (freshOf s g).isEmpty = true := fun hnil => by
    rw [List.isEmpty_iff.mp hnil] at hfresh
    cases hfresh
  have heq : (releaseGroup s g).irq.rel = sortBy id (s.irq.rel ++ freshOf s g) := by
    unfold releaseGroup
    rw [if_neg (by rw [h]; decide)]
    dsimp only
    rw [if_neg hw]
    exact congrArg (fun u : State => u.irq.rel) (if_neg hsome)
  rw [heq, List.contains_iff_mem, mem_sortBy, List.mem_append]
  exact .inr hfresh

theorem releaseGroup_hold_ne (s : State) {g k : Nat} (h : g ≠ k) : tabGet (releaseGroup s k).irq.hold g = tabGet s.irq.hold g := by
  unfold releaseGroup
  split
  · rfl
  · dsimp only
    split
    · rfl
    · split
      · rfl
      · dsimp only
        split
        · rfl
        · split
          · split
            · exact tabGet_tabSet_ne _ _ h
            · rfl
          · exact tabGet_tabSet_ne _ _ h

theorem GroupFree.releaseGroup {g : Nat} {s : State} (h : GroupFree g s) (k : Nat) : GroupFree g (Machine.releaseGroup s k) := by
  intro x hx hpend
  rw [isPend_congr (releaseGroup_released s k).regs] at hpend
  exact (releaseGroup_released s k).grows x (h x hx hpend)

/-- A group whose hold-off does not run is released when its turn comes. -/
theorem releaseGroups_free {g : Nat} (l : List Nat) {s : State} (hg : g ∈ l) (h : tabGet s.irq.hold g = none) :
    GroupFree g (l.foldl releaseGroup s) := by
  induction l generalizing s with
  | nil => cases hg
  | cons k l ih =>
    by_cases hk : g = k
    · subst hk
      show GroupFree g (l.foldl releaseGroup (releaseGroup s g))
      exact foldl_keeps _ (fun u k _ hu => hu.releaseGroup k) (releaseGroup_free h)
    · exact ih ((List.mem_cons.mp hg).resolve_left hk) ((releaseGroup_hold_ne s hk).trans h)

theorem GroupFree.setReg {g : Nat} (hg : g < 16) {s : State} {a : Nat} (v : Word) (ha : a < 0x20100 ∨ 0x20140 ≤ a) (h : GroupFree g s) :
    GroupFree g (s.setReg a v) := by
  intro x hx hpend
  rw [isPend_setReg_ne s v (by omega) ha] at hpend
  exact h x hx hpend

theorem GroupFree.unpend {g : Nat} {s : State} (x : Nat) (h : GroupFree g s) :
    GroupFree g { s.setPend x false with irq := { s.irq with rel := s.irq.rel.filter (· != x) } } := by
  intro y hy hpend
  show (s.irq.rel.filter (· != x)).contains y = true
  rw [contains_filter_ne, Bool.and_eq_true]
  have hyx : y ≠ x := by
    rintro rfl
    exact absurd ((isPend_setPend_self s y false).symm.trans hpend) (by decide)
  exact ⟨h y hy ((isPend_setPend_ne s false hyx).symm.trans hpend), by simpa using hyx⟩

theorem GroupFree.fallbackOne {g : Nat} (hg : g < 16) {s : State} (h : GroupFree g s) : GroupFree g (Machine.fallbackOne s) := by
  unfold Machine.fallbackOne
  split
  · exact h
  · next src _ =>
    have hlog : 0x20140 ≤ R.irqFbLog := by decide
    exact .setReg hg _ (by decide) (.setReg hg _ (by decide) (.setReg hg _ (.inr (by omega))
      (.setReg hg _ (.inr (by omega)) (.unpend src h))))

theorem GroupFree.fallbackAll {g : Nat} (hg : g < 16) {s : State} (h : GroupFree g s) : GroupFree g (Machine.fallbackAll s) := by
  unfold Machine.fallbackAll
  split
  · exact foldl_keeps _ (fun u _ _ hu => hu.fallbackOne hg) h
  · exact h

theorem GroupFree.of_msixOnly {g : Nat} {s t : State} (ht : MsixOnly s t) (h : GroupFree g s) : GroupFree g t := by
  intro x hx hpend
  have hreg : t.reg (R.irqPend + x / 32 * 4) = s.reg (R.irqPend + x / 32 * 4) := ht.reg _ (by
    show 0x20100 + x / 32 * 4 ≠ 0x9000
    omega)
  rw [State.isPend, State.bit, hreg] at hpend
  rw [ht.irq]
  exact h x hx hpend

theorem settledToSend_free {g : Nat} (hg : g < 16) {u : State} (h : tabGet u.irq.hold g = none) : GroupFree g (settledToSend u) := by
  have hs : GroupFree g (fallbackAll (releaseAll (dropReleased u))) :=
    .fallbackAll hg (releaseGroups_free _ (List.mem_range.mpr hg) h)
  unfold settledToSend
  dsimp only
  generalize fallbackAll (releaseAll (dropReleased u)) = s at hs
  split
  · exact hs
  · have hmsg := msixOnly_foldl ((hostDeliv s).filter fun x => !s.irq.deliv.contains x)
      (fun t x _ => msixOnly_owe t (irqVec_lt t x)) s
    exact (hs.of_msixOnly hmsg :)

/-- After a command that leaves a group's hold-off ended, every pending source of the group is released. -/
theorem settle_free {g : Nat} (hg : g < 16) {u : State} (h : tabGet u.irq.hold g = none) : GroupFree g (settle u) :=
  ((settledToSend_free hg h).of_msixOnly (msixOnly_msixSend (settledToSend u)) :)

/-! ### The host link -/

theorem doHoldoffEnd_clk {g c : Nat} {s : State} (h : tabGet s.irq.hold g = some (.clk c)) (hdue : s.dueOk c = true) :
    doHoldoffEnd g s = { s.atClk c with irq := { s.irq with hold := tabDel s.irq.hold g } } := by
  unfold doHoldoffEnd
  rw [h]
  exact if_pos hdue

theorem doHoldoffEnd_tick {g n : Nat} {s : State} (h : tabGet s.irq.hold g = some (.tick n)) (hdue : n ≤ s.tick) :
    doHoldoffEnd g s = { s with irq := { s.irq with hold := tabDel s.irq.hold g } } := by
  unfold doHoldoffEnd
  rw [h]
  exact if_pos hdue

theorem doHostFallback_due {c : Nat} {s : State} (hdown : s.irq.downAt = some c) (hlink : s.linkUp = false)
    (hact : s.fallbackAct = false) (hdue : s.dueOk (c + s.field R.irqHostFallbackMs 15 0 * 1250000) = true) :
    doHostFallback s = ((s.atClk (c + s.field R.irqHostFallbackMs 15 0 * 1250000)).setBit R.irqStatus 1 true).evt R.irqEvtStatus 1 := by
  unfold doHostFallback
  rw [hdown]
  refine if_pos ?_
  rw [hlink, hact]
  exact hdue

/-- Settles O39: `settle_free` for what a hold-off's end releases; the host link by the definitions of its commands. -/
theorem irqTimersAndHostLink : Obligations.IrqTimersAndHostLink := by
  unfold Obligations.IrqTimersAndHostLink
  refine ⟨fun g c s hold hdue => ?_, fun g n s hold hdue => ?_, fun s hlink => ?_, fun c s hdown hlink hact hdue => ?_, fun s => ?_,
    fun d0 l0 s => gives_of (v := doPciePowerState d0 l0 s) rfl rfl⟩
  · have hdo := doHoldoffEnd_clk hold hdue
    have hset := settle_settled (doHoldoffEnd g s)
    refine ⟨_, rfl, hset.clk.trans (by rw [hdo]; rfl), hset.tick.trans (by rw [hdo]; rfl), hset.inServ.trans (by rw [hdo]), fun hg => ?_⟩
    exact settle_free hg (by rw [hdo]; exact tabGet_tabDel_self _ _)
  · have hdo := doHoldoffEnd_tick hold hdue
    have hset := settle_settled (doHoldoffEnd g s)
    refine ⟨_, rfl, hset.clk.trans (by rw [hdo]), hset.tick.trans (by rw [hdo]), hset.inServ.trans (by rw [hdo]), fun hg => ?_⟩
    exact settle_free hg (by rw [hdo]; exact tabGet_tabDel_self _ _)
  · exact gives_of (v := doPcieLinkDown s) rfl (if_pos hlink)
  · exact gives_of (v := doHostFallback s) rfl (doHostFallback_due hdown hlink hact hdue)
  · refine leaves_of (u := doPcieLinkUp s) rfl fun t ht => ?_
    have hstatus : t.reg R.irqStatus = (doPcieLinkUp s).reg R.irqStatus := ht.reg _ (by
      unfold ctlReg
      decide)
    have hup : (doPcieLinkUp s).linkUp = true := by
      show ((s.setBit R.irqStatus 0 true).setBit R.irqStatus 1 false).bit R.irqStatus 0 = true
      rw [bit_setBit_ne _ _ _ (by decide) (by decide), bit_setBit_self _ _ _ (by decide)]
    have hact : (doPcieLinkUp s).fallbackAct = false := bit_setBit_self _ _ _ (by decide)
    refine ⟨?_, ?_, ht.downAt, ht.clk, ht.inServ⟩
    · rw [State.linkUp, State.bit, hstatus]
      exact hup
    · rw [State.fallbackAct, State.bit, hstatus]
      exact hact

end Sys2Proof.Machine
end

section
/-! PROOFS. The cistern (R286 to R297): handover of banks and the canonical form of its bytes. Obligations O40 and O45. -/

namespace Sys2Proof.Machine

open Sys2Proof.Claims

/-! ### Steps that only note something in registers -/

/-- `t` is `s` but for registers and snapshot triggers: counters, flags and events. -/
def NotesOnly (s t : State) : Prop := t = { s with regs := t.regs, snp := t.snp }

theorem NotesOnly.refl (s : State) : NotesOnly s s := rfl

theorem NotesOnly.trans {a b c : State} (h1 : NotesOnly a b) (h2 : NotesOnly b c) : NotesOnly a c := by
  refine Eq.trans h2 ?_
  rw [h1]

theorem notesOnly_setReg (s : State) (a : Nat) (v : Word) : NotesOnly s (s.setReg a v) := rfl

theorem notesOnly_evt (s : State) (a b : Nat) : NotesOnly s (s.evt a b) := evt_same s a b

theorem NotesOnly.setReg {s t : State} (h : NotesOnly s t) (a : Nat) (v : Word) : NotesOnly s (t.setReg a v) :=
  h.trans (notesOnly_setReg t a v)

theorem NotesOnly.evt {s t : State} (h : NotesOnly s t) (a b : Nat) : NotesOnly s (t.evt a b) := h.trans (notesOnly_evt t a b)

theorem NotesOnly.cis {s t : State} (h : NotesOnly s t) : t.cis = s.cis := (congrArg State.cis h :)

theorem notesOnly_logForeign (s : State) (off port client : Nat) (w : Bool) : NotesOnly s (logForeign s off port client w) :=
  (((NotesOnly.refl s).setReg _ _).setReg _ _ |>.setReg _ _).evt _ _

theorem notesOnly_logUe (s : State) (off port client : Nat) : NotesOnly s (logUe s off port client) :=
  (((NotesOnly.refl s).setReg _ _).setReg _ _ |>.setReg _ _).evt _ _

/-! ### Handover (R290 to R292) -/

/-- A command field of five bits. -/
theorem fld_owner (val : Word) : fld val 4 0 = val.toNat % 32 := by
  show val.toNat / 1 % 32 = val.toNat % 32
  rw [Nat.div_one]

/-- A bank whose owner is being changed: TARGET, PENDING, and the transfer that was accepted before. -/
def handingOver (n t : Nat) (s : State) : State := markInFlight ((s.setField (bankOwnReg n) 20 16 t).setBit (bankOwnReg n) 31 true) n

theorem markInFlight_same (s : State) (n : Nat) : markInFlight s n = { s with ecs := (markInFlight s n).ecs } := by
  unfold markInFlight
  dsimp only
  split
  · rfl
  · split
    · split <;> rfl
    · rfl

theorem markInFlight_regs (s : State) (n : Nat) : (markInFlight s n).regs = s.regs := (congrArg State.regs (markInFlight_same s n) :)

theorem markInFlight_clk (s : State) (n : Nat) : (markInFlight s n).clk = s.clk := (congrArg State.clk (markInFlight_same s n) :)

theorem markInFlight_cis (s : State) (n : Nat) : (markInFlight s n).cis = s.cis := (congrArg State.cis (markInFlight_same s n) :)

theorem handingOver_drainTo {n : Nat} (t : Nat) (s : State) : (handingOver n t s).field R.cisDrainTo 15 0 = s.field R.cisDrainTo 15 0 := by
  have hne : R.cisDrainTo ≠ bankOwnReg n := by
    show 0x040010 ≠ 0x040800 + 4 * n
    omega
  have hreg : (handingOver n t s).reg R.cisDrainTo = s.reg R.cisDrainTo := by
    rw [handingOver, State.reg, markInFlight_regs]
    exact (reg_setBit_ne _ _ _ hne).trans (reg_setField_ne _ _ _ _ hne)
  rw [State.field, State.field, hreg]

section OwnWrite

variable {n : Nat} {val : Word} {s : State}

theorem bankOwnWrite_refused (h : bankRegion s.mapCm n ≠ 4 ∨ ownerOk (val.toNat % 32) = false) :
    bankOwnWrite n val s = s.evt R.cisEvtStatus 4 := by
  unfold bankOwnWrite
  rw [fld_owner]
  exact if_pos h

variable (hregion : bankRegion s.mapCm n = 4) (hok : ownerOk (val.toNat % 32) = true)
include hregion hok

theorem bankOwnWrite_pending (hp : bankPending s n = true) :
    bankOwnWrite n val s = s.setField (bankOwnReg n) 20 16 (val.toNat % 32) := by
  unfold bankOwnWrite
  rw [fld_owner]
  dsimp only
  rw [if_neg (by simp [hregion, hok]), if_pos hp]

theorem bankOwnWrite_owner (hp : bankPending s n = false) (heq : val.toNat % 32 = bankOwner s n) : bankOwnWrite n val s = s := by
  unfold bankOwnWrite
  rw [fld_owner]
  dsimp only
  rw [if_neg (by simp [hregion, hok]), hp, if_neg (by decide), if_pos heq]

theorem bankOwnWrite_other (hp : bankPending s n = false) (hne : val.toNat % 32 ≠ bankOwner s n) :
    bankOwnWrite n val s =
      if bankBusy (handingOver n (val.toNat % 32) s) n then
        { handingOver n (val.toNat % 32) s with cis := { (handingOver n (val.toNat % 32) s).cis with
          drains := tabSet (handingOver n (val.toNat % 32) s).cis.drains n (s.clk + 1 + s.field R.cisDrainTo 15 0) } }
      else handOver (handingOver n (val.toNat % 32) s) n := by
  have hclk : (handingOver n (val.toNat % 32) s).clk = s.clk := markInFlight_clk _ n
  rw [← handingOver_drainTo (n := n) (val.toNat % 32) s, ← hclk]
  unfold bankOwnWrite
  rw [fld_owner]
  dsimp only
  rw [if_neg (by simp [hregion, hok]), hp, if_neg (by decide), if_neg hne]
  rfl

end OwnWrite

theorem doDrainTimeout_due {n due : Nat} {s : State} (hd : tabGet s.cis.drains n = some due) (hp : bankPending s n = true)
    (hb : bankBusy s n = true) (hdue : s.dueOk due = true) :
    doDrainTimeout n s = ((handOver { s.atClk due with ecs := s.ecs.map fun e => (e.1, dropInFlight n e.2) } n).inc R.cisCntDrainTo).evt
      R.cisEvtStatus 3 := by
  unfold doDrainTimeout
  rw [hd]
  dsimp only
  rw [hp, hb, hdue]
  rfl

theorem handOver_noWaits {n : Nat} {s : State} (h : s.cis.waits = []) :
    handOver s n = ({ s with cis := { s.cis with drains := tabDel s.cis.drains n } } : State).setNat (bankOwnReg n) (bankTarget s n) := by
  unfold handOver winRelease State.setNat State.setReg
  simp only [h, List.filter_nil, List.foldl_nil]

/-- Settles O40: an equation of `bankOwnWrite` for each answer of R290 and R291, and the handovers of R291 and R292. -/
theorem bankHandover : Obligations.BankHandover := by
  unfold Obligations.BankHandover
  refine ⟨fun n val s hn h => ?_, fun n val s hn hregion hok hp => ?_, fun n val s hn hregion hok hp heq => ?_,
    fun n val s hn hregion hok hp hne => ⟨fun hbusy => ?_, fun hbusy => ?_⟩, fun n s hn hp hb => ?_, fun n due s hd hp hb hdue => ?_,
    fun n s hn h => handOver_noWaits h⟩
  · exact gives_of (v := doCisBankOwnWrite n val s) rfl ((if_pos hn).trans (bankOwnWrite_refused h))
  · exact gives_of (v := doCisBankOwnWrite n val s) rfl ((if_pos hn).trans (bankOwnWrite_pending hregion hok hp))
  · exact gives_of (v := doCisBankOwnWrite n val s) rfl ((if_pos hn).trans (bankOwnWrite_owner hregion hok hp heq))
  · exact gives_of (v := doCisBankOwnWrite n val s) rfl
      ((if_pos hn).trans ((bankOwnWrite_other hregion hok hp hne).trans (if_pos hbusy)))
  · refine gives_of (v := doCisBankOwnWrite n val s) rfl
      ((if_pos hn).trans ((bankOwnWrite_other hregion hok hp hne).trans (if_neg ?_)))
    exact Bool.eq_false_iff.mp hbusy
  · exact gives_of (v := doDrainComplete n s) rfl (if_pos ⟨hn, hp, hb⟩)
  · exact gives_of (v := doDrainTimeout n s) rfl (doDrainTimeout_due hd hp hb hdue)

/-! ### The canonical form -/

theorem memWf_of_cis {s t : State} (h : t.cis.mem = s.cis.mem) (hs : MemWf s) : MemWf t := by
  rw [MemWf, h]
  exact hs

theorem NotesOnly.memWf {s t : State} (h : NotesOnly s t) (hs : MemWf s) : MemWf t := memWf_of_cis (congrArg CisSt.mem h.cis) hs

theorem memWf_emit {s : State} (o : Out) (h : MemWf s) : MemWf (s.emit o) := h

theorem logCe_wf {s : State} (off : Nat) (h : MemWf s) : MemWf (logCe s off) := memWf_of_cis rfl h

/-- A read through a port changes no byte. -/
theorem portRead_wf {s : State} (off n port client : Nat) (h : MemWf s) : MemWf (portRead s off n port client).1 := by
  refine foldl_keeps (P := fun x : State × Bool => MemWf x.1) _ (fun x u _ hx => ?_) h
  dsimp only
  split
  · exact (notesOnly_logUe x.1 u port client).memWf hx
  · split
    · exact logCe_wf u hx
    · exact hx

theorem winFlag_wf {s : State} (b : Nat) (h : MemWf s) : MemWf (winFlag s b) := (notesOnly_setReg s _ _).memWf h

theorem winPiece_wf {s : State} (off n : Nat) (w : Bool) (data : List Byte) (c : Bool) (h : MemWf s) :
    MemWf (winPiece s off n w data c).1 := by
  unfold winPiece
  dsimp only
  split
  · exact winFlag_wf 1 ((notesOnly_logForeign s off 2 0 w).memWf h)
  · split
    · exact cisWrite_wf s off data h
    · split
      · exact winFlag_wf 0 (((notesOnly_setReg s.draw.2 _ _).evt _ _).memWf (memWf_of_cis rfl h))
      · dsimp only
        split
        · exact winFlag_wf 2 (portRead_wf off n 2 0 h)
        · exact portRead_wf off n 2 0 h

/-- One piece of a window access, with the bytes read so far. -/
def winStep (w : WinWait) (x : State × List Byte) (p : Nat × Nat) : State × List Byte :=
  let y := winPiece x.1 p.1 p.2 w.write ((w.data.drop (p.1 - w.off)).take p.2) w.collide
  (y.1, x.2 ++ y.2)

theorem winServe_eq (s : State) (w : WinWait) :
    winServe s w =
      let r := (bankPieces w.off w.data.length).foldl (winStep w) (s, [])
      if w.write then r.1 else r.1.emit (.window r.2) := rfl

theorem winStep_wf {w : WinWait} {x : State × List Byte} (p : Nat × Nat) (h : MemWf x.1) : MemWf (winStep w x p).1 := by
  have hpiece := winPiece_wf p.1 p.2 w.write ((w.data.drop (p.1 - w.off)).take p.2) w.collide h
  rw [winStep]
  exact hpiece

theorem winServe_wf {s : State} (w : WinWait) (h : MemWf s) : MemWf (winServe s w) := by
  have hpieces : MemWf ((bankPieces w.off w.data.length).foldl (winStep w) (s, [])).1 :=
    foldl_keeps (P := fun x : State × List Byte => MemWf x.1) _ (fun _ p _ hx => winStep_wf p hx) h
  rw [winServe_eq]
  dsimp only
  split
  · exact hpieces
  · exact memWf_emit _ hpieces

theorem winRelease_wf {s : State} (h : MemWf s) : MemWf (winRelease s) :=
  foldl_keeps _ (fun _ w _ hx => winServe_wf w hx) (memWf_of_cis rfl h)

theorem handOver_wf {s : State} (n : Nat) (h : MemWf s) : MemWf (handOver s n) := winRelease_wf (memWf_of_cis rfl h)

theorem handingOver_wf {s : State} (n t : Nat) (h : MemWf s) : MemWf (handingOver n t s) :=
  memWf_of_cis (congrArg CisSt.mem (markInFlight_cis _ n)) h

theorem bankOwnWrite_wf {s : State} (n : Nat) (val : Word) (h : MemWf s) : MemWf (bankOwnWrite n val s) := by
  unfold bankOwnWrite
  dsimp only
  split
  · exact (notesOnly_evt s _ _).memWf h
  · split
    · exact (notesOnly_setReg s _ _).memWf h
    · split
      · exact h
      · split
        · exact memWf_of_cis rfl (handingOver_wf n (fld val 4 0) h)
        · exact handOver_wf n (handingOver_wf n (fld val 4 0) h)

theorem doWindowAccess_wf {s : State} (off : Nat) (w : Bool) (data : List Byte) (x : Bool) (h : MemWf s) :
    MemWf (doWindowAccess off w data x s) := by
  unfold doWindowAccess
  dsimp only
  split
  · split
    · exact h
    · exact memWf_of_cis rfl h
  · split
    · exact memWf_of_cis rfl h
    · exact winServe_wf _ h

theorem doBankClearDone_wf {s : State} (h : MemWf s) : MemWf (doBankClearDone s) := by
  unfold doBankClearDone
  dsimp only
  split
  · exact winRelease_wf (memWf_of_cis rfl h)
  · exact h

theorem doDrainComplete_wf {s : State} (n : Nat) (h : MemWf s) : MemWf (doDrainComplete n s) := by
  unfold doDrainComplete
  split
  · exact handOver_wf n h
  · exact h

theorem doDrainTimeout_wf {s : State} (n : Nat) (h : MemWf s) : MemWf (doDrainTimeout n s) := by
  unfold doDrainTimeout
  split
  · exact h
  · split
    · exact ((notesOnly_setReg _ _ _).evt _ _).memWf (handOver_wf n (memWf_of_cis rfl h))
    · exact h

theorem doCisBankOwnWrite_wf {s : State} (n : Nat) (v : Word) (h : MemWf s) : MemWf (doCisBankOwnWrite n v s) := by
  unfold doCisBankOwnWrite
  split
  · exact bankOwnWrite_wf n v h
  · exact h

/-- What a command leaves, the controller that follows leaves in form. -/
theorem leaves_memWf {i : Instr} {s u : State} (hi : exec i s = .next (settle u)) (h : MemWf u) : Leaves i s MemWf :=
  leaves_of hi fun _ ht => memWf_of_cis (congrArg CisSt.mem ht.cis) h

/-- Settles O45, command by command: each writes the cistern through `cisWrite` or not at all. -/
theorem cisternKeepsItsForm : Obligations.CisternKeepsItsForm := by
  unfold Obligations.CisternKeepsItsForm
  rintro s h c (⟨off, w, data, x, rfl⟩ | rfl | ⟨n, rfl⟩ | ⟨n, rfl⟩ | ⟨n, v, rfl⟩ | ⟨n, rfl⟩)
  · exact leaves_memWf (u := doWindowAccess off w data x s) rfl (doWindowAccess_wf off w data x h)
  · exact leaves_memWf (u := doBankClearDone s) rfl (doBankClearDone_wf h)
  · exact leaves_memWf (u := doDrainComplete n s) rfl (doDrainComplete_wf n h)
  · exact leaves_memWf (u := doDrainTimeout n s) rfl (doDrainTimeout_wf n h)
  · exact leaves_memWf (u := doCisBankOwnWrite n v s) rfl (doCisBankOwnWrite_wf n v h)
  · exact leaves_memWf (u := doScrubWriteback n s) rfl (memWf_of_cis rfl h)

end Sys2Proof.Machine
end

section
/-! PROOFS. The bus matrix (R298 to R301): arrival of transactions, and the grant of one that is alone. Obligations O42 and O43. -/

namespace Sys2Proof.Machine

open Sys2Proof.Claims

/-! ### Moving -/

theorem busBridge_native {s : State} (p : Nat) (h : ∀ w ∈ s.cis.bus, w.aliased = false) : busBridge s p = s := by
  have hnone : s.cis.bus.filter (fun w => w.bridged && w.port == p) = [] := by
    refine List.filter_eq_nil_iff.mpr fun w hw => ?_
    rw [BusWait.bridged, h w hw]
    simp
  unfold busBridge
  rw [hnone]
  rfl

theorem busBridges_native {s : State} (h : ∀ w ∈ s.cis.bus, w.aliased = false) : [16, 17, 19].foldl busBridge s = s := by
  rw [List.foldl_cons, busBridge_native _ h, List.foldl_cons, busBridge_native _ h, List.foldl_cons, busBridge_native _ h,
    List.foldl_nil]

theorem setBus_eq_self {s : State} {l : List BusWait} (h : s.cis.bus = l) : s.setBus l = s := by
  subst h
  rfl

theorem busWalk_empty (n : Nat) {s : State} (h : s.cis.bus = []) : busWalk n s = s := by
  cases n with
  | zero => rfl
  | succ n =>
    have hissue : busIssue s = s := by
      unfold busIssue
      rw [h]
      exact setBus_eq_self h
    unfold busWalk
    dsimp only
    rw [hissue, busBridges_native (by simp [h]), h]
    rfl

theorem busMove_empty {s : State} (h : s.cis.bus = []) : busMove s = s := busWalk_empty _ h

/-- A transaction that has just left its master, on a matrix that holds nothing else. -/
def leftMaster (w : BusWait) (clk : Nat) : BusWait := { w with stage := 2, since := clk }

theorem busIssue_alone {s : State} {w : BusWait} (h : s.cis.bus = [w]) (hstage : w.stage = 0) (ha : w.aliased = false) :
    busIssue s = s.setBus [leftMaster w s.clk] := by
  have hnative : w.bridged = false := by rw [BusWait.bridged, ha, Bool.false_and, Bool.false_and]
  unfold busIssue
  rw [h]
  simp only [List.foldl_cons, List.foldl_nil, hstage, Nat.lt_irrefl, decide_false, Bool.and_false, List.filter_cons_of_neg,
    Bool.false_eq_true, not_false_iff, List.filter_nil, List.length_nil, busOutst, List.map_cons, List.map_nil, beq_self_eq_true, if_true,
    hnative, if_false, true_and, Nat.zero_lt_succ, leftMaster]

/-- A transaction alone on the matrix is presented at its port (R300). -/
theorem busMove_presents {s : State} {w : BusWait} (h : s.cis.bus = [w]) (hstage : w.stage = 0) (ha : w.aliased = false)
    (hport : w.port < 21) : busMove s = s.setBus [leftMaster w s.clk] := by
  have hfind : [leftMaster w s.clk].find? (fun w => w.stage == 2 && w.port == noPort && w.ans.isNone) = none := by
    have hne : (w.port == noPort) = false := beq_eq_false_iff_ne.mpr (by unfold noPort; omega)
    rw [List.find?_cons_of_neg (by simp [leftMaster, hne]), List.find?_nil]
  unfold busMove
  rw [h]
  unfold busWalk
  dsimp only
  rw [busIssue_alone h hstage ha, busBridges_native (by simp [State.setBus, leftMaster, ha])]
  show (match [leftMaster w s.clk].find? _ with | none => _ | some w => _) = _
  rw [hfind]

theorem busRespond_alone {n resp : Nat} {busy : Bool} {data : List Byte} {s : State} {w : BusWait} (h : s.cis.bus = [w])
    (hn : w.num = n) (ha : w.aliased = false) :
    busRespond n resp busy data s = (s.setBus []).emit (.bus w.t.master w.t.id resp busy data) := by
  have hfind : [w].find? (·.num == n) = some w := List.find?_cons_of_pos (beq_iff_eq.mpr hn)
  unfold busRespond
  rw [h, hfind]
  dsimp only
  rw [ha, if_neg (by decide), List.filter_cons_of_neg (by simp [hn]), List.filter_nil]
  rfl

/-! ### Notes leave the matrix alone -/

theorem evt_setCis (s : State) (c : CisSt) (a b : Nat) : ({ s with cis := c } : State).evt a b = { s.evt a b with cis := c } := by
  have hedge : ∀ (x : State) (src : Nat), ({ x with cis := c } : State).edge src = { x.edge src with cis := c } := fun x src => by
    unfold State.edge
    show (if x.srcEn src = true then _ else _) = _
    split <;> rfl
  have hsnap : ∀ (x : State) (f : Nat), ({ x with cis := c } : State).snapTrig f = { x.snapTrig f with cis := c } := fun x f => by
    unfold State.snapTrig
    show (if (x.bit R.snpCause f && x.bit R.snpCtrl 0) = true then _ else _) = _
    split <;> rfl
  unfold State.evt
  show (if s.bit a b = true then _ else _) = _
  split
  · rfl
  · cases snapFault a b with
    | none =>
      cases evtSource a b with
      | none => rfl
      | some src =>
        show (if (s.setBit a b true).bit (a + 4) b = true then _ else _) = _
        dsimp only
        split
        · exact hedge (s.setBit a b true) src
        · rfl
    | some f =>
      have h := hsnap (s.setBit a b true) f
      cases evtSource a b with
      | none => exact h
      | some src =>
        show (if (State.snapTrig { s.setBit a b true with cis := c } f).bit (a + 4) b = true then
          (State.snapTrig { s.setBit a b true with cis := c } f).edge src else State.snapTrig { s.setBit a b true with cis := c } f) = _
        rw [h]
        show (if ((s.setBit a b true).snapTrig f).bit (a + 4) b = true then _ else _) = _
        dsimp only
        split
        · exact hedge ((s.setBit a b true).snapTrig f) src
        · rfl

theorem logDecode_setCis (t : BusTxn) (s : State) (c : CisSt) :
    logDecode t { s with cis := c } = { logDecode t s with cis := c } :=
  evt_setCis (((s.inc R.busCntDecode).setNat R.busErrAddr t.addr).setNat R.busErrInfo (t.master % 32 + 256 * b2n t.write)) c
    R.busEvtStatus 0

theorem logForeign_setCis (s : State) (c : CisSt) (off port client : Nat) (w : Bool) :
    logForeign { s with cis := c } off port client w = { logForeign s off port client w with cis := c } :=
  evt_setCis (((s.inc R.cisCntForeign).setNat R.cisForeignAddr (0x10000000 + off)).setReg R.cisForeignInfo
    (accessInfo (s.inc R.cisCntForeign) (bankOf off) port client w)) c R.cisEvtStatus 0

theorem logDecode_cis (t : BusTxn) (s : State) : (logDecode t s).cis = s.cis :=
  ((((NotesOnly.refl s).setReg _ _).setReg _ _ |>.setReg _ _).evt _ _).cis

theorem logForeign_cis (s : State) (off port client : Nat) (w : Bool) : (logForeign s off port client w).cis = s.cis :=
  (notesOnly_logForeign s off port client w).cis

theorem setBus_setBus (s : State) (l m : List BusWait) : (s.setBus l).setBus m = s.setBus m := rfl

theorem logDecode_setBus (t : BusTxn) (s : State) (l : List BusWait) : logDecode t (s.setBus l) = (logDecode t s).setBus l := by
  unfold State.setBus
  rw [logDecode_setCis, logDecode_cis]

theorem logForeign_setBus (s : State) (l : List BusWait) (off port client : Nat) (w : Bool) :
    logForeign (s.setBus l) off port client w = (logForeign s off port client w).setBus l := by
  unfold State.setBus
  rw [logForeign_setCis, logForeign_cis]

/-! ### Arrival -/

/-- The matrix once a transaction has come to it. -/
def arrived (t : BusTxn) (s : State) : State :=
  { s with cis := { s.cis with
    bus := s.cis.bus ++ [{ num := s.cis.busNum, t := t, aliased := isAlias s t.addr, port := portFor s t }]
    busNum := s.cis.busNum + 1 } }

theorem doBusTransaction_eq {t : BusTxn} {s : State} (hd : s.dieRuns = true) (hm : t.master < 25) :
    doBusTransaction t s = busMove (arrived { t with id := t.id % 32, len := if t.write then t.data.length else t.len } s) := by
  unfold doBusTransaction
  rw [if_pos (by rw [hd, decide_eq_true (show t.master < busMasters from hm)]; rfl)]
  rfl

/-- A read that comes to an idle matrix is alone on it. -/
theorem arrived_alone {t : BusTxn} {s : State} (hbus : s.cis.bus = []) (ha : isAlias s t.addr = false) (hw : t.write = false) :
    arrived { t with id := t.id % 32, len := if t.write then t.data.length else t.len } s =
      { s with cis := { s.cis with
        bus := [{ num := s.cis.busNum, t := { t with id := t.id % 32 }, aliased := false, port := portFor s { t with id := t.id % 32 } }]
        busNum := s.cis.busNum + 1 } } := by
  unfold arrived
  rw [hw, hbus]
  dsimp only
  rw [ha]
  rfl

/-- A transaction that no target decodes, alone on the matrix, is answered at once (R298). -/
theorem busMove_undecoded {s : State} {w : BusWait} (h : s.cis.bus = [w]) (hstage : w.stage = 0) (ha : w.aliased = false)
    (hport : w.port = 99) (hans : w.ans = none) :
    busMove s = (logDecode w.t (s.setBus [])).emit (.bus w.t.master w.t.id 2 false (zeroData w.t)) := by
  have hfind : [leftMaster w s.clk].find? (fun w => w.stage == 2 && w.port == noPort && w.ans.isNone) = some (leftMaster w s.clk) := by
    rw [List.find?_cons_of_pos (by simp [leftMaster, hport, hans, noPort])]
  have hdecode : decodeErr w.num w.t (s.setBus [leftMaster w s.clk]) =
      (logDecode w.t (s.setBus [])).emit (.bus w.t.master w.t.id 2 false (zeroData w.t)) := by
    have hbus : (logDecode w.t (s.setBus [leftMaster w s.clk])).cis.bus = [leftMaster w s.clk] := by rw [logDecode_cis]; rfl
    unfold decodeErr
    rw [busRespond_alone (n := w.num) hbus rfl ha]
    rw [logDecode_setBus, logDecode_setBus, setBus_setBus]
    rfl
  unfold busMove
  rw [h]
  unfold busWalk
  dsimp only
  rw [busIssue_alone h hstage ha, busBridges_native (by simp [State.setBus, leftMaster, ha])]
  show (match [leftMaster w s.clk].find? _ with | none => _ | some w => _) = _
  rw [hfind]
  show busWalk _ (decodeErr w.num w.t (s.setBus [leftMaster w s.clk])) = _
  rw [hdecode]
  refine busWalk_empty _ ?_
  show (logDecode w.t (s.setBus [])).cis.bus = []
  rw [logDecode_cis]
  rfl

/-- Settles O42: what arrives is moved on by `busMove`; alone it is presented or answered. -/
theorem busTransactionsArrive : Obligations.BusTransactionsArrive := by
  unfold Obligations.BusTransactionsArrive
  refine ⟨fun t s hd hm hbus ha hw hport => ?_, fun t s hd hm hbus ha hw hport => ?_, fun t s hd hm =>
    gives_of (v := doBusTransaction t s) rfl (doBusTransaction_eq hd hm)⟩
  · refine gives_of (v := doBusTransaction t s) rfl ?_
    rw [doBusTransaction_eq hd hm, arrived_alone hbus ha hw, busMove_presents rfl rfl rfl hport]
    rfl
  · refine gives_of (v := doBusTransaction t s) rfl ?_
    rw [doBusTransaction_eq hd hm, arrived_alone hbus ha hw, busMove_undecoded rfl rfl rfl hport rfl]
    have hidle : ({ s with cis := { s.cis with bus := [], busNum := s.cis.busNum + 1 } } : State) =
        { s with cis := { s.cis with busNum := s.cis.busNum + 1 } } := by rw [← hbus]
    have hdata : zeroData { t with id := t.id % 32 } = List.replicate t.len 0 := by
      rw [zeroData, hw]
      rfl
    show (logDecode t { s with cis := { s.cis with bus := [], busNum := s.cis.busNum + 1 } }).emit
      (.bus t.master (t.id % 32) 2 false (zeroData { t with id := t.id % 32 })) = _
    rw [hidle, hdata]

/-! ### Grants (R299) -/

theorem fld_lt (w : Word) (hi lo : Nat) : fld w hi lo < 2 ^ (hi - lo + 1) := Nat.mod_lt _ (Nat.two_pow_pos _)

theorem busQos_le (s : State) (w : BusWait) : busQos s w ≤ 15 := by
  have hfld : ∀ (r : Word) (lo : Nat), fld r (lo + 3) lo ≤ 15 := fun r lo => by
    have h := fld_lt r (lo + 3) lo
    rw [show lo + 3 - lo + 1 = 4 by omega] at h
    omega
  unfold busQos
  dsimp only
  split
  · exact hfld _ 4
  · split
    · exact hfld _ 0
    · split
      · omega
      · split
        · exact hfld _ 12
        · exact hfld _ 0

/-- A transaction that came to its port less than 128 cycles ago has its own QoS. -/
theorem agedQos_fresh {s : State} {w : BusWait} (h : s.clk < w.since + 128) : agedQos s w = busQos s w := by
  have hq := busQos_le s w
  have hage : (s.clk - w.since) / 128 = 0 := Nat.div_eq_of_lt (by omega)
  rw [agedQos, hage]
  omega

/-- The state in which the transaction `w`, alone at `port`, is served. -/
def atGrant (port : Nat) (w : BusWait) (s : State) : State :=
  { s with cis := { s.cis with bus := [{ w with granted := true }], lastGrant := tabSet s.cis.lastGrant port w.t.master } }

theorem doBusGrant_eq {port : Nat} {w : BusWait} {s : State} (hd : s.dieRuns = true) (hport : port < 21)
    (hwin : busWinner s port = some w) (hq : busQos s w = agedQos s w) :
    doBusGrant port s = busMove (busServe w { s with cis := { s.cis with
      bus := s.cis.bus.map fun v => if v.num == w.num then { v with granted := true } else v
      lastGrant := tabSet s.cis.lastGrant port w.t.master } }) := by
  unfold doBusGrant
  rw [if_pos (by rw [hd, decide_eq_true (show port < busPorts from hport)]; rfl), hwin]
  dsimp only
  rw [hq, if_neg (by simp)]

section Alone

variable {port num clk : Nat} {t : BusTxn} {s : State} (hbus : s.cis.bus = [presented num t port clk])
include hbus

theorem busWinner_alone (hhold : port < 16 → bankHolds s t = false) : busWinner s port = some (presented num t port clk) := by
  have hbehind : busBehind s (presented num t port clk) = false := by
    unfold busBehind
    rw [hbus, List.any_cons, List.any_nil, decide_eq_false (Nat.lt_irrefl _)]
    rfl
  have hheld : (decide (port < 16) && bankHolds s t) = false := by
    rw [Bool.and_eq_false_iff, decide_eq_false_iff_not]
    exact (Nat.lt_or_ge port 16).elim (fun h => .inr (hhold h)) (fun h => .inl (by omega))
  have hwaits : portWaits s port = [presented num t port clk] := by
    unfold portWaits
    rw [hbus, List.filter_cons_of_pos, List.filter_nil]
    rw [hbehind]
    show (port == port && true && true && true && true && !(decide (port < 16) && bankHolds s t)) = true
    rw [hheld, beq_self_eq_true]
    rfl
  unfold busWinner
  rw [hwaits]
  rfl

theorem doBusGrant_alone (hd : s.dieRuns = true) (hport : port < 21) (hfresh : s.clk < clk + 128)
    (hhold : port < 16 → bankHolds s t = false) :
    doBusGrant port s = busMove (busServe (presented num t port clk) (atGrant port (presented num t port clk) s)) := by
  rw [doBusGrant_eq hd hport (busWinner_alone hbus hhold) (agedQos_fresh (w := presented num t port clk) hfresh).symm, hbus]
  simp only [List.map_cons, List.map_nil, beq_self_eq_true, if_true]
  rfl

end Alone

/-! ### A write to one bank -/

theorem bankPieces_one {off n : Nat} (h : inOneBank off n = true) : bankPieces off n = [(off, n)] := by
  simp only [inOneBank, Bool.and_eq_true, decide_eq_true_eq] at h
  obtain ⟨⟨hpos, -⟩, hfits⟩ := h
  have hpieces : ceilDiv (off % 0x80000 + n) 0x80000 = 1 := by
    unfold ceilDiv
    omega
  have hlen : min (off + n) (off / 0x80000 * 0x80000 + 0x80000) - off = n := by omega
  unfold bankPieces
  rw [hpieces]
  show [(off, min (off + n) (off / 0x80000 * 0x80000 + 0x80000) - off)] = [(off, n)]
  rw [hlen]

theorem bankHolds_one {s : State} {t : BusTxn} (h : inOneBank (t.addr % 0x8000000) t.len = true)
    (hclear : s.cis.clearing.contains (bankOf (t.addr % 0x8000000)) = false)
    (hpend : bankPending s (bankOf (t.addr % 0x8000000)) = false) : bankHolds s t = false := by
  unfold bankHolds cisSize
  rw [bankPieces_one h, List.any_cons, List.any_nil]
  dsimp only
  rw [hclear, hpend]
  rfl

/-- A cistern access within one bank is one piece. -/
theorem serveCistern_one {num : Nat} {t : BusTxn} {s : State} (h : inOneBank (t.addr % 0x8000000) t.len = true)
    (hlen : t.len = t.data.length) :
    serveCistern num t s =
      let r := cisPiece t s (t.addr % 0x8000000) t.len t.data
      busRespond num r.2.1 r.2.2.1 (if r.2.1 = 0 then r.2.2.2 else zeroData t) r.1 := by
  have hdata : (t.data.drop (t.addr % 0x8000000 - t.addr % 0x8000000)).take t.len = t.data := by
    rw [Nat.sub_self, List.drop_zero, hlen, List.take_length]
  unfold serveCistern cisSize
  dsimp only
  rw [bankPieces_one h]
  simp only [List.foldl_cons, List.foldl_nil, hdata, if_true, Bool.false_or, List.nil_append]

theorem cisPiece_own {t : BusTxn} {s : State} {off n : Nat} {data : List Byte} (hw : t.write = true) (hc : t.collide = false)
    (hown : masterOwner t.master = some (bankOwner s (bankOf off))) (hpend : bankPending s (bankOf off) = false) :
    cisPiece t s off n data = (cisWrite s off data, 0, false, []) := by
  unfold cisPiece
  dsimp only
  rw [hown, hpend, hc, hw, beq_self_eq_true]
  rfl

theorem cisPiece_foreign {t : BusTxn} {s : State} {off n : Nat} {data : List Byte} (hw : t.write = true)
    (hown : masterOwner t.master ≠ some (bankOwner s (bankOf off))) :
    cisPiece t s off n data = (logForeign s off 1 t.master true, 1, false, List.replicate n 0) := by
  have hnot : (masterOwner t.master == some (bankOwner s (bankOf off))) = false := beq_eq_false_iff_ne.mpr hown
  unfold cisPiece
  dsimp only
  rw [hnot, hw, Bool.false_and, Bool.not_true, Bool.and_false, Bool.false_and]
  rfl

/-- What is answered alone on the matrix leaves it empty. -/
theorem answer_alone {port num clk resp : Nat} {busy : Bool} {data : List Byte} {t : BusTxn} {s : State}
    (hbus : s.cis.bus = [{ presented num t port clk with granted := true }]) :
    busMove (busRespond num resp busy data s) = (s.setBus []).emit (.bus t.master t.id resp busy data) := by
  rw [busRespond_alone (n := num) hbus rfl rfl]
  exact busMove_empty rfl

/-- The state after a write by the bank's owner, alone on the matrix. -/
def wroteAlone (port off : Nat) (t : BusTxn) (s : State) : State :=
  ((cisWrite (granted s port t.master) off t.data).setBus []).emit (.bus t.master t.id 0 false [])

theorem wroteAlone_wrote {port off : Nat} {t : BusTxn} {s : State} (h : MemWf s) : Wrote s (wroteAlone port off t s) off t.data :=
  fun a => memGet_cisWrite (granted s port t.master) off a t.data h

theorem wroteAlone_wf {port off : Nat} {t : BusTxn} {s : State} (h : MemWf s) : MemWf (wroteAlone port off t s) :=
  cisWrite_wf (granted s port t.master) off t.data h

section Cistern

variable {port num clk : Nat} {t : BusTxn} {s : State}

theorem busServe_cistern (hport : port < 16) (u : State) : busServe (presented num t port clk) u = serveCistern num t u := if_pos hport

theorem grant_own (hbus : s.cis.bus = [presented num t port clk]) (hd : s.dieRuns = true) (hport : port < 16)
    (hfresh : s.clk < clk + 128) (hw : t.write = true) (hlen : t.len = t.data.length) (hc : t.collide = false)
    (hone : inOneBank (t.addr % 0x8000000) t.len = true) {o : Nat} (hown : masterOwner t.master = some o)
    (hreach : reaches s o (bankOf (t.addr % 0x8000000)) = true) :
    doBusGrant port s = wroteAlone port (t.addr % 0x8000000) t s := by
  simp only [reaches, Bool.and_eq_true, beq_iff_eq, Bool.not_eq_true'] at hreach
  obtain ⟨⟨howner, hpend⟩, hclear⟩ := hreach
  rw [doBusGrant_alone hbus hd (by omega) hfresh fun _ => bankHolds_one hone hclear hpend, busServe_cistern hport,
    serveCistern_one hone hlen]
  dsimp only
  rw [cisPiece_own (s := atGrant port (presented num t port clk) s) hw hc (hown.trans (congrArg some howner.symm)) hpend]
  exact answer_alone (port := port) (clk := clk) rfl

theorem grant_foreign (hbus : s.cis.bus = [presented num t port clk]) (hd : s.dieRuns = true) (hport : port < 16)
    (hfresh : s.clk < clk + 128) (hw : t.write = true) (hlen : t.len = t.data.length)
    (hone : inOneBank (t.addr % 0x8000000) t.len = true)
    (hown : masterOwner t.master ≠ some (bankOwner s (bankOf (t.addr % 0x8000000))))
    (hpend : bankPending s (bankOf (t.addr % 0x8000000)) = false) (hclear : s.cis.clearing = []) :
    doBusGrant port s = (logForeign (granted s port t.master) (t.addr % 0x8000000) 1 t.master true).emit
      (.bus t.master t.id 1 false []) := by
  have hnone : s.cis.clearing.contains (bankOf (t.addr % 0x8000000)) = false := by rw [hclear]; rfl
  have hdata : zeroData t = [] := if_pos hw
  rw [doBusGrant_alone hbus hd (by omega) hfresh fun _ => bankHolds_one hone hnone hpend, busServe_cistern hport,
    serveCistern_one hone hlen]
  dsimp only
  rw [cisPiece_foreign (s := atGrant port (presented num t port clk) s) hw hown]
  dsimp only
  rw [if_neg (by decide), hdata, answer_alone (port := port) (clk := clk) (t := t) (by rw [logForeign_cis]; rfl), ← logForeign_setBus]
  rfl

end Cistern

theorem grant_host {num clk : Nat} {t : BusTxn} {s : State} (hbus : s.cis.bus = [presented num t 20 clk]) (hd : s.dieRuns = true)
    (hfresh : s.clk < clk + 128) (hw : t.write = true) :
    doBusGrant 20 s = ((granted s 20 t.master).emit (.host t.addr t.data)).emit (.bus t.master t.id 0 false []) := by
  have hserve : ∀ u, busServe (presented num t 20 clk) u = busRespond num 0 false [] (u.emit (.host t.addr t.data)) := fun _ => if_pos hw
  rw [doBusGrant_alone hbus hd (by decide) hfresh (fun h => absurd h (by decide)), hserve]
  exact answer_alone (port := 20) (clk := clk) rfl

/-- Settles O43: `doBusGrant_eq` for the winner in general, and the three services of one that is alone. -/
theorem busGrantsServe : Obligations.BusGrantsServe := by
  unfold Obligations.BusGrantsServe
  refine ⟨fun port w s hd hport hwin hq => ?_, fun port num clk t s hwf hd hport hbus hfresh hw hlen hc _ hone hown => ?_,
    fun port num clk t s hd hport hbus hfresh hw hlen hone hown hpend hclear => ?_, fun num clk t s hd hbus hfresh hw => ?_⟩
  · exact gives_of (v := doBusGrant port s) rfl (doBusGrant_eq hd hport hwin hq)
  · obtain ⟨o, hmaster, hreach⟩ := hown
    refine ⟨wroteAlone port (t.addr % 0x8000000) t s, ?_, wroteAlone_wrote hwf, wroteAlone_wf hwf, rfl, rfl, rfl⟩
    exact gives_of (v := doBusGrant port s) rfl (grant_own hbus hd hport hfresh hw hlen hc hone hmaster hreach)
  · exact gives_of (v := doBusGrant port s) rfl (grant_foreign hbus hd hport hfresh hw hlen hone hown hpend hclear)
  · exact gives_of (v := doBusGrant 20 s) rfl (grant_host hbus hd hfresh hw)

end Sys2Proof.Machine
end

section
/-! PROOFS. Power, service and snapshots (chapters 15, 16 and 04). Obligations O54, O55 and O57 to O60. -/

namespace Sys2Proof.Machine

open Sys2Proof.Claims

/-! ### Fields and lists of registers -/

theorem wd_testBit (n : Nat) {j : Nat} (h : j < 32) : (wd n).getLsbD j = n.testBit j := by
  rw [wd, BitVec.getLsbD_ofNat, decide_eq_true h, Bool.true_and]

/-- A field reads what was written to it. -/
theorem fld_setFld_self (w : Word) {hi lo : Nat} (v : Nat) (hhi : hi < 32) (hle : lo ≤ hi) :
    fld (setFld w hi lo v) hi lo = v % 2 ^ (hi - lo + 1) := by
  refine Nat.eq_of_testBit_eq fun i => ?_
  unfold fld
  rw [Nat.testBit_mod_two_pow, Nat.testBit_mod_two_pow, Nat.testBit_div_two_pow]
  by_cases hi' : i < hi - lo + 1
  · have hin : i + lo < 32 := by omega
    have hmask : (wd ((2 ^ (hi - lo + 1) - 1) * 2 ^ lo)).getLsbD (i + lo) = true := by
      rw [wd_testBit _ hin, Nat.testBit_mul_two_pow, decide_eq_true (Nat.le_add_left lo i), Bool.true_and, Nat.add_sub_cancel,
        Nat.testBit_two_pow_sub_one, decide_eq_true hi']
    have hval : (wd (v * 2 ^ lo)).getLsbD (i + lo) = v.testBit i := by
      rw [wd_testBit _ hin, Nat.testBit_mul_two_pow, decide_eq_true (Nat.le_add_left lo i), Bool.true_and, Nat.add_sub_cancel]
    have hbit : (setFld w hi lo v).getLsbD (i + lo) = v.testBit i := by
      rw [setFld, BitVec.getLsbD_or, BitVec.getLsbD_and, BitVec.getLsbD_and, BitVec.getLsbD_not, hmask, hval]
      simp
    rw [← BitVec.getLsbD, hbit]
  · rw [decide_eq_false hi', Bool.false_and, Bool.false_and]

theorem field_setField_self (s : State) (a : Nat) {hi lo : Nat} (v : Nat) (hhi : hi < 32) (hle : lo ≤ hi) :
    (s.setField a hi lo v).field a hi lo = v % 2 ^ (hi - lo + 1) := by
  rw [State.field, State.setField, reg_setReg_self, fld_setFld_self _ _ hhi hle]

theorem reg_clear_not_mem {l : List Nat} {x : Nat} (s : State) (h : x ∉ l) : (s.clear l).reg x = s.reg x :=
  foldl_keeps (P := fun u : State => u.reg x = s.reg x) l
    (fun u a ha hu => (reg_setReg_ne u 0 (fun hx : x = a => h (hx ▸ ha))).trans hu) rfl

theorem reg_clear_mem {l : List Nat} {x : Nat} (s : State) (h : x ∈ l) : (s.clear l).reg x = 0 := by
  induction l generalizing s with
  | nil => cases h
  | cons a l ih =>
    show ((s.setReg a 0).clear l).reg x = 0
    by_cases hx : x ∈ l
    · exact ih _ hx
    · rw [reg_clear_not_mem _ hx, (List.mem_cons.mp h).resolve_right hx, reg_setReg_self]

theorem clear_same (s : State) (l : List Nat) : s.clear l = { s with regs := (s.clear l).regs } :=
  foldl_keeps (P := fun u : State => u = { s with regs := u.regs }) l (fun u a _ hu => by
    refine Eq.trans (b := ({ u with regs := (u.setReg a 0).regs } : State)) rfl ?_
    rw [hu]) rfl

/-! ### Over-voltage (R478) -/

theorem ovReg_running {on count : Bool} {s : State} (h : s.dieRuns = true) :
    ovReg on count s =
      if count then ((s.setBit R.pwrStatus 6 on).inc R.pwrCntOv).evt R.pwrEvtStatus 3 else s.setBit R.pwrStatus 6 on := if_pos h

theorem doOvClamp_clamps {s : State} (hd : s.dieRuns = true) (hopen : s.pwr.inputOpen = false) (hclamp : s.pwr.clampAt = none)
    (hall : s.pwr.allowance ≠ 0) :
    doOvClamp s = ((({ s with pwr := { s.pwr with clampAt := some s.clk, inputLow := none } } : State).setBit R.pwrStatus 6
      true).inc R.pwrCntOv).evt R.pwrEvtStatus 3 := by
  unfold doOvClamp
  rw [hopen, hclamp, beq_eq_false_iff_ne.mpr hall]
  exact (if_neg (by decide)).trans (ovReg_running (count := true) hd)

theorem clampUsed_eq {s : State} {c : Nat} (h : s.pwr.clampAt = some c) : clampUsed s = s.clk - c := by
  unfold clampUsed
  rw [h]

theorem doOvClampEnd_ends {s : State} {c : Nat} (hd : s.dieRuns = true) (hclamp : s.pwr.clampAt = some c)
    (hleft : s.clk - c < s.pwr.allowance) :
    doOvClampEnd s = ({ s with pwr := { s.pwr with
      allowance := s.pwr.allowance - (s.clk - c)
      clampAt := none
      inputLow := some s.clk } } : State).setBit R.pwrStatus 6 false := by
  unfold doOvClampEnd
  rw [clampUsed_eq hclamp, hclamp, decide_eq_true hleft]
  exact ovReg_running (count := false) hd

theorem doOvTrip_trips {s : State} {c : Nat} (hd : s.dieRuns = true) (hopen : s.pwr.inputOpen = false)
    (hclamp : s.pwr.clampAt = some c) :
    doOvTrip s = ((({ s with pwr := { s.pwr with
      allowance := s.pwr.allowance - (s.clk - c)
      clampAt := none
      inputLow := none
      inputOpen := true } } : State).setBit R.pwrStatus 6 false).inc R.pwrCntOv).evt R.pwrEvtStatus 3 := by
  unfold doOvTrip
  rw [hopen, clampUsed_eq hclamp]
  exact (if_neg (by decide)).trans (ovReg_running (count := true) hd)

theorem doAllowanceRefill_due {s : State} {c : Nat} (hlow : s.pwr.inputLow = some c) (hopen : s.pwr.inputOpen = false)
    (hdue : s.dueOk (c + 12500000000) = true) :
    doAllowanceRefill s = (s.atClk (c + 12500000000)).setPwr { s.pwr with allowance := clampFull, inputLow := none } := by
  have hsec : secClk 10 = 12500000000 := rfl
  unfold doAllowanceRefill
  rw [hlow]
  dsimp only
  rw [hsec, hopen, hdue]
  rfl

/-- Settles O54: an equation for each command of the input's clamp. -/
theorem overVoltage : Obligations.OverVoltage := by
  unfold Obligations.OverVoltage
  refine ⟨fun s hd hopen hclamp hall => ?_, fun c s hd hclamp hleft => ?_, fun c s hd hopen hclamp => ?_, fun s hopen => ?_,
    fun c s hlow hopen hdue => ?_⟩
  · exact gives_of (v := doOvClamp s) rfl (doOvClamp_clamps hd hopen hclamp hall)
  · exact gives_of (v := doOvClampEnd s) rfl (doOvClampEnd_ends hd hclamp hleft)
  · exact gives_of (v := doOvTrip s) rfl (doOvTrip_trips hd hopen hclamp)
  · exact gives_of (v := doInputReclose s) rfl (if_pos hopen)
  · exact gives_of (v := doAllowanceRefill s) rfl (doAllowanceRefill_due hlow hopen hdue)

/-! ### Resets of the die (R486) -/

theorem freshDie_dieReset (c : Nat) (m : BootReset) (s : State) : FreshDie c m s (dieReset c m s) where
  mode := rfl
  cause := rfl
  causeReg := by
    unfold dieReset
    dsimp only
    rw [reg_setBit_ne _ _ _ (by decide), reg_setBit_ne _ _ _ (by decide), reg_setNat_self]
  clk := rfl
  tick := rfl
  committed := rfl
  hist := rfl
  commands := rfl
  cores := rfl
  correction := rfl
  memory := rfl
  streams := rfl
  journal := fun h => by
    show resetJnl (s.rate96 != s.jnl.store.rate96) s.jnl = _
    rw [h, bne_self_eq_false]
    rfl
  flash := rfl
  key := rfl
  identity := rfl
  waiting := rfl

theorem freshDie_setPwr {c : Nat} {m : BootReset} {s t : State} (h : FreshDie c m s t) {p : PwrSt} (hm : p.reset = m)
    (hc : p.cause = c) : FreshDie c m s (t.setPwr p) :=
  { h with mode := hm, cause := hc }

theorem freshDie_setReg {c : Nat} {m : BootReset} {s t : State} (h : FreshDie c m s t) {a : Nat} (v : Word)
    (ha : R.pwrResetCause ≠ a) : FreshDie c m s (t.setReg a v) :=
  { h with causeReg := (reg_setReg_ne t v ha).trans h.causeReg }

theorem freshDie_settled {c : Nat} {m : BootReset} {s u t : State} (h : FreshDie c m s u) (ht : Settled u t) : FreshDie c m s t where
  mode := (congrArg PwrSt.reset ht.pwr).trans h.mode
  cause := (congrArg PwrSt.cause ht.pwr).trans h.cause
  causeReg := (settled_regHigh ht (by decide)).trans h.causeReg
  clk := ht.clk.trans h.clk
  tick := ht.tick.trans h.tick
  committed := ht.cm.trans h.committed
  hist := ht.hist.trans h.hist
  commands := ht.cmd.trans h.commands
  cores := ht.ecs.trans h.cores
  correction := ht.cors.trans h.correction
  memory := ht.cis.trans h.memory
  streams := ht.str.trans h.streams
  journal := fun hr => ht.jnl.trans (h.journal hr)
  flash := (congrArg SvcSt.flash ht.svc).trans h.flash
  key := (congrArg SvcSt.key ht.svc).trans h.key
  identity := ht.modId.trans h.identity
  waiting := ht.pending.trans h.waiting

/-- What the power stage held before a reset does not show in the die. -/
theorem freshDie_of_setPwr {c : Nat} {m : BootReset} {s t : State} {p : PwrSt} (h : FreshDie c m (s.setPwr p) t) : FreshDie c m s t :=
  { h with }

theorem freshDie_bootStart (s : State) : FreshDie s.pwr.cause .running s (bootStart s) :=
  freshDie_setReg (freshDie_setPwr (p := { (dieReset s.pwr.cause .running s).pwr with bootAt := s.clk, thermRestart := false })
    (freshDie_dieReset s.pwr.cause .running s) rfl rfl) _ (by decide)

theorem bootStage_settled {u t : State} (h : Settled u t) : bootStage t = bootStage u := by
  rw [bootStage, bootStage, State.field, State.field, settled_regHigh h (by decide)]

/-- A boot begins in stage 1. -/
theorem bootStage_bootStart (s : State) : bootStage (bootStart s) = 1 := field_setField_self _ _ 1 (by decide) (by decide)

theorem doRestart_boots {s : State} (hd : s.dieRuns = false) (hneed : s.pwr.needHold = true) (hpin : s.pwr.resetPin = false) :
    doRestart s = bootStart (s.setPwr { s.pwr with needHold := false, retained := true }) := by
  unfold doRestart
  rw [hd, hneed]
  exact if_neg (Bool.eq_false_iff.mp hpin)

theorem doRestart_held {s : State} (hd : s.dieRuns = false) (hneed : s.pwr.needHold = true) (hpin : s.pwr.resetPin = true) :
    doRestart s = { s with pwr := { s.pwr with needHold := false, retained := true, reset := .held } } := by
  unfold doRestart
  rw [hd, hneed]
  exact if_pos hpin

theorem doResetNRelease_boots {s : State} (hd : s.dieRuns = false) (hneed : s.pwr.needHold = false) (hpin : s.pwr.resetPin = true) :
    doResetNRelease s = bootStart (s.setPwr { s.pwr with resetPin := false }) := by
  have hruns : (s.setPwr { s.pwr with resetPin := false }).dieRuns = false := hd
  unfold doResetNRelease
  rw [hpin, if_pos rfl]
  dsimp only
  rw [hruns]
  exact if_neg (by rw [State.setPwr, hneed]; decide)

theorem doDeferredReset_due {s : State} {c : Nat} (h : s.cmd.resetDue = some c) (hdue : s.dueOk c = true) :
    doDeferredReset s = bootStart ((s.atClk c).setPwr { s.pwr with cause := 3 }) := by
  unfold doDeferredReset
  rw [h]
  exact if_pos hdue

/-- Settles O55: every reset is `dieReset` (`freshDie_dieReset`), and a boot begins with one (`freshDie_bootStart`). -/
theorem dieResets : Obligations.DieResets := by
  unfold Obligations.DieResets
  refine ⟨fun s hd => ?_, fun s hd => ?_, fun c s hdue hok => ?_, fun s hd hneed hpin => ?_, fun s hd hneed hpin => ?_,
    fun s hd hneed hpin => ?_, fun s hd => ?_⟩
  · refine leaves_of (u := doBrownOutReset s) rfl fun t ht => ?_
    rw [doBrownOutReset, if_pos hd] at ht
    exact ⟨freshDie_settled (freshDie_setPwr (freshDie_dieReset _ .held s) rfl rfl) ht, by rw [ht.pwr]; rfl⟩
  · refine leaves_of (u := doResetN s) rfl fun t ht => ?_
    have hreset : doResetN s = dieReset 2 .held (s.setPwr { s.pwr with resetPin := true }) := if_pos (by
      rw [show (s.setPwr { s.pwr with resetPin := true }).dieRuns = true from hd]
      rfl)
    rw [hreset] at ht
    exact ⟨freshDie_of_setPwr (freshDie_settled (freshDie_dieReset 2 .held (s.setPwr { s.pwr with resetPin := true })) ht),
      by rw [ht.pwr]; rfl⟩
  · refine leaves_of (u := doDeferredReset s) rfl fun t ht => ?_
    rw [doDeferredReset_due hdue hok] at ht
    exact ⟨freshDie_of_setPwr (freshDie_settled (freshDie_bootStart ((s.atClk c).setPwr { s.pwr with cause := 3 })) ht),
      (bootStage_settled ht).trans (bootStage_bootStart _)⟩
  · refine leaves_of (u := doRestart s) rfl fun t ht => ?_
    rw [doRestart_boots hd hneed hpin] at ht
    exact ⟨freshDie_of_setPwr (freshDie_settled (freshDie_bootStart (s.setPwr { s.pwr with needHold := false, retained := true })) ht),
      (bootStage_settled ht).trans (bootStage_bootStart _), by rw [ht.pwr]; rfl, by rw [ht.pwr]; rfl⟩
  · exact gives_of (v := doRestart s) rfl (doRestart_held hd hneed hpin)
  · refine leaves_of (u := doResetNRelease s) rfl fun t ht => ?_
    rw [doResetNRelease_boots hd hneed hpin] at ht
    exact ⟨freshDie_of_setPwr (freshDie_settled (freshDie_bootStart (s.setPwr { s.pwr with resetPin := false })) ht),
      (bootStage_settled ht).trans (bootStage_bootStart _), by rw [ht.pwr]; rfl⟩
  · exact gives_of (v := doRetentionLoss s) rfl (if_neg (by rw [hd]; decide))

/-! ### Temperature (R489, R490) -/

theorem NotesOnly.pwr {s t : State} (h : NotesOnly s t) : t.pwr = s.pwr := (congrArg State.pwr h :)

theorem NotesOnly.cm {s t : State} (h : NotesOnly s t) : t.cm = s.cm := (congrArg State.cm h :)

theorem NotesOnly.ecs {s t : State} (h : NotesOnly s t) : t.ecs = s.ecs := (congrArg State.ecs h :)

/-- The three temperatures of a sample, shown. -/
def tempsShown (tj ts tx : Int) (s : State) : State :=
  ((s.setNat R.pwrTj (tempWord tj)).setNat R.pwrTstage (tempWord ts)).setNat R.pwrTocxo (tempWord tx)

/-- The peak, raised where the sample passes it. -/
def peakKept (tj : Int) (s : State) : State := if tempOf (s.reg R.pwrTjPeak) < tj then s.setNat R.pwrTjPeak (tempWord tj) else s

/-- WARN as the sample leaves it. -/
def warnFollowed (tj : Int) (s : State) : State :=
  if 25600 ≤ tj then (if s.bit R.pwrStatus 7 then s else (s.setBit R.pwrStatus 7 true).evt R.pwrEvtStatus 4)
  else if tj < 24320 then s.setBit R.pwrStatus 7 false else s

/-- Samples in a row from 115 °C, counted. -/
def hotCounted (tj : Int) (s : State) : State := s.setPwr { s.pwr with hot := if 29440 ≤ tj then s.pwr.hot + 1 else 0 }

/-- What a sample shows. -/
def sampled (tj ts tx : Int) (s : State) : State := warnFollowed tj (peakKept tj (tempsShown tj ts tx s))

theorem doThermalSample_eq {tj ts tx : Int} {s : State} (hd : s.dieRuns = true) :
    doThermalSample tj ts tx s =
      let h := hotCounted tj (sampled tj ts tx s)
      if 32000 ≤ tj then (dieReset 5 .held h).setPwr { (dieReset 5 .held h).pwr with needHold := true }
      else if 3 ≤ h.pwr.hot ∧ h.pwr.trip = false then thermalTrip h
      else h := by
  have hmode : s.pwr.reset = .running := eq_of_beq hd
  unfold doThermalSample
  rw [hmode]
  refine (if_neg (by decide)).trans ?_
  exact if_neg (by
    rw [show (((s.setNat R.pwrTj (tempWord tj)).setNat R.pwrTstage (tempWord ts)).setNat R.pwrTocxo (tempWord tx)).dieRuns = true
      from hd]
    decide)

theorem notesOnly_peakKept (tj : Int) (s : State) : NotesOnly s (peakKept tj s) := by
  unfold peakKept
  split
  · exact notesOnly_setReg s _ _
  · exact .refl s

theorem notesOnly_warnFollowed (tj : Int) (s : State) : NotesOnly s (warnFollowed tj s) := by
  unfold warnFollowed
  split
  · split
    · exact .refl s
    · exact (notesOnly_setReg s _ _).evt _ _
  · split
    · exact notesOnly_setReg s _ _
    · exact .refl s

theorem notesOnly_sampled (tj ts tx : Int) (s : State) : NotesOnly s (sampled tj ts tx s) :=
  (NotesOnly.trans (b := tempsShown tj ts tx s) rfl (notesOnly_peakKept tj _)).trans (notesOnly_warnFollowed tj _)

/-- A sample below 115 °C after one below it counts nothing. -/
theorem hotCounted_cool {tj : Int} {s : State} (h : tj < 29440) : hotCounted tj s = s.setPwr { s.pwr with hot := 0 } := by
  unfold hotCounted
  rw [if_neg (by omega)]

theorem setPwr_eq_self {s : State} {p : PwrSt} (h : s.pwr = p) : s.setPwr p = s := by
  subst h
  rfl

theorem doThermalSample_cool {tj ts tx : Int} {s : State} (hd : s.dieRuns = true) (h : tj < 29440) :
    doThermalSample tj ts tx s = (sampled tj ts tx s).setPwr { s.pwr with hot := 0 } := by
  rw [doThermalSample_eq hd]
  dsimp only
  rw [if_neg (by omega), hotCounted_cool h, (notesOnly_sampled tj ts tx s).pwr]
  exact if_neg (fun hhot => absurd hhot.1 (by decide : ¬ 3 ≤ 0))

/-- A temperature from 0 °C to below 128 °C is its own register value. -/
theorem tempWord_of_range {t : Int} (h0 : 0 ≤ t) (h1 : t < 32768) : tempWord t = t.toNat := by
  have hsat : satS 16 t = t := (if_neg (show ¬ t > 32767 by omega)).trans (if_neg (show ¬ t < -32768 by omega))
  rw [tempWord, hsat, bitsOf]
  exact congrArg Int.toNat (Int.emod_eq_of_lt h0 (show t < 65536 by omega))

theorem reg_sampled_tj (tj ts tx : Int) (s : State) : (sampled tj ts tx s).reg R.pwrTj = wd (tempWord tj) := by
  have hshown : (tempsShown tj ts tx s).reg R.pwrTj = wd (tempWord tj) := by
    unfold tempsShown
    rw [reg_setNat_ne _ _ (by decide), reg_setNat_ne _ _ (by decide), reg_setNat_self]
  have hpeak : (peakKept tj (tempsShown tj ts tx s)).reg R.pwrTj = wd (tempWord tj) := by
    unfold peakKept
    split
    · rw [reg_setNat_ne _ _ (by decide), hshown]
    · exact hshown
  unfold sampled warnFollowed
  split
  · split
    · exact hpeak
    · rw [reg_evt_ne _ _ (by decide) (by decide) (by decide), reg_setBit_ne _ _ _ (by decide), hpeak]
  · split
    · rw [reg_setBit_ne _ _ _ (by decide), hpeak]
    · exact hpeak

/-- A sample from 100 °C sets WARN and raises its event. -/
theorem warnFollowed_hot {tj : Int} {s : State} (h : 25600 ≤ tj) (hwarn : s.bit R.pwrStatus 7 = false) :
    warnFollowed tj s = (s.setBit R.pwrStatus 7 true).evt R.pwrEvtStatus 4 := by
  unfold warnFollowed
  rw [if_pos h, hwarn]
  rfl

theorem peakKept_status (tj ts tx : Int) (s : State) :
    (peakKept tj (tempsShown tj ts tx s)).bit R.pwrStatus 7 = s.bit R.pwrStatus 7 := by
  have hreg : (peakKept tj (tempsShown tj ts tx s)).reg R.pwrStatus = s.reg R.pwrStatus := by
    unfold peakKept tempsShown
    split <;> simp only [reg_setNat_ne _ _ (show R.pwrStatus ≠ R.pwrTjPeak by decide),
      reg_setNat_ne _ _ (show R.pwrStatus ≠ R.pwrTj by decide), reg_setNat_ne _ _ (show R.pwrStatus ≠ R.pwrTstage by decide),
      reg_setNat_ne _ _ (show R.pwrStatus ≠ R.pwrTocxo by decide)]
  rw [State.bit, State.bit, hreg]

theorem sampled_warns {tj ts tx : Int} {s : State} (h : 25600 ≤ tj) (hwarn : s.bit R.pwrStatus 7 = false) :
    (sampled tj ts tx s).bit R.pwrStatus 7 = true ∧ (sampled tj ts tx s).bit R.pwrEvtStatus 4 = true := by
  have hw := (peakKept_status tj ts tx s).trans hwarn
  rw [sampled, warnFollowed_hot h hw]
  refine ⟨?_, bit_evt_self _ _ (by decide) (by decide)⟩
  rw [State.bit, reg_evt_ne _ _ (by decide) (by decide) (by decide)]
  exact bit_setBit_self _ _ _ (by decide)

/-- Below 100 °C a sample shows the temperatures and the peak, and clears WARN below 95 °C. -/
theorem sampled_cool {tj ts tx : Int} {s : State} (h : tj < 25600) :
    sampled tj ts tx s =
      let p := if tempOf (s.reg R.pwrTjPeak) < tj then (tempsShown tj ts tx s).setNat R.pwrTjPeak (tempWord tj) else tempsShown tj ts tx s
      if tj < 24320 then p.setBit R.pwrStatus 7 false else p := by
  have hpeak : (tempsShown tj ts tx s).reg R.pwrTjPeak = s.reg R.pwrTjPeak := by
    unfold tempsShown
    rw [reg_setNat_ne _ _ (by decide), reg_setNat_ne _ _ (by decide), reg_setNat_ne _ _ (by decide)]
  unfold sampled warnFollowed peakKept
  rw [if_neg (by omega), hpeak]

theorem doThermalPowerDown_due {s : State} {k : Nat} (h : s.pwr.tripAt = some k) (hdue : k + 9 ≤ nextOut s) :
    doThermalPowerDown s = ((dieReset 4 .standby s).setPwr { (dieReset 4 .standby s).pwr with
      thermRestart := s.bit R.pwrCtrl 1 }).setReg R.pwrTj (s.reg R.pwrTj) := by
  unfold doThermalPowerDown
  rw [h]
  exact if_pos (by rw [decide_eq_true hdue, Bool.or_true])

theorem doThermalRestart_boots {s : State} (hmode : s.pwr.reset = .standby) (hr : s.pwr.thermRestart = true)
    (hn : s.pwr.needHold = false) (ht : tempOf (s.reg R.pwrTj) < 21760) : doThermalRestart s = bootStart s := by
  unfold doThermalRestart
  rw [hmode, hr, hn, decide_eq_true ht]
  rfl

/-- The second sample in a row from 115 °C has been counted: the third trips. -/
theorem doThermalSample_trips {tj ts tx : Int} {s : State} (hd : s.dieRuns = true) (h : 29440 ≤ tj) (hlt : tj < 32000)
    (hhot : s.pwr.hot = 2) (htrip : s.pwr.trip = false) :
    doThermalSample tj ts tx s = thermalTrip (hotCounted tj (sampled tj ts tx s)) := by
  have hpwr := (notesOnly_sampled tj ts tx s).pwr
  rw [doThermalSample_eq hd]
  dsimp only
  rw [if_neg (by omega)]
  refine if_pos ⟨?_, ?_⟩
  · show 3 ≤ if 29440 ≤ tj then (sampled tj ts tx s).pwr.hot + 1 else 0
    rw [if_pos h, hpwr, hhot]
  · show (sampled tj ts tx s).pwr.trip = false
    rw [hpwr, htrip]

/-- Settles O57: `doThermalSample_eq` names the parts of a sample; the resets are `dieReset` and `bootStart`. -/
theorem temperature : Obligations.Temperature := by
  unfold Obligations.Temperature
  refine ⟨fun tj ts tx s hd _ hlt hhot => ?_, fun tj ts tx s hd hge hlt hwarn => ?_, fun tj ts tx s hd hge hlt hhot htrip => ?_,
    fun tj ts tx s hd hge => ?_, fun k s hk hdue => ?_, fun s hmode hr hn ht => ?_⟩
  · refine gives_of (v := doThermalSample tj ts tx s) rfl ?_
    rw [doThermalSample_cool hd (by omega), setPwr_eq_self, sampled_cool hlt]
    · rfl
    · rw [(notesOnly_sampled tj ts tx s).pwr, ← hhot]
  · refine leaves_of (u := doThermalSample tj ts tx s) rfl fun t ht => ?_
    rw [doThermalSample_cool hd hlt] at ht
    have hreg : ∀ a, 0x30000 ≤ a → t.reg a = (sampled tj ts tx s).reg a := fun a ha => settled_regHigh ht ha
    obtain ⟨hbit, hevt⟩ := sampled_warns (tj := tj) (ts := ts) (tx := tx) hge hwarn
    refine ⟨?_, ?_, ?_, ht.pwr, ht.cm.trans (notesOnly_sampled tj ts tx s).cm, ht.ecs.trans (notesOnly_sampled tj ts tx s).ecs⟩
    · rw [State.bit, hreg _ (by decide)]
      exact hbit
    · rw [State.bit, hreg _ (by decide)]
      exact hevt
    · rw [hreg _ (by decide), reg_sampled_tj, tempWord_of_range (by omega) (by omega)]
  · refine leaves_of (u := doThermalSample tj ts tx s) rfl fun t ht => ?_
    rw [doThermalSample_trips hd hge hlt hhot htrip] at ht
    exact ⟨by rw [ht.pwr]; rfl, by rw [ht.pwr]; rfl⟩
  · refine leaves_of (u := doThermalSample tj ts tx s) rfl fun t ht => ?_
    rw [doThermalSample_eq hd] at ht
    dsimp only at ht
    rw [if_pos hge] at ht
    have hfresh := freshDie_settled (freshDie_setPwr (freshDie_dieReset 5 .held (hotCounted tj (sampled tj ts tx s))) rfl rfl) ht
    exact ⟨hfresh.mode, hfresh.cause, hfresh.causeReg, by rw [ht.pwr]; rfl, hfresh.committed⟩
  · refine leaves_of (u := doThermalPowerDown s) rfl fun t ht => ?_
    rw [doThermalPowerDown_due hk hdue] at ht
    refine ⟨freshDie_settled (freshDie_setReg (freshDie_setPwr (freshDie_dieReset 4 .standby s) rfl rfl) _ (by decide)) ht, ?_,
      by rw [ht.pwr]; rfl⟩
    rw [settled_regHigh ht (by decide), reg_setReg_self]
  · refine leaves_of (u := doThermalRestart s) rfl fun t hset => ?_
    rw [doThermalRestart_boots hmode hr hn ht] at hset
    exact ⟨freshDie_settled (freshDie_bootStart s) hset, (bootStage_settled hset).trans (bootStage_bootStart s)⟩

/-! ### Drivers and microphone lines (R491 to R493) -/

theorem doDriverFault_off {pin : Nat} {isOpen : Bool} {s : State} (hd : s.dieRuns = true) (hdriven : driven s pin = true)
    (hon : s.bit (drvBit R.pwrDrvOff pin) (pin % 32) = false)
    (hen : isOpen = true → s.bit (drvBit R.pwrDrvOpenEn pin) (pin % 32) = true) :
    doDriverFault pin isOpen s = driverOff pin (if isOpen then R.pwrDrvOpen else R.pwrDrvShort) s := by
  have hask : (!isOpen || s.bit (drvBit R.pwrDrvOpenEn pin) (pin % 32)) = true := by
    cases isOpen with
    | false => rfl
    | true => exact hen rfl
  unfold doDriverFault
  dsimp only
  rw [hd, hdriven, hon, hask]
  rfl

theorem doDriverRetry_due {pin due : Nat} (good : Bool) {s : State} (h : tabGet s.pwr.drv pin = some due) (hdue : s.dueOk due = true) :
    doDriverRetry pin good s =
      if good then ((s.atClk due).setPwr { s.pwr with drv := tabDel s.pwr.drv pin }).setBit (drvBit R.pwrDrvOff pin) (pin % 32) false
      else ((s.atClk due).setPwr { s.pwr with drv := tabSet s.pwr.drv pin (due + msClk 100) }).inc R.pwrCntDrvRetry := by
  unfold doDriverRetry
  rw [h]
  exact if_pos hdue

theorem micFlag_new {reg mic : Nat} {s : State} (h : s.bit reg mic = false) :
    micFlag reg mic s = micReset mic none (((s.setBit reg mic true).inc R.pwrCntMic).evt R.pwrEvtStatus 7) :=
  if_neg (by rw [h]; decide)

theorem doMicOpenProbe_closed {mic : Nat} {s : State} (h : micWatched s mic = true) :
    doMicOpenProbe mic false s = (s.setPwr { s.pwr with probes := tabDel s.pwr.probes mic }).setBit R.pwrMicOpen mic false := if_pos h

theorem doMicOpenProbe_open {mic : Nat} {s : State} (h : micWatched s mic = true) :
    doMicOpenProbe mic true s =
      let v := s.setPwr { s.pwr with probes := tabSet s.pwr.probes mic (tabGetD s.pwr.probes mic 0 + 1) }
      if 32 ≤ tabGetD s.pwr.probes mic 0 + 1 then micFlag R.pwrMicOpen mic v else v := if_pos h

/-- Settles O58: an equation for each of the drivers' and the microphone lines' commands. -/
theorem driversAndMicrophones : Obligations.DriversAndMicrophones := by
  unfold Obligations.DriversAndMicrophones
  refine ⟨fun pin s hd hdriven hon => ?_, fun pin s hd hdriven hon hen => ?_, fun pin due s h hdue => ⟨?_, ?_⟩,
    fun mic s h hbit => ?_,
    fun mic s h => ?_, fun mic s h => ?_, fun mic s h hlt => ?_, fun mic s h hge hbit => ?_⟩
  · exact gives_of (v := doDriverFault pin false s) rfl (doDriverFault_off hd hdriven hon (fun h => nomatch h))
  · exact gives_of (v := doDriverFault pin true s) rfl (doDriverFault_off hd hdriven hon (fun _ => hen))
  · exact gives_of (v := doDriverRetry pin true s) rfl (doDriverRetry_due true h hdue)
  · exact gives_of (v := doDriverRetry pin false s) rfl (doDriverRetry_due false h hdue)
  · exact gives_of (v := doMicStuck mic s) rfl ((if_pos h).trans (micFlag_new hbit))
  · exact gives_of (v := doMicStuckClear mic s) rfl (if_pos h)
  · exact gives_of (v := doMicOpenProbe mic false s) rfl (doMicOpenProbe_closed h)
  · exact gives_of (v := doMicOpenProbe mic true s) rfl ((doMicOpenProbe_open h).trans (if_neg (by omega)))
  · exact gives_of (v := doMicOpenProbe mic true s) rfl
      ((doMicOpenProbe_open h).trans ((if_pos (by omega)).trans (micFlag_new (s := s.setPwr _) hbit)))

/-! ### Service timers (R501 to R503) -/

theorem closeSession_open {s : State} (h : s.svc.state = 2) :
    closeSession s = ({ s with svc := { s.svc with state := 1 } } : State).evt R.svcEvtStatus 1 := if_pos h

theorem doChallengeExpiry_due {b : List Byte} {due : Nat} {s : State} (h : s.svc.chal = some (b, due)) (hdue : s.dueOk due = true) :
    doChallengeExpiry s = (s.atClk due).setSvc { s.svc with chal := none } := by
  unfold doChallengeExpiry
  rw [h]
  exact if_pos hdue

theorem doBackoffEnd_due {due : Nat} {s : State} (h : s.svc.backoff = some due) (hdue : s.dueOk due = true) :
    doBackoffEnd s = (s.atClk due).setSvc { s.svc with backoff := none } := by
  unfold doBackoffEnd
  rw [h]
  exact if_pos hdue

/-- Settles O59: the session closes by `closeSession`, challenge and back-off end at their times. -/
theorem serviceTimers : Obligations.ServiceTimers := by
  unfold Obligations.ServiceTimers
  refine ⟨fun val s hval h => ?_, fun b due s h hdue => ?_, fun s h hdue => ?_, fun due s h hdue => ?_⟩
  · exact gives_of (v := doSvcClose val s) rfl ((if_pos hval).trans (closeSession_open h))
  · exact gives_of (v := doChallengeExpiry s) rfl (doChallengeExpiry_due h hdue)
  · exact gives_of (v := doSessionExpiry s) rfl
      ((if_pos ⟨h, hdue⟩).trans (closeSession_open (s := s.atClk (sessionDue s)) h))
  · exact gives_of (v := doBackoffEnd s) rfl (doBackoffEnd_due h hdue)

/-! ### Snapshots and the checkpoint (R119 to R130) -/

/-- A trigger that no gang latches together goes no further. -/
theorem passTrigger_alone {t cause : Nat} {s : State} (h : s.bit R.snpCtrl 1 = false) : passTrigger t cause s = s := by
  unfold passTrigger
  rw [h]
  rfl

theorem snapCommand_alone {s : State} (hen : s.bit R.snpCtrl 0 = true) (h : s.bit R.snpCtrl 1 = false) :
    snapCommand s = { s with snp := { s.snp with cmd := true } } :=
  (if_pos hen).trans (passTrigger_alone (s := { s with snp := { s.snp with cmd := true } }) h)

theorem doSnpTimeArm_alone {val : Word} {s : State} (hd : s.dieRuns = true) (hen : s.bit R.snpCtrl 0 = true)
    (h : s.bit R.snpCtrl 1 = false) :
    doSnpTimeArm val s = ({ s with snp := { s.snp with
      time := some (s.regNat R.snpTimeLo + 2 ^ 32 * val.toNat)
      timeLate := decide (ceilDiv (s.regNat R.snpTimeLo + 2 ^ 32 * val.toNat) s.blockLen ≤ s.tick) } } : State).setReg
        R.snpTimeHi val := by
  have hreg : ∀ a, a ≠ R.snpTimeHi → (s.setReg R.snpTimeHi val).reg a = s.reg a := fun a ha => reg_setReg_ne s val ha
  have hbit : ∀ i, (s.setReg R.snpTimeHi val).bit R.snpCtrl i = s.bit R.snpCtrl i := fun i => by
    rw [State.bit, hreg _ (by decide), State.bit]
  have hlo : (s.setReg R.snpTimeHi val).regNat R.snpTimeLo = s.regNat R.snpTimeLo := by
    rw [State.regNat, hreg _ (by decide), State.regNat]
  have hblock : (s.setReg R.snpTimeHi val).blockLen = s.blockLen := by
    unfold State.blockLen State.rate96 State.bit
    rw [hreg R.glbRate (by decide)]
  unfold doSnpTimeArm
  rw [hd]
  refine (if_neg (by decide)).trans ?_
  dsimp only
  rw [hbit, if_pos hen, hlo, hblock]
  exact passTrigger_alone ((hbit 1).trans h)

theorem freeSet_group (b : Bool) (s : State) {i : Nat} (hi : i < 6) : (freeSet b s).reg (snpGroup b + 4 * i) = 0 :=
  reg_clear_mem s (List.mem_map.mpr ⟨i, List.mem_range.mpr hi, rfl⟩)

theorem freeSet_snp (b : Bool) (s : State) :
    (freeSet b s).snp = if b then { s.snp with bHeld := false } else { s.snp with aHeld := false } := by
  have hsnp : ∀ l, (s.clear l).snp = s.snp := fun l => (congrArg State.snp (clear_same s l) :)
  unfold freeSet
  dsimp only
  rw [hsnp]

theorem freeSet_same (b : Bool) (s : State) : freeSet b s = { s with regs := (freeSet b s).regs, snp := (freeSet b s).snp } := by
  unfold freeSet
  dsimp only
  rw [clear_same s]

theorem doSnpRelease_a {val : Word} {s : State} (hd : s.dieRuns = true) (h0 : val.toNat.testBit 0 = true)
    (h1 : val.toNat.testBit 1 = false) : doSnpRelease val s = freeSet false s := by
  unfold doSnpRelease bit
  rw [hd, h0, h1]
  rfl

theorem doSnpRelease_b {val : Word} {s : State} (hd : s.dieRuns = true) (h0 : val.toNat.testBit 0 = false)
    (h1 : val.toNat.testBit 1 = true) : doSnpRelease val s = freeSet true s := by
  unfold doSnpRelease bit
  rw [hd, h0, h1]
  rfl

theorem doCheckpointComplete_done {c : Checkpoint} {s : State} (h : s.jnl.bg = some c) :
    doCheckpointComplete s = { s with jnl := { s.jnl with
      chk := c
      bg := none
      slot := 1 - s.jnl.slot
      hdrNum := s.jnl.hdrNum + 1 } } := by
  unfold doCheckpointComplete
  rw [h]

/-- Settles O60: triggers without a gang, `freeSet` for the release, and the finished checkpoint. -/
theorem snapshotsAndCheckpoint : Obligations.SnapshotsAndCheckpoint := by
  unfold Obligations.SnapshotsAndCheckpoint
  refine ⟨fun val s hd hval hen h => ?_, fun val s hd hen h => ?_, fun val s hd h0 h1 => ?_, fun val s hd h0 h1 => ?_,
    fun c s h => ?_⟩
  · refine gives_of (v := doSnpTrig val s) rfl ((if_pos ?_).trans (snapCommand_alone hen h))
    rw [hd]
    exact hval
  · exact gives_of (v := doSnpTimeArm val s) rfl (doSnpTimeArm_alone hd hen h)
  · exact ⟨freeSet false s, gives_of (v := doSnpRelease val s) rfl (doSnpRelease_a hd h0 h1), freeSet_snp false s,
      fun i hi => freeSet_group false s hi, freeSet_same false s⟩
  · exact ⟨freeSet true s, gives_of (v := doSnpRelease val s) rfl (doSnpRelease_b hd h0 h1), freeSet_snp true s,
      fun i hi => freeSet_group true s hi, freeSet_same true s⟩
  · exact gives_of (v := doCheckpointComplete s) rfl (doCheckpointComplete_done h)

end Sys2Proof.Machine
end

section
/-! PROOFS. Registers (chapters 00, 17 and 18): pending writes, counter clears and the SMBus target. Obligations O32, O33 and O35. -/

namespace Sys2Proof.Machine

open Sys2Proof.Claims

/-! ### Pending register writes (R102, R521) -/

theorem doRweWrite_eq {a : Nat} {val : Word} {s : State} (hd : s.dieRuns = true) (ha : isRwe a = true) :
    doRweWrite a val s = rweJoin a val s := if_pos (by rw [hd, ha]; rfl)

section Join

variable {a : Nat} {val : Word} {s : State}

theorem rweJoin_joins (hf : isFollower s = false) (hlen : s.cmd.rwe.length < 4096) :
    rweJoin a val s = { s with cmd := { s.cmd with rwe := s.cmd.rwe ++ [(a, val, s.clk)] } } := by
  rw [rweJoin, hf, if_neg (by decide), if_neg (by unfold rweMax; omega)]

theorem rweJoin_full (hf : isFollower s = false) (hlen : 4096 ≤ s.cmd.rwe.length) : rweJoin a val s = hostErr a 2 s := by
  rw [rweJoin, hf, if_neg (by decide), if_pos (show rweMax ≤ _ from hlen)]

theorem rweJoin_follower (hf : isFollower s = true) (ha : a / 2 ^ 16 ≠ 0xB) : rweJoin a val s = hostErr a 3 s := by
  have hnet : (a / 0x10000 == 0xB) = false := beq_eq_false_iff_ne.mpr ha
  rw [rweJoin, hf, if_pos rfl, hnet, Bool.and_false, if_neg (by decide)]

end Join

/-- Settles O32: the three answers of `rweJoin`, and `rweClear`. -/
theorem pendingRegisterWrites : Obligations.PendingRegisterWrites := by
  unfold Obligations.PendingRegisterWrites
  refine ⟨fun a val s hd ha hf hlen => ?_, fun a val s hd ha hf hlen => ?_, fun a val s hd ha hf hnet => ?_, fun val s hd hval => ?_⟩
  · exact gives_of (v := doRweWrite a val s) rfl ((doRweWrite_eq hd ha).trans (rweJoin_joins hf hlen))
  · exact gives_of (v := doRweWrite a val s) rfl ((doRweWrite_eq hd ha).trans (rweJoin_full hf hlen))
  · exact gives_of (v := doRweWrite a val s) rfl ((doRweWrite_eq hd ha).trans (rweJoin_follower hf hnet))
  · exact gives_of (v := doGlbRweClr val s) rfl ((if_pos hd).trans (if_pos hval))

/-! ### Counter clears -/

theorem doCounterClear_eq {a : Nat} {val : Word} {l : List Nat} {s : State} (hd : s.dieRuns = true) (hl : cntClears a = some l) :
    doCounterClear a val s = cntClear l val s := by
  rw [doCounterClear, if_pos hd, hl]

/-- Settles O33: a clear is `State.clear` of the register's list. -/
theorem counterClears : Obligations.CounterClears := by
  unfold Obligations.CounterClears
  refine ⟨fun a val l s hd hl hval => ?_, fun a val l s hd hl hval => ?_, if_pos rfl⟩
  · refine ⟨s.clear l, gives_of (v := doCounterClear a val s) rfl ((doCounterClear_eq hd hl).trans (if_pos hval)),
      fun x hx => reg_clear_mem s hx, fun x hx => reg_clear_not_mem s hx, clear_same s l⟩
  · exact gives_of (v := doCounterClear a val s) rfl ((doCounterClear_eq hd hl).trans (if_neg (Bool.eq_false_iff.mp hval)))

/-! ### The SMBus target (R544) -/

theorem smbus_answers {code : Nat} {v : Word} {s : State} (hr : s.pwr.retained = true) (hv : smbusValue s code = some v) :
    doSmbusBlockRead code s = s.emit (.smbus code v) := by
  rw [doSmbusBlockRead, if_pos hr, hv]

theorem gives_smbus {code : Nat} {v : Word} {s : State} (hr : s.pwr.retained = true) (hv : smbusValue s code = some v) :
    Gives (.smbusBlockRead code) s (s.emit (.smbus code v)) := gives_of (v := doSmbusBlockRead code s) rfl (smbus_answers hr hv)

theorem smbusValue_none {code : Nat} (s : State) (h : 0x0C < code) : smbusValue s code = none := by
  obtain ⟨k, rfl⟩ := Nat.exists_eq_add_of_lt h
  rw [show 0x0C + k + 1 = k + 13 by omega]
  rfl

/-- Value of the die behind a command code. -/
def smbusReg (code : Nat) : Nat :=
  if code = 0 then R.glbId else if code = 1 then R.pwrStatus else if code = 10 then R.svcDevidLo
  else if code = 11 then R.svcDevidHi else R.glbFwVer

theorem smbusValue_die {code : Nat} (s : State) (h : code = 0 ∨ code = 1 ∨ code = 10 ∨ code = 11 ∨ code = 12) :
    smbusValue s code = some (smbusDie s (regValue s (smbusReg code))) := by
  rcases h with rfl | rfl | rfl | rfl | rfl <;> rfl

theorem smbusDie_down {s : State} (v : Word) (h : s.dieRuns = false ∨ bootStage s = 1 ∨ bootStage s = 2) :
    smbusDie s v = 0xFFFFFFFF := by
  refine if_neg ?_
  rcases h with h | h | h <;> simp [h]

theorem smbusDie_up {s : State} (v : Word) (hd : s.dieRuns = true) (h1 : bootStage s ≠ 1) (h2 : bootStage s ≠ 2) :
    smbusDie s v = v := if_pos (by simp [hd, h1, h2])

/-- Codes 3 to 6 answer a measured value. -/
theorem smbusValue_measured {code : Nat} (s : State) (h3 : 3 ≤ code) (h6 : code ≤ 6) : ∃ v, smbusValue s code = some v := by
  obtain rfl | rfl | rfl | rfl : code = 3 ∨ code = 4 ∨ code = 5 ∨ code = 6 := by omega
  all_goals exact ⟨_, rfl⟩

theorem contains_settled_out {u t : State} {o : Out} (h : Settled u t) (ho : o ∈ u.outbox) : t.outbox.contains o = true := by
  obtain ⟨l, hl, -⟩ := h.out
  rw [hl, List.contains_iff_mem]
  exact List.mem_append_right l ho

/-- Settles O35: `smbusValue` code by code. -/
theorem smbusAnswers : Obligations.SmbusAnswers := by
  unfold Obligations.SmbusAnswers
  refine ⟨fun code s hr h => ?_, fun code s hr h => ⟨fun hdown => ?_, fun hd h1 h2 => ?_⟩, fun s hr => ⟨gives_smbus hr rfl,
    gives_smbus hr rfl, gives_smbus hr rfl, gives_smbus hr rfl, fun i h3 h6 => ?_⟩⟩
  · refine gives_of (v := doSmbusBlockRead code s) rfl ?_
    rw [doSmbusBlockRead, if_pos hr, smbusValue_none s h]
  · exact gives_smbus hr ((smbusValue_die s h).trans (congrArg some (smbusDie_down _ hdown)))
  · exact gives_smbus hr ((smbusValue_die s h).trans (congrArg some (smbusDie_up _ hd h1 h2)))
  · obtain ⟨v, hv⟩ := smbusValue_measured s h3 h6
    refine leaves_of (u := doSmbusBlockRead i s) rfl fun t ht => ⟨v, ?_, ?_⟩
    · rw [smbus_answers hr hv] at ht
      exact contains_settled_out ht (List.mem_cons_self ..)
    · rw [ht.pwr, smbus_answers hr hv]
      rfl

end Sys2Proof.Machine
end

section
/-! PROOFS. Packets (R246 to R263): what happens before an opcode acts, and the staging of epoch commands. Obligations O10 to O13. -/

namespace Sys2Proof.Machine

open Sys2Proof.Claims

/-! ### The commands that carry a packet -/

/-- `i` is the command of a packet with opcode `op`, executed by `f`. -/
def RunsPacket (i : Hdr → List Byte → Instr) (op : Nat) (f : OpFn) : Prop :=
  ∀ h p s, exec (i h p) s = .next (settle (doOp op f h p s))

theorem packetRows_run : ∀ row ∈ packetRows, ∃ f, RunsPacket row.2 row.1 f := by
  unfold packetRows
  repeat refine List.forall_mem_cons.mpr ⟨⟨_, fun _ _ _ => rfl⟩, ?_⟩
  exact List.forall_mem_nil _

theorem epochRows_run : ∀ row ∈ epochRows, RunsPacket row.2.1 row.1 (stageOp row.1 row.2.2) := by
  unfold epochRows
  repeat refine List.forall_mem_cons.mpr ⟨fun _ _ _ => rfl, ?_⟩
  exact List.forall_mem_nil _

/-! ### Packets that stay on their ring -/

theorem doOp_fenced {op : Nat} {f : OpFn} {h : Hdr} {p : List Byte} {s : State} (hd : s.dieRuns = true) (hf : pktFenced h s = true) :
    doOp op f h p s = s.setSq (h.sq % 32) { sqSt s (h.sq % 32) with fenced := true } :=
  (if_pos hd).trans (if_pos hf)

theorem doOp_blocked {op : Nat} {f : OpFn} {h : Hdr} {p : List Byte} {s : State} (hd : s.dieRuns = true) (hf : pktFenced h s = false)
    (hc : pktCredit op h p s = false) :
    doOp op f h p s = s.setSq (h.sq % 32) { sqSt s (h.sq % 32) with blocked := true } := by
  simp only [pktCredit, Bool.or_eq_false_iff, Bool.not_eq_false', decide_eq_false_iff_not] at hc
  obtain ⟨hen, hfree⟩ := hc
  have hwant : ((false || ringEn s true (pktCq h s)) && (!ringEn s true (pktCq h s) ||
      decide (cqFree s (pktCq h s) < pktNeed op h p))) = true := by
    rw [hen, decide_eq_true (Nat.lt_of_not_le hfree)]
    rfl
  refine (if_pos hd).trans ((if_neg ?_).trans (if_pos hwant))
  exact Bool.eq_false_iff.mp hf

/-! ### Packets that are refused or go on to a member -/

theorem atFetch_fetchNum (op : Nat) (h : Hdr) (p : List Byte) (s : State) : (atFetch op h p s).cmd.fetchNum = s.cmd.fetchNum + 1 := by
  unfold atFetch
  dsimp only
  split <;> rfl

theorem atFetch_clk (op : Nat) (h : Hdr) (p : List Byte) (s : State) : (atFetch op h p s).clk = s.clk := by
  unfold atFetch
  dsimp only
  split <;> rfl

theorem pathFault_atFetch (op : Nat) (h g : Hdr) (p : List Byte) (s : State) : pathFault (atFetch op h p s) g = pathFault s g :=
  pathFault_congr (atFetch_cm op h p s) (atFetch_nyl op h p s) g

section Taken

variable {op : Nat} {f : OpFn} {h : Hdr} {p : List Byte} {s : State} (ht : pktTaken op h p s = true)
include ht

theorem doOp_badParam (hbad : 4080 < p.length ∨ pathFault s (normHdr h) = true) :
    doOp op f h p s = answered op h p s { status := stBadParam } (atFetch op h p s) := by
  rw [doOp_taken ht]
  dsimp only
  by_cases hlen : 4080 < p.length
  · rw [if_pos hlen]
    rfl
  · have hpath : pathFault (atFetch op h p s) (normHdr h) = true := (pathFault_atFetch ..).trans (hbad.resolve_left hlen)
    rw [if_neg hlen, execPacket, if_pos hpath]
    rfl

variable (hlen : p.length ≤ 4080) (hpath : pathFault s (normHdr h) = false)
include hlen hpath

theorem doOp_execPacket :
    doOp op f h p s =
      let out : State × Res :=
        if (pktNet h s).isSome && netDenied op then (atFetch op h p s, resErr stDenied)
        else if isEpochOp op || op / 256 == 2 then f (normHdr h) (pktNet h s) p (atFetch op h p s)
        else match pathMember h.depth h.path with
          | none => f (normHdr h) (pktNet h s) p (atFetch op h p s)
          | some (m, d, path) => (relayRun ((atFetch op h p s).cmd.fetchNum - 1) 1 op (h.tag % 65536) (h.txn % 2 ^ 32) m d path p
              (atFetch op h p s), { later := true })
      answered op h p s out.2 out.1 := by
  have hfault : ¬ pathFault (atFetch op h p s) (normHdr h) = true := by
    rw [pathFault_atFetch, hpath]
    decide
  rw [doOp_taken ht]
  dsimp only
  rw [if_neg (by omega), execPacket, if_neg hfault]
  rfl

theorem doOp_denied (hnet : h.net = true) (hden : netDenied op = true) :
    doOp op f h p s = answered op h p s { status := stDenied } (atFetch op h p s) := by
  have hsome : ((pktNet h s).isSome && netDenied op) = true := by
    rw [pktNet, if_pos hnet, hden]
    rfl
  rw [doOp_execPacket ht hlen hpath]
  dsimp only
  rw [if_pos hsome]
  rfl

theorem doOp_relayed {m d path : Nat} (hden : (h.net && netDenied op) = false) (hep : isEpochOp op = false) (hgroup : op / 256 ≠ 2)
    (hm : pathMember h.depth h.path = some (m, d, path)) :
    doOp op f h p s = answered op h p s { later := true }
      (relayRun s.cmd.fetchNum 1 op (h.tag % 65536) (h.txn % 2 ^ 32) m d path p (atFetch op h p s)) := by
  have hsome : ((pktNet h s).isSome && netDenied op) = false := by
    rw [← hden, pktNet]
    cases h.net <;> rfl
  have hnot : (isEpochOp op || op / 256 == 2) = false := by rw [hep, beq_eq_false_iff_ne.mpr hgroup]; rfl
  rw [doOp_execPacket ht hlen hpath]
  dsimp only
  rw [hsome, hnot, hm, atFetch_fetchNum]
  rfl

end Taken

/-- Settles O10: what `doOp` does before it comes to the opcode's own function. -/
theorem packetsBeforeTheirOpcode : Obligations.PacketsBeforeTheirOpcode := by
  unfold Obligations.PacketsBeforeTheirOpcode
  intro row hrow h p s hd
  obtain ⟨f, hrun⟩ := packetRows_run row hrow
  refine ⟨fun hf => ?_, fun hf hc => ?_, fun ht hbad => ?_, fun ht hlen hpath hnet hden => ?_,
    fun m d path ht hlen hpath hden hep hgroup hm => ?_⟩
  · exact gives_of (hrun h p s) (doOp_fenced hd hf)
  · exact gives_of (hrun h p s) (doOp_blocked hd hf hc)
  · exact gives_of (hrun h p s) (doOp_badParam ht hbad)
  · exact gives_of (hrun h p s) (doOp_denied ht hlen hpath hnet hden)
  · exact gives_of (hrun h p s) (doOp_relayed ht hlen hpath hden hep hgroup hm)

/-! ### Messages leave the rest alone -/

/-- `t` is `s` but for what the links hold and what left the device. -/
def SendsOnly (s t : State) : Prop := t = { s with nyl := t.nyl, mir := t.mir, outbox := t.outbox }

theorem SendsOnly.refl (s : State) : SendsOnly s s := rfl

theorem SendsOnly.trans {a b c : State} (h1 : SendsOnly a b) (h2 : SendsOnly b c) : SendsOnly a c := by
  refine Eq.trans h2 ?_
  rw [h1]

theorem sendsOnly_foldl {α : Type} {f : State → α → State} (l : List α) (hf : ∀ s a, SendsOnly s (f s a)) (s : State) :
    SendsOnly s (l.foldl f s) :=
  foldl_keeps (P := SendsOnly s) l (fun b a _ hb => hb.trans (hf b a)) (.refl s)

theorem sendsOnly_sendMsg (s : State) (m : LinkMsg) : SendsOnly s (sendMsg s m) := by
  unfold sendMsg
  split
  · split
    · exact rfl
    · exact rfl
  · exact .refl s

theorem sendsOnly_sendOn (s : State) (l kind : Nat) (args : List Nat) (bytes : List Byte) : SendsOnly s (sendOn s l kind args bytes) :=
  sendsOnly_sendMsg s _

theorem sendsOnly_sendPartner (s : State) (kind : Nat) (args : List Nat) (bytes : List Byte) :
    SendsOnly s (sendPartner s kind args bytes) := by
  unfold sendPartner
  split
  · exact sendsOnly_sendOn s _ _ _ _
  · exact .refl s

theorem sendsOnly_sendVoter (s : State) (m kind : Nat) (args : List Nat) (bytes : List Byte) :
    SendsOnly s (sendVoter s m kind args bytes) := by
  unfold sendVoter
  split
  · exact sendsOnly_sendPartner s _ _ _
  · exact sendsOnly_sendOn s _ _ _ _

theorem sendsOnly_forwardPacket (s : State) (num id : Nat) (pk : Packet) : SendsOnly s (forwardPacket s num id pk) := by
  unfold forwardPacket
  split
  · exact .refl s
  · exact sendsOnly_foldl _ (fun u m => sendsOnly_sendVoter u m _ _ _) s

theorem sendsOnly_discover (op : Nat) (p : List Byte) (s : State) : SendsOnly s (discover op p s) := by
  unfold discover
  dsimp only
  split
  · exact SendsOnly.trans (b := { s with nyl := { s.nyl with answers := [], ringSeen := false } }) rfl (sendsOnly_sendOn _ _ _ _ _)
  · split
    · exact SendsOnly.trans (b := { s with mir := { s.mir with answer := none } }) rfl
        (sendsOnly_foldl _ (fun u l => sendsOnly_sendOn u l _ _ _) _)
    · exact .refl s

/-! ### Staging (R97, R257) -/

/-- Fetching a packet changes its CQ's reservations and the count of packets. -/
theorem atFetch_same (op : Nat) (h : Hdr) (p : List Byte) (s : State) :
    atFetch op h p s = { s with cmd := { s.cmd with cqs := (atFetch op h p s).cmd.cqs, fetchNum := s.cmd.fetchNum + 1 } } := by
  unfold atFetch
  dsimp only
  split <;> rfl

theorem atFetch_txns (op : Nat) (h : Hdr) (p : List Byte) (s : State) : (atFetch op h p s).cmd.txns = s.cmd.txns :=
  (congrArg (fun u : State => u.cmd.txns) (atFetch_same op h p s) :)

theorem atFetch_txnNum (op : Nat) (h : Hdr) (p : List Byte) (s : State) : (atFetch op h p s).cmd.txnNum = s.cmd.txnNum :=
  (congrArg (fun u : State => u.cmd.txnNum) (atFetch_same op h p s) :)

theorem atFetch_fetched (op : Nat) (h : Hdr) (p : List Byte) (s : State) : (atFetch op h p s).cmd.fetched = s.cmd.fetched :=
  (congrArg (fun u : State => u.cmd.fetched) (atFetch_same op h p s) :)

theorem atFetch_tick (op : Nat) (h : Hdr) (p : List Byte) (s : State) : (atFetch op h p s).tick = s.tick :=
  (congrArg State.tick (atFetch_same op h p s) :)

theorem atFetch_jnl (op : Nat) (h : Hdr) (p : List Byte) (s : State) : (atFetch op h p s).jnl = s.jnl :=
  (congrArg State.jnl (atFetch_same op h p s) :)

section Stage

variable {op : Nat} {chk : State → List Packet → List Byte → Nat} {h : Hdr} {net : Option (Nat × Nat × Nat)}
  {p : List Byte} {s : State}

theorem stageOp_follower (hf : isFollower s = true) (hmay : followerMay s op p = false) :
    stageOp op chk h net p s = (s, resErr stBadState) := if_pos (by rw [hf, hmay]; rfl)

/-- Staging asks the check for this payload alone. -/
theorem stageCmd_congr {chk' : State → List Packet → List Byte → Nat} (hchk : ∀ l, chk s l p = chk' s l p) :
    stageCmd op h net p chk s = stageCmd op h net p chk' s := by
  unfold stageCmd
  simp only [hchk]

variable (hmay : mayStage op h p s = true)
include hmay

theorem stageOp_eq :
    stageOp op chk (normHdr h) net p s =
      let r := stageCmd op (normHdr h) net p chk s
      if r.2.status = stOk ∨ r.2.status = stAccepted then
        match joinedTxn r.1 (normHdr h) r.2 with
        | some t => (forwardPacket (if isHere r.1 (asStaged op h p) then discover op p r.1 else r.1) t.num t.id (asStaged op h p), r.2)
        | none => r
      else r := by
  simp only [mayStage, Bool.and_eq_true, Bool.or_eq_true, Bool.not_eq_true'] at hmay
  obtain ⟨hown, hdepth⟩ := hmay
  have hgo : ¬ (isFollower s && !followerMay s op p) = true := by
    rcases hown with hown | hown <;> simp [hown]
  have hcmd : stageCmd op (normHdr h) net p (fun s l p => if sceneDepthBad op (normHdr h) p then stBadParam else chk s l p) s =
      stageCmd op (normHdr h) net p chk s :=
    stageCmd_congr fun l => if_neg (Bool.eq_false_iff.mp hdepth)
  unfold stageOp
  rw [if_neg hgo, hcmd]
  rfl

theorem stageOp_refused (h1 : (stageCmd op (normHdr h) net p chk s).2.status ≠ stOk)
    (h2 : (stageCmd op (normHdr h) net p chk s).2.status ≠ stAccepted) :
    stageOp op chk (normHdr h) net p s = stageCmd op (normHdr h) net p chk s :=
  (stageOp_eq hmay).trans (if_neg (not_or.mpr ⟨h1, h2⟩))

/-- What staging leaves goes on to the modules that hold copies; the result stands. -/
theorem stageOp_sends :
    SendsOnly (stageCmd op (normHdr h) net p chk s).1 (stageOp op chk (normHdr h) net p s).1 ∧
      (stageOp op chk (normHdr h) net p s).2 = (stageCmd op (normHdr h) net p chk s).2 := by
  rw [stageOp_eq hmay]
  generalize stageCmd op (normHdr h) net p chk s = r
  dsimp only
  split
  · split
    · refine ⟨?_, rfl⟩
      split
      · exact (sendsOnly_discover op p r.1).trans (sendsOnly_forwardPacket _ _ _ _)
      · exact sendsOnly_forwardPacket _ _ _ _
    · exact ⟨.refl _, rfl⟩
  · exact ⟨.refl _, rfl⟩

end Stage

section Refused

variable {op : Nat} {chk : State → List Packet → List Byte → Nat} {h : Hdr} {net : Option (Nat × Nat × Nat)}
  {p : List Byte} {s : State}

theorem stageCmd_ownRefused (htxn : h.txn = 0) (hchk : chk s [] p ≠ stOk) :
    stageCmd op h net p chk s = (s, resErr (chk s [] p)) := by
  unfold stageCmd
  dsimp only
  rw [if_pos htxn, if_pos hchk]

theorem stageCmd_open {T : Txn} (htxn : h.txn ≠ 0) (hT : findTxn s h.txn = some T) (hopen : T.phase = .open_) :
    stageCmd op h net p chk s =
      ((stageInto s T (asStaged op h p) (chk s T.packets p)).1, resErr (stageInto s T (asStaged op h p) (chk s T.packets p)).2) := by
  unfold stageCmd
  dsimp only
  rw [if_neg htxn, hT]
  dsimp only
  rw [hopen]
  rfl

theorem stageInto_failed {T : Txn} {pk : Packet} {st : Nat} (h1 : st ≠ stOk) (h2 : st ≠ stBadState) :
    stageInto s T pk st = (s.putTxn { T with used := s.clk, phase := .failed, err := st }, st) := by
  rw [stageInto, if_neg h1, if_neg h2]

theorem stageInto_staged {T : Txn} {pk : Packet} (hlen : T.bytes + 16 + pk.payload.length ≤ 0x100000) :
    stageInto s T pk stOk =
      (s.putTxn { T with used := s.clk, packets := T.packets ++ [pk], bytes := T.bytes + 16 + pk.payload.length }, stOk) := by
  rw [stageInto, if_pos rfl]
  exact if_neg (Nat.not_lt.mpr hlen)

end Refused

theorem pktRuns_iff {op : Nat} {h : Hdr} {p : List Byte} {s : State} :
    pktRuns op h p s = true ↔ pktTaken op h p s = true ∧ pktHere op h p s = true := Bool.and_eq_true_iff

/-- A packet that runs: its opcode's function acts on the state as fetched. -/
theorem doOp_runs {op : Nat} {f : OpFn} {h : Hdr} {p : List Byte} {s : State} (hr : pktRuns op h p s = true) :
    doOp op f h p s = answered op h p s (f (normHdr h) (pktNet h s) p (atFetch op h p s)).2
      (f (normHdr h) (pktNet h s) p (atFetch op h p s)).1 :=
  doOp_here (pktRuns_iff.mp hr).1 (pktRuns_iff.mp hr).2

/-- A packet whose function comes to `out`. -/
theorem answers_of {i : Hdr → List Byte → Instr} {op : Nat} {f : OpFn} {h : Hdr} {p : List Byte} {s : State} (hi : RunsPacket i op f)
    (hr : pktRuns op h p s = true) {v : State} {r : Res} (hf : f (normHdr h) (pktNet h s) p (atFetch op h p s) = (v, r)) :
    Answers (i h p) op h p s r v :=
  gives_of (hi h p s) (by rw [doOp_runs hr, hf])

theorem findTxn_id {s : State} {id : Nat} {T : Txn} (h : findTxn s id = some T) : id ≠ 0 := by
  have hT := List.find?_some h
  simp only [Bool.and_eq_true, beq_iff_eq, bne_iff_ne] at hT
  obtain ⟨⟨-, hid⟩, hne⟩ := hT
  exact hid ▸ hne

/-- Settles O13: what `stageOp` refuses of itself, and what the check of `stageCmd` refuses. -/
theorem epochCommandsRefused : Obligations.EpochCommandsRefused := by
  unfold Obligations.EpochCommandsRefused
  intro row hrow h p s hr
  have hrun := epochRows_run row hrow
  refine ⟨fun hf hmay => answers_of hrun hr (stageOp_follower hf hmay), fun hmay htxn h1 h2 => answers_of hrun hr ?_,
    fun T hmay htxn hT hopen h1 h2 h3 => answers_of hrun hr ?_⟩
  · have hcmd := stageCmd_ownRefused (op := row.1) (net := pktNet h s) (h := normHdr h) htxn h1
    rw [stageOp_refused hmay (by rw [hcmd]; exact h1) (by rw [hcmd]; exact h2), hcmd]
    rfl
  · have hcmd := (stageCmd_open (op := row.1) (net := pktNet h s) (p := p) (chk := row.2.2) (h := normHdr h) htxn hT hopen).trans
      (by rw [stageInto_failed h1 h2])
    rw [stageOp_refused hmay (by rw [hcmd]; exact h1) (by rw [hcmd]; exact h3), hcmd, atFetch_clk]
    rfl

/-- The member found is replaced by one that is found as well. -/
theorem find?_map_replace {α : Type} {p q : α → Bool} {u T : α} {l : List α} (h : l.find? p = some T) (hq : q T = true)
    (hu : p u = true) : (l.map fun x => if q x then u else x).find? p = some u := by
  induction l with
  | nil => cases h
  | cons x l ih =>
    rw [List.map_cons]
    by_cases hx : q x = true
    · rw [if_pos hx, List.find?_cons_of_pos hu]
    · rw [if_neg hx]
      by_cases hp : p x = true
      · rw [List.find?_cons_of_pos hp] at h
        cases h
        exact absurd hq hx
      · rw [List.find?_cons_of_neg hp] at h ⊢
        exact ih h

/-- What `findTxn` looks for. -/
def namesTxn (id : Nat) (t : Txn) : Bool := !t.fw && t.lead.isNone && t.id == id && t.id != 0

theorem findTxn_eq (s : State) (id : Nat) : findTxn s id = s.cmd.txns.find? (namesTxn id) := rfl

/-- The transaction found by an ID is found again after it is put back, changed. -/
theorem findTxn_putTxn {s : State} {id : Nat} {T u : Txn} (hT : findTxn s id = some T) (hnum : u.num = T.num) (hfw : u.fw = T.fw)
    (hlead : u.lead = T.lead) (hid : u.id = T.id) : findTxn (s.putTxn u) id = some u := by
  rw [findTxn_eq] at hT
  have hnames : namesTxn id u = namesTxn id T := by simp only [namesTxn, hfw, hlead, hid]
  exact find?_map_replace hT (beq_iff_eq.mpr hnum.symm) (hnames.trans (List.find?_some hT))

/-- The state that a staged packet leaves, as it settles. -/
theorem staged_settles {op : Nat} {chk : State → List Packet → List Byte → Nat} {h : Hdr} {p : List Byte} {s v t : State} {r : Res}
    (hmay : mayStage op h p (atFetch op h p s) = true)
    (hcmd : stageCmd op (normHdr h) (pktNet h s) p chk (atFetch op h p s) = (v, r))
    (ht : Settled (answered op h p s (stageOp op chk (normHdr h) (pktNet h s) p (atFetch op h p s)).2
      (stageOp op chk (normHdr h) (pktNet h s) p (atFetch op h p s)).1) t) :
    t.cmd = { v.cmd with fetched := v.cmd.fetched ++ [entryOf op h p s r] } ∧ t.cm = v.cm ∧ t.tick = v.tick ∧ t.jnl = v.jnl := by
  obtain ⟨hsends, hres⟩ := stageOp_sends (chk := chk) (net := pktNet h s) hmay
  rw [hcmd] at hsends hres
  have hv : ∀ {α : Type} (f : State → α) (_ : ∀ a b c, f { v with nyl := a, mir := b, outbox := c } = f v),
      f (stageOp op chk (normHdr h) (pktNet h s) p (atFetch op h p s)).1 = f v := fun f hf => by
    rw [hsends]
    exact hf _ _ _
  refine ⟨?_, ht.cm.trans (hv State.cm fun _ _ _ => rfl), ht.tick.trans (hv State.tick fun _ _ _ => rfl),
    ht.jnl.trans (hv State.jnl fun _ _ _ => rfl)⟩
  rw [ht.cmd, hres]
  show { (stageOp op chk (normHdr h) (pktNet h s) p (atFetch op h p s)).1.cmd with
    fetched := (stageOp op chk (normHdr h) (pktNet h s) p (atFetch op h p s)).1.cmd.fetched ++ [entryOf op h p s r] } = _
  rw [hv State.cmd fun _ _ _ => rfl]

theorem findTxn_congr {s t : State} (h : t.cmd.txns = s.cmd.txns) (id : Nat) : findTxn t id = findTxn s id := by
  rw [findTxn_eq, findTxn_eq, h]

/-- The transaction `T` with one more packet, staged at cycle `clk`. -/
def withPacket (clk : Nat) (T : Txn) (pk : Packet) : Txn :=
  { T with used := clk, packets := T.packets ++ [pk], bytes := T.bytes + 16 + pk.payload.length }

/-- Settles O11: `stageInto` adds the packet to the transaction, and `findTxn_putTxn` finds it again. -/
theorem epochCommandsStage : Obligations.EpochCommandsStage := by
  unfold Obligations.EpochCommandsStage
  intro row hrow h p T s hr
  dsimp only
  intro hmay hT hopen hchk hlen
  refine leaves_of (epochRows_run row hrow h p s) fun t ht => ?_
  rw [doOp_runs hr] at ht
  have hcmd : stageCmd row.1 (normHdr h) (pktNet h s) p row.2.2 (atFetch row.1 h p s) =
      ((atFetch row.1 h p s).putTxn (withPacket (atFetch row.1 h p s).clk T (asStaged row.1 h p)), resErr stOk) := by
    rw [stageCmd_open (h := normHdr h) (findTxn_id hT) hT hopen, hchk, stageInto_staged (pk := asStaged row.1 (normHdr h) p) hlen]
    rfl
  obtain ⟨hcmds, hcm, htick, hjnl⟩ := staged_settles hmay hcmd ht
  have hfind := findTxn_putTxn (u := withPacket (atFetch row.1 h p s).clk T (asStaged row.1 h p)) hT rfl rfl rfl rfl
  refine ⟨⟨_, (findTxn_congr (by rw [hcmds]) _).trans hfind, rfl, rfl, hopen, atFetch_clk row.1 h p s⟩, ?_,
    hcm.trans (atFetch_cm row.1 h p s), htick.trans (atFetch_tick row.1 h p s), hjnl.trans (atFetch_jnl row.1 h p s)⟩
  rw [hcmds]
  exact congrArg (· ++ [entryOf row.1 h p s (resErr stOk)]) (atFetch_fetched row.1 h p s)

/-! ### A transaction of its own -/

/-- The transaction that an epoch command with TXN_ID 0 makes of the packet `pk`, accepted with reply `r` (R97). -/
def ownTxn (s : State) (pk : Packet) (r : Reply) : Txn :=
  { num := s.cmd.txnNum
    id := 0
    packets := [pk]
    bytes := 16 + pk.payload.length
    used := s.clk
    phase := .accepted
    reply := some r }

/-- The first completion of an accepted transaction in MODE 0 (R258). -/
def acceptedRes (n : Nat) : Res := { status := stAccepted, result := leBytes 8 0, rlen := 8, accepts := some n }

theorem addTxn_accepted (s : State) (pk : Packet) (r : Reply) :
    acceptTxn (s.addTxn { num := 0, id := 0, packets := [pk], bytes := 16 + pk.payload.length }).1
        (s.addTxn { num := 0, id := 0, packets := [pk], bytes := 16 + pk.payload.length }).2 r false 0 0 =
      ({ s with cmd := { s.cmd with
          txnNum := s.cmd.txnNum + 1
          txns := s.cmd.txns.map (fun x => if x.num == s.cmd.txnNum then ownTxn s pk r else x) ++ [ownTxn s pk r] } },
        acceptedRes s.cmd.txnNum) := by
  simp only [acceptTxn, State.addTxn, State.putTxn, State.setTxns, List.map_append, List.map_cons, List.map_nil, beq_self_eq_true,
    if_true]
  rfl

theorem stageCmd_own {op : Nat} {chk : State → List Packet → List Byte → Nat} {h : Hdr} {net : Option (Nat × Nat × Nat)}
    {p : List Byte} {s : State} (htxn : h.txn = 0) (hchk : chk s [] p = stOk) (hheld : heldCount s < 64) :
    stageCmd op h net p chk s =
      ({ s with cmd := { s.cmd with
          txnNum := s.cmd.txnNum + 1
          txns := s.cmd.txns.map (fun x => if x.num == s.cmd.txnNum then ownTxn s (asStaged op h p) (replyOf s h op net) else x) ++
            [ownTxn s (asStaged op h p) (replyOf s h op net)] } },
        acceptedRes s.cmd.txnNum) := by
  have hreply : ∀ u : State, u.regs = s.regs → replyOf u h op net = replyOf s h op net := fun u hu => by
    simp only [replyOf, boundCq, State.field, State.reg, hu]
  unfold stageCmd
  dsimp only
  rw [if_pos htxn, hchk, if_neg (by decide), if_neg (Nat.not_le.mpr hheld), hreply _ rfl]
  exact addTxn_accepted s (asStaged op h p) _

/-- Settles O12: `stageCmd_own` gives the transaction, and what is sent on changes no transaction. -/
theorem epochCommandsOfTheirOwn : Obligations.EpochCommandsOfTheirOwn := by
  unfold Obligations.EpochCommandsOfTheirOwn
  intro row hrow h p s hr htxn
  dsimp only
  intro hmay hchk hheld
  refine leaves_of (epochRows_run row hrow h p s) fun t ht => ?_
  rw [doOp_runs hr] at ht
  have hcmd := stageCmd_own (op := row.1) (net := pktNet h s) (h := normHdr h) htxn hchk hheld
  obtain ⟨hcmds, hcm, htick, hjnl⟩ := staged_settles hmay hcmd ht
  have htxns := atFetch_txns row.1 h p s
  have hnum := atFetch_txnNum row.1 h p s
  refine ⟨⟨ownTxn (atFetch row.1 h p s) (asStaged row.1 h p) (replyOf (atFetch row.1 h p s) (normHdr h) row.1 (pktNet h s)), ?_, hnum,
    rfl, rfl, rfl, rfl⟩, ⟨acceptedRes (atFetch row.1 h p s).cmd.txnNum, ?_, rfl, congrArg some hnum⟩, hcm.trans (atFetch_cm row.1 h p s),
    htick.trans (atFetch_tick row.1 h p s), hjnl.trans (atFetch_jnl row.1 h p s)⟩
  · rw [hcmds, ← htxns]
    rfl
  · rw [hcmds]
    exact congrArg (· ++ _) (atFetch_fetched row.1 h p s)

end Sys2Proof.Machine
end

section
/-! PROOFS. The network path and packet fetch (R242 to R254, R271 to R279). Obligations O19 and O20. -/

namespace Sys2Proof.Machine

open Sys2Proof.Claims

/-- A register below the interrupt controller's block, other than the MSI-X pending bits, is not the controller's to write. -/
theorem settled_regLow {u t : State} (h : Settled u t) {a : Nat} (ha : 0x10000 ≤ a) (hlt : a < 0x20000) : t.reg a = u.reg a := by
  refine h.reg a ?_
  unfold ctlReg R.irqPend R.irqFbLog R.irqFbPos R.irqCntFb R.glbMsixPba
  omega

/-! ### Datagrams (R272, R273) -/

/-- The parts of a datagram (R272): payload length, tag check, session, sequence number, packet. -/
def dgLen (d : Dgram) : Nat := leNat ((d.payload.drop 14).take 2)
def dgGood (d : Dgram) (s : State) : Prop :=
  (d.payload.drop (24 + dgLen d)).take 16 = (hmac (bytesOfWords s.cmd.key.toList) (d.payload.take (24 + dgLen d))).take 16
def dgSession (d : Dgram) : Nat := leNat (d.payload.take 4)
def dgSeq (d : Dgram) : Nat := leNat ((d.payload.drop 4).take 4)
def dgPacket (d : Dgram) : List Byte := (d.payload.drop 8).take (16 + dgLen d)

section Datagram

variable {d : Dgram} {s : State} (hon : onNetPath s d = true)
include hon

theorem netDatagram_size (hu : d.udpLen ≠ 48 + dgLen d) : netDatagram d s = s.inc R.cmdNetCntDrop := by
  have hbad : (!d.ok || d.udpLen != 48 + dgLen d || d.payload.length != 40 + dgLen d) = true := by
    rw [bne_iff_ne.mpr hu, Bool.or_true, Bool.true_or]
  unfold netDatagram
  rw [if_neg (by rw [hon]; decide)]
  exact if_pos hbad

variable (hok : d.ok = true) (hu : d.udpLen = 48 + dgLen d) (hl : d.payload.length = 40 + dgLen d)
include hok hu hl

theorem netDatagram_sized :
    netDatagram d s =
      if (d.payload.drop (24 + dgLen d)).take 16 != (hmac (bytesOfWords s.cmd.key.toList) (d.payload.take (24 + dgLen d))).take 16 then
        (s.inc R.cmdNetCntAuth).evt R.cmdEvtStatus 4
      else if dgSession d = 0 ∧ leNat (((dgPacket d).drop 2).take 2) = 0x0101 then
        takeHello s d (dgSeq d) (leNat (((dgPacket d).drop 4).take 2))
      else if dgSession d = 0 ∨ dgSession d ≠ s.regNat R.cmdNetSession ∨ dgSeq d ≤ s.regNat R.cmdNetSeq then s.inc R.cmdNetCntReplay
      else netSubmit (s.setNat R.cmdNetSeq (dgSeq d)) d (dgPacket d) := by
  have hsize : ¬ (!d.ok || d.udpLen != 48 + dgLen d || d.payload.length != 40 + dgLen d) = true := by
    rw [hok, bne_eq_false_iff_eq.mpr hu, bne_eq_false_iff_eq.mpr hl]
    decide
  unfold netDatagram
  rw [if_neg (by rw [hon]; decide)]
  exact if_neg hsize

theorem netDatagram_badTag (hbad : ¬ dgGood d s) : netDatagram d s = (s.inc R.cmdNetCntAuth).evt R.cmdEvtStatus 4 := by
  rw [netDatagram_sized hon hok hu hl]
  exact if_pos (bne_iff_ne.mpr hbad)

variable (hgood : dgGood d s)
include hgood

theorem netDatagram_hello (hses : dgSession d = 0) (hop : leNat (((dgPacket d).drop 2).take 2) = 0x0101) :
    netDatagram d s = takeHello s d (dgSeq d) (leNat (((dgPacket d).drop 4).take 2)) := by
  rw [netDatagram_sized hon hok hu hl]
  exact (if_neg (by rw [bne_eq_false_iff_eq.mpr hgood]; decide)).trans (if_pos ⟨hses, hop⟩)

variable (hses : dgSession d ≠ 0)
include hses

theorem netDatagram_replay (h : dgSession d ≠ s.regNat R.cmdNetSession ∨ dgSeq d ≤ s.regNat R.cmdNetSeq) :
    netDatagram d s = s.inc R.cmdNetCntReplay := by
  rw [netDatagram_sized hon hok hu hl]
  exact (if_neg (by rw [bne_eq_false_iff_eq.mpr hgood]; decide)).trans ((if_neg fun h => hses h.1).trans (if_pos (.inr h)))

theorem netDatagram_accepted (hs : dgSession d = s.regNat R.cmdNetSession) (hseq : s.regNat R.cmdNetSeq < dgSeq d) :
    netDatagram d s = netSubmit (s.setNat R.cmdNetSeq (dgSeq d)) d (dgPacket d) := by
  rw [netDatagram_sized hon hok hu hl]
  refine (if_neg (by rw [bne_eq_false_iff_eq.mpr hgood]; decide)).trans ((if_neg fun h => hses h.1).trans (if_neg ?_))
  rintro (h | h | h)
  · exact hses h
  · exact h hs
  · exact absurd h (Nat.not_le.mpr hseq)

end Datagram

/-! ### A hello (R273) -/

theorem takeHello_reg (s : State) (d : Dgram) (seq tag : Nat) (a : Nat) :
    (takeHello s d seq tag).reg a = (((s.setNat R.cmdNetSession (s.jnl.store.session + 1)).setNat R.cmdNetSeq seq).setNat R.cmdNetPeer
      d.srcIp).reg a := rfl

theorem takeHello_out (s : State) (d : Dgram) (seq tag : Nat) : (takeHello s d seq tag).cmd.netOut.length = s.cmd.netOut.length + 1 :=
  List.length_append

/-- Settles O19: the checks of `netDatagram` in their order, and `takeHello`. -/
theorem networkPath : Obligations.NetworkPath := by
  unfold Obligations.NetworkPath
  refine ⟨fun val s h => ?_, fun val s hen hkey => ?_, fun i val s hi => ?_, fun d s hon hok => ⟨fun hu => ?_, fun hu hl hbad => ?_,
    fun hu hl hgood hses h => ?_, fun hu hl hgood hses hs hseq => ?_, fun hu hl hgood hses hop => ?_⟩⟩
  · refine gives_of (v := doNetPathEnable val s) rfl (if_neg ?_)
    rcases h with h | h <;> simp [h]
  · exact gives_of (v := doNetPathEnable val s) rfl (if_pos (by rw [hen, hkey]; rfl))
  · exact gives_of (v := doNetKeyWrite i val s) rfl (if_pos hi)
  · exact gives_of (v := netDatagram d s) rfl (netDatagram_size hon hu)
  · exact gives_of (v := netDatagram d s) rfl (netDatagram_badTag hon hok hu hl hbad)
  · exact gives_of (v := netDatagram d s) rfl (netDatagram_replay hon hok hu hl hgood hses h)
  · exact gives_of (v := netDatagram d s) rfl (netDatagram_accepted hon hok hu hl hgood hses hs hseq)
  · refine leaves_of (u := doHello d s) rfl fun t ht => ?_
    rw [doHello, netDatagram_hello hon hok hu hl hgood hses hop] at ht
    refine ⟨by rw [ht.jnl]; rfl, ?_, ?_, ?_, by rw [ht.cmd]; rfl, by rw [ht.cmd]; rfl, by rw [ht.cmd]; exact takeHello_out s d _ _⟩
    · rw [settled_regLow ht (by decide) (by decide), takeHello_reg, reg_setNat_ne _ _ (by decide), reg_setNat_ne _ _ (by decide),
        reg_setNat_self]
    · rw [settled_regLow ht (by decide) (by decide), takeHello_reg, reg_setNat_ne _ _ (by decide), reg_setNat_self]
      rfl
    · rw [settled_regLow ht (by decide) (by decide), takeHello_reg, reg_setNat_self]

/-! ### Packet fetch (R242 to R254) -/

/-- The slots that the packet with these bytes takes. -/
def slotsOf (bytes : List Byte) : Nat := packetSlots (fld (wAt (wordsOf (bytes.take 16)) 1) 31 16)

section Fetch

variable {n : Nat} {bytes : List Byte} {s : State} (hd : s.dieRuns = true) (hnext : nextRing s = some n)
  (hloc : ringLoc s false n = false)
include hd hnext

theorem doPacketFetch_turn : ¬ (!s.dieRuns || nextRing s != some n) = true := by
  rw [hd, hnext, bne_self_eq_false]
  decide

include hloc

theorem doPacketFetch_fails :
    doPacketFetch n [] s = ((s.setBit (sqReg n 8) 0 false).setSq n { sqSt s n with fetchErr := true }).evt R.cmdEvtStatus 2 := by
  unfold doPacketFetch
  rw [if_neg (doPacketFetch_turn hd hnext), hloc]
  rfl

variable (hbytes : bytes ≠ [])
include hbytes

theorem doPacketFetch_part (h : ringUsed s false n < slotsOf bytes) :
    doPacketFetch n bytes s = s.setSq n { sqSt s n with partPkt := true } := by
  unfold doPacketFetch
  rw [if_neg (doPacketFetch_turn hd hnext), hloc]
  exact (if_neg (by simpa using hbytes)).trans (if_pos h)

theorem doPacketFetch_noFit (h : slotsOf bytes ≤ ringUsed s false n) (h0 : s.cmd.slots ≠ 0)
    (hfit : s.field R.cmdFetchBudget 12 0 < s.cmd.slots + slotsOf bytes) :
    doPacketFetch n bytes s = s.setSq n { sqSt s n with noFit := true } := by
  unfold doPacketFetch
  rw [if_neg (doPacketFetch_turn hd hnext), hloc]
  exact (if_neg (by simpa using hbytes)).trans ((if_neg (Nat.not_lt.mpr h)).trans (if_pos ⟨h0, hfit⟩))

end Fetch

/-- The ring after the engine has taken a packet of `slots` slots, as `takePacket` goes on with it. -/
structure SlotsTaken (n slots : Nat) (s w : State) : Prop where
  used : w.cmd.slots = s.cmd.slots + slots
  fetched : w.cmd.fetched = s.cmd.fetched
  fetchNum : w.cmd.fetchNum = s.cmd.fetchNum
  head : w.reg (sqReg n 0xC) = wd ((ringHead s false n + slots) % ringSize s false n)

theorem slotsTaken_advance {n : Nat} (slots : Nat) (s : State) (hn : n < 32) : SlotsTaken n slots s (advance n slots s) where
  used := rfl
  fetched := rfl
  fetchNum := rfl
  head := by
    have hne : sqReg n 0xC ≠ R.cmdCntPkts := by
      show 0x010400 + 0x20 * n + 0xC ≠ 0x010020
      omega
    unfold advance
    dsimp only
    rw [reg_inc_ne _ _ hne, reg_setNat_self]

/-- A packet whose completion is ready as soon as it is fetched. -/
structure Refused (n slots tag : Nat) (c : Cpl) (s v : State) : Prop where
  used : v.cmd.slots = s.cmd.slots + slots
  head : v.reg (sqReg n 0xC) = wd ((ringHead s false n + slots) % ringSize s false n)
  fetched : ∃ f, v.cmd.fetched = s.cmd.fetched ++ [f] ∧ f.num = s.cmd.fetchNum ∧ f.reply.sq = n ∧ f.reply.tag = tag ∧ f.cpl = some c

theorem SlotsTaken.setCq {n slots : Nat} {s w : State} (h : SlotsTaken n slots s w) (cq : Nat) (q : CqSt) :
    SlotsTaken n slots s (w.setCq cq q) := ⟨h.used, h.fetched, h.fetchNum, h.head⟩

/-- `runPacket` of a packet that is refused whatever the state. -/
theorem SlotsTaken.refused {n slots op resv : Nat} {h : Hdr} {net : Option (Nat × Nat × Nat)} {f : State → State × Res} {st : Nat}
    {s w : State} (hw : SlotsTaken n slots s w) (hf : ∀ u, f u = (u, resErr st)) (hsq : h.sq = n) :
    Refused n slots h.tag { status := st } s (runPacket op h net resv f w) where
  used := by
    unfold runPacket
    simp only [hf]
    exact hw.used
  head := by
    unfold runPacket
    simp only [hf]
    exact hw.head
  fetched := by
    unfold runPacket
    simp only [hf]
    exact ⟨_, congrArg (· ++ _) hw.fetched, hw.fetchNum, hsq, rfl, rfl⟩

theorem reserves_le (e : Bool) (op txn : Nat) (p : List Byte) : reserves e op txn p ≤ 2 := by
  unfold reserves
  split
  · split <;> decide
  · split <;> decide

/-- A packet that neither FENCE nor want of credit holds, and that is refused whatever the state. -/
theorem takePacket_refused {n slots op : Nat} {h : Hdr} {net : Option (Nat × Nat × Nat)} {p : List Byte} {f : State → State × Res}
    {st tag : Nat} {s : State} (hn : n < 32) (hsq : h.sq = n) (htag : h.tag = tag) (hfence : h.fence = false)
    (hen : ringEn s true (boundCq s n) = true)
    (hfree : 2 ≤ cqFree s (boundCq s n)) (hf : ∀ u, f u = (u, resErr st)) :
    Refused n slots tag { status := st } s (takePacket op h net p true (advance n slots) f s) := by
  have hcredit : ¬ ((true || ringEn s true (boundCq s n)) && (!ringEn s true (boundCq s n) ||
      decide (cqFree s (boundCq s n) < reserves (isEpochOp op) op h.txn p))) = true := by
    rw [hen, decide_eq_false (Nat.not_lt.mpr ((reserves_le ..).trans hfree))]
    decide
  have hadv := slotsTaken_advance slots s hn
  subst hsq htag
  unfold takePacket
  dsimp only
  rw [if_neg (by rw [hfence, Bool.false_and]; decide), if_neg hcredit]
  refine SlotsTaken.refused ?_ hf rfl
  split
  · exact hadv.setCq _ _
  · exact hadv

theorem Refused.round {n slots tag : Nat} {c : Cpl} {s v : State} (h : Refused n slots tag c s v) :
    Refused n slots tag c s (if (nextRing v).isNone then { v with cmd := { v.cmd with turn := (0, 0, 0) } } else v) := by
  split
  · exact ⟨h.used, h.head, h.fetched⟩
  · exact h

/-- A packet of another format version takes its slots and is refused. -/
theorem doPacketFetch_version {n : Nat} {bytes : List Byte} {s : State} (hd : s.dieRuns = true) (hn : n < 32)
    (hnext : nextRing s = some n) (hloc : ringLoc s false n = false) (hbytes : bytes ≠ [])
    (hslots : slotsOf bytes ≤ ringUsed s false n) (h0 : s.cmd.slots = 0) (hver : fld (wAt (wordsOf (bytes.take 16)) 0) 7 0 ≠ 1)
    (hfence : bit (wAt (wordsOf (bytes.take 16)) 0) 8 = false) (hen : ringEn s true (boundCq s n) = true)
    (hfree : 2 ≤ cqFree s (boundCq s n)) :
    Refused n (slotsOf bytes) (fld (wAt (wordsOf (bytes.take 16)) 1) 15 0) { status := stBadOpcode } s (doPacketFetch n bytes s) := by
  have hdata : ¬ bytes.isEmpty = true := by simpa using hbytes
  have hused : ¬ ringUsed s false n < packetSlots (fld (wAt (wordsOf (bytes.take 16)) 1) 31 16) := Nat.not_lt.mpr hslots
  unfold doPacketFetch
  rw [if_neg (doPacketFetch_turn hd hnext), hloc]
  dsimp only
  rw [if_neg (by decide : ¬ false = true), if_neg hdata, if_neg hused, if_neg (fun h => h.1 h0)]
  exact Refused.round (takePacket_refused hn rfl rfl hfence hen hfree fun u => if_pos hver)

theorem wd_toNat_of_lt {n : Nat} (h : n < 2 ^ 32) : (wd n).toNat = n := (BitVec.toNat_ofNat n 32).trans (Nat.mod_eq_of_lt h)

theorem ringHead_lt (s : State) (n slots : Nat) : (ringHead s false n + slots) % ringSize s false n < 2 ^ 32 := by
  have hfld := fld_lt (s.reg (ringReg false n 8)) 11 8
  have hsize : ringSize s false n ≤ 2 ^ 15 := Nat.pow_le_pow_right (by decide) (Nat.le_of_lt_succ hfld)
  exact Nat.lt_of_lt_of_le (Nat.mod_lt _ (Nat.two_pow_pos _)) (Nat.le_trans hsize (by decide))

/-- Settles O20: what keeps a packet on its ring, and `takePacket_refused` for one of another format version. -/
theorem packetFetch : Obligations.PacketFetch := by
  unfold Obligations.PacketFetch
  refine ⟨fun n s hd hn hnext hloc => ?_, fun n bytes s hd hn hnext hloc hbytes h => ?_,
    fun n bytes s hd hn hnext hloc hbytes => ?_, fun n bytes s hd hn hnext hloc hbytes => ?_⟩
  · exact gives_of (v := doPacketFetch n [] s) rfl (doPacketFetch_fails hd hnext hloc)
  · exact gives_of (v := doPacketFetch n bytes s) rfl (doPacketFetch_part hd hnext hloc hbytes h)
  · intro slots h h0 hfit
    exact gives_of (v := doPacketFetch n bytes s) rfl (doPacketFetch_noFit hd hnext hloc hbytes h h0 hfit)
  · intro w slots h h0 hver hfence hen hfree
    refine leaves_of (u := doPacketFetch n bytes s) rfl fun t ht => ?_
    have hfetch := doPacketFetch_version hd hn hnext hloc hbytes h h0 hver hfence hen hfree
    have hreg : t.reg (sqReg n 0xC) = wd ((ringHead s false n + slotsOf bytes) % ringSize s false n) :=
      (settled_regLow ht (by unfold sqReg R.cmdSqBaseLo; omega) (by unfold sqReg R.cmdSqBaseLo; omega)).trans hfetch.head
    refine ⟨?_, ?_, ?_⟩
    · rw [ht.cmd, hfetch.used, h0, Nat.zero_add]
      rfl
    · show (t.reg (sqReg n 0xC)).toNat = _
      rw [hreg, wd_toNat_of_lt (ringHead_lt s n _)]
      rfl
    · rw [ht.cmd]
      exact hfetch.fetched

end Sys2Proof.Machine
end

section
/-! PROOFS. Network (R336 to R344, R373): frames received and sent, PFC, link changes. Obligation O46. -/

namespace Sys2Proof.Machine

open Sys2Proof.Claims

/-! ### Ports -/

@[simp] theorem np_setNp (s : State) (p : Nat) (n : NetPort) : (s.setNp p n).np p = n := tabGetD_tabSet_self ..

theorem np_of_str {s t : State} (h : t.str = s.str) (p : Nat) : t.np p = s.np p := by rw [State.np, State.np, h]

theorem settled_np {u t : State} (h : Settled u t) (p : Nat) : t.np p = u.np p := np_of_str h.str p

/-- The registers of the ports are no registers of the interrupt controller. -/
theorem le_portReg (p off : Nat) : 0x30000 ≤ portReg p off := by
  unfold portReg R.netCfg
  omega

theorem portReg_ne_netEvtStatus (p off : Nat) : portReg p off ≠ R.netEvtStatus := by
  unfold portReg R.netCfg R.netEvtStatus
  omega

theorem settled_bitHigh {u t : State} (h : Settled u t) {a : Nat} (ha : 0x30000 ≤ a) (i : Nat) : t.bit a i = u.bit a i := by
  rw [State.bit, State.bit, settled_regHigh h ha]

/-- An event keeps every bit of another register. -/
theorem bit_evt_ne (s : State) (stat i : Nat) {b a : Nat} (hb : b < 32) (ha : a ≠ stat) (hp : a < 0x20100 ∨ 0x20140 ≤ a) :
    (s.evt stat b).bit a i = s.bit a i := by
  rw [State.bit, State.bit, reg_evt_ne s stat hb ha hp]

/-- A field keeps the bits below it. -/
theorem bit_setField_below (s : State) (a : Nat) {hi lo : Nat} (v : Nat) {i : Nat} (h : i < lo) (hlo : i < 32) :
    (s.setField a hi lo v).bit a i = s.bit a i := by
  have e : ∀ u : State, u.bit a i = (u.reg a).getLsbD i := fun _ => rfl
  have hmask : (wd ((2 ^ (hi - lo + 1) - 1) * 2 ^ lo)).getLsbD i = false := by
    rw [wd_testBit _ hlo, Nat.testBit_mul_two_pow, decide_eq_false (by omega), Bool.false_and]
  rw [e, e, State.setField, reg_setReg_self, setFld, BitVec.getLsbD_or, BitVec.getLsbD_and, BitVec.getLsbD_and, BitVec.getLsbD_not,
    hmask, decide_eq_true hlo]
  simp

/-! ### Frames received -/

section
variable {port : Nat} {f : List Byte} {s : State}

/-- What is refused by its tags or its VLAN is counted as filtered, an unknown type as a good frame and as another. -/
theorem doFrameReceive_untagged (hup : (portUp s port && portEn s port) = true) (hmin : 64 ≤ f.length + 4)
    (hmax : f.length + 4 ≤ portMax s port) (hf : untag f = none) :
    doFrameReceive port f true s = s.inc (portReg port 0x54) := by
  unfold doFrameReceive
  rw [hup, hf]
  dsimp only
  rw [if_neg (by decide), if_neg (by decide), if_neg (Nat.not_lt.mpr hmin), if_neg (Nat.not_lt.mpr hmax)]

theorem doFrameReceive_vlan {x : Nat × Option Nat × Nat × List Byte} (hup : (portUp s port && portEn s port) = true)
    (hmin : 64 ≤ f.length + 4) (hmax : f.length + 4 ≤ portMax s port) (hf : untag f = some x) (hv : vlanOk s port x.2.1 = false) :
    doFrameReceive port f true s = s.inc (portReg port 0x54) := by
  obtain ⟨pcp, vlan, et, body⟩ := x
  unfold doFrameReceive
  rw [hup, hf]
  dsimp only at hv ⊢
  rw [if_neg (by decide), if_neg (by decide), if_neg (Nat.not_lt.mpr hmin), if_neg (Nat.not_lt.mpr hmax), hv]
  rfl

theorem doFrameReceive_other {x : Nat × Option Nat × Nat × List Byte} (hup : (portUp s port && portEn s port) = true)
    (hmin : 64 ≤ f.length + 4) (hmax : f.length + 4 ≤ portMax s port) (hf : untag f = some x) (hv : vlanOk s port x.2.1 = true)
    (het : x.2.2.1 ∉ ([0x8808, 0x0800, 0x0806, 0x88F7] : List Nat)) :
    doFrameReceive port f true s = (s.inc (portReg port 0x44)).inc (portReg port 0x58) := by
  obtain ⟨pcp, vlan, et, body⟩ := x
  simp only [List.mem_cons, List.not_mem_nil, or_false, not_or] at het
  obtain ⟨hmac, hip, harp, hptp⟩ := het
  unfold doFrameReceive
  rw [hup, hf]
  dsimp only at hv ⊢
  rw [if_neg (by decide), if_neg (by decide), if_neg (Nat.not_lt.mpr hmin), if_neg (Nat.not_lt.mpr hmax), hv, if_neg (by decide),
    if_neg hmac, if_neg hip, if_neg harp, if_neg hptp]

/-! ### PFC -/

theorem np_showPaused (s : State) (p q : Nat) : (showPaused s p).np q = s.np q := rfl

/-- A PFC request for the class of one bit alone. -/
theorem pfc_one {c : Nat} (hc : c < 8) (q : Nat → Nat) (s : State) :
    (List.range 8).foldl (fun s i => if (2 ^ c).testBit i then pfcClass port i (q i) s else s) s = pfcClass port c (q c) s := by
  interval_cases c <;> rfl

theorem doPfcFrame_one {c : Nat} (hup : (portUp s port && portEn s port) = true) (het : beNat ((f.drop 12).take 2) = 0x8808)
    (hop : beNat ((f.drop 14).take 2) = 0x0101) (hc : c < 8) (hen : beNat ((f.drop 16).take 2) = 2 ^ c) :
    doPfcFrame port f s = pfcClass port c (beNat ((f.drop (18 + 2 * c)).take 2)) (s.inc (portReg port 0x60)) := by
  unfold doPfcFrame
  rw [hup, het, if_pos (by decide)]
  dsimp only
  rw [hop, hen, if_neg (by decide), if_pos rfl]
  exact pfc_one hc (fun i => beNat ((f.drop (18 + 2 * i)).take 2)) _

theorem pfcClass_pauses {c q : Nat} (hfree : (fld (portPfc s port) 7 0).testBit c = false) (hq : q ≠ 0) :
    (pfcClass port c q s).np port = { s.np port with paused := tabSet (s.np port).paused c (s.clk + quanta s port q) } ∧
    (pfcClass port c q s).clk = s.clk := by
  unfold pfcClass
  rw [hfree, if_neg (by decide)]
  dsimp only
  rw [if_neg hq]
  exact ⟨np_setNp .., rfl⟩

theorem quanta_inc (s : State) (p q : Nat) : quanta (s.inc (portReg p 0x60)) p q = quanta s p q := by
  have hne : portReg p 0x40 ≠ portReg p 0x60 := by
    unfold portReg
    omega
  have hbit : (s.inc (portReg p 0x60)).bit (portReg p 0x40) 1 = s.bit (portReg p 0x40) 1 := by
    rw [State.bit, State.bit, State.inc, reg_setReg_ne _ _ hne]
  rw [quanta, quanta, hbit]

/-! ### Transmission -/

theorem takeReplies_none (h : ∀ x ∈ s.cmd.netOut, x.1 ≠ port) : takeReplies s port = s := by
  have hmine : s.cmd.netOut.filter (·.1 == port) = [] :=
    List.filter_eq_nil_iff.mpr fun x hx => by rw [beq_eq_false_iff_ne.mpr (h x hx)]; decide
  have hrest : s.cmd.netOut.filter (·.1 != port) = s.cmd.netOut :=
    List.filter_eq_self.mpr fun x hx => bne_iff_ne.mpr (h x hx)
  unfold takeReplies
  rw [hmine, hrest]
  rfl

theorem doFrameTransmit_first {c : Nat} {rest : List (List Byte)} (hup : (portUp s port && portEn s port) = true)
    (hrep : ∀ x ∈ s.cmd.netOut, x.1 ≠ port) (hc : txClass (s.np port) = some c) (hq : tabGetD (s.np port).queues c [] = f :: rest) :
    doFrameTransmit port s =
      (let u := s.setNp port { s.np port with
        queues := if rest.isEmpty then tabDel (s.np port).queues c else tabSet (s.np port).queues c rest }
       let g := f ++ List.replicate (60 - f.length) 0
       if portMax s port < g.length + 4 then (u.inc (portReg port 0x6C)).evt R.netEvtStatus 4
       else (u.inc (portReg port 0x68)).emit (.frame port g)) := by
  unfold doFrameTransmit
  rw [hup, if_pos rfl, takeReplies_none hrep]
  dsimp only
  rw [hc]
  dsimp only
  rw [hq]
  rfl

end

/-! ### Links -/

/-- A link change shows the new state, raises its event and pauses nothing. -/
theorem linkSet_changes {port : Nat} {up : Bool} {s : State} (hport : port < 4) (h : s.bit (portReg port 0x40) 0 ≠ up) :
    (linkSet s port up).bit (portReg port 0x40) 0 = up ∧ (linkSet s port up).bit R.netEvtStatus port = true ∧
    (linkSet s port up).np port = { s.np port with paused := [] } := by
  have hne := portReg_ne_netEvtStatus port 0x40
  have hpend : portReg port 0x40 < 0x20100 ∨ 0x20140 ≤ portReg port 0x40 := .inr ((by decide : 0x20140 ≤ 0x30000).trans (le_portReg ..))
  let v := (s.setBit (portReg port 0x40) 0 up).evt R.netEvtStatus port
  have hv : v.bit (portReg port 0x40) 0 = up ∧ v.bit R.netEvtStatus port = true ∧ v.np port = s.np port := by
    refine ⟨?_, bit_evt_self _ _ (by omega) (.inr (by decide)), np_of_str (congrArg State.str (evt_same ..) :) _⟩
    rw [bit_evt_ne _ _ _ (by omega) hne hpend, bit_setBit_self _ _ _ (by decide)]
  let w := if up then v.setBit (portReg port 0x40) 1 ((portCfg v port 0).testBit 1) else v
  have hw : w.bit (portReg port 0x40) 0 = up ∧ w.bit R.netEvtStatus port = true ∧ w.np port = s.np port := by
    obtain ⟨hbit, hev, hnp⟩ := hv
    show State.bit (if up then _ else _) _ _ = _ ∧ State.bit (if up then _ else _) _ _ = _ ∧ State.np (if up then _ else _) _ = _
    split
    · refine ⟨(bit_setBit_ne _ _ _ (by decide) (by decide)).trans hbit, ?_, hnp⟩
      rw [State.bit, reg_setBit_ne _ _ _ hne.symm]
      exact hev
    · exact ⟨hbit, hev, hnp⟩
  have e : linkSet s port up = showPaused (w.setNp port { w.np port with paused := [] }) port := if_neg h
  obtain ⟨hbit, hev, hnp⟩ := hw
  rw [e]
  refine ⟨(bit_setField_below _ _ _ (by decide) (by decide)).trans hbit, ?_, ?_⟩
  · rw [showPaused, State.bit, reg_setField_ne _ _ _ _ hne.symm]
    exact hev
  · rw [np_showPaused, np_setNp, hnp]

theorem doLinkChange_same {port : Nat} {up : Bool} {s : State} (h : 4 ≤ port ∨ s.bit (portReg port 0x40) 0 = up) :
    doLinkChange port up s = s := by
  unfold doLinkChange
  split
  · next hp =>
    obtain ⟨hport, _⟩ := hp
    exact if_pos (h.resolve_left (Nat.not_le.mpr hport))
  · rfl

/-- Settles O46: each clause is the branch of the Ethernet command that its premises choose. -/
theorem networkFrames : Obligations.NetworkFrames := by
  unfold Obligations.NetworkFrames
  refine ⟨fun port f ok s hdown => ?_, fun port f s hup => ?_, fun port f s hup hmin => ?_, fun port f s hup hmin hmax => ?_,
    fun port f s hup hmin hmax hf => ?_, fun port f x s hup hmin hmax hf hv => ?_, fun port f x s hup hmin hmax hf hv het => ?_,
    fun port f s hup het hop => ?_, fun port f c s hup het hop hc hen hfree => ?_, fun port c due s hp hdue => ?_,
    fun port c s hp => ?_, fun port c due s hp hlow hdue => ?_, fun port c s hp => ?_, fun port c n s hp => ?_,
    fun port c d n s hp hlow => ?_, fun port c f rest s hup hrep hc hq => ?_, fun port s hdown => ?_,
    fun port up s hport hup hne => ?_, fun port up s h => ?_⟩
  · refine gives_of (v := doFrameReceive port f ok s) rfl ?_
    rw [doFrameReceive, hdown]
    rfl
  · refine gives_of (v := doFrameReceive port f false s) rfl ?_
    rw [doFrameReceive, hup]
    rfl
  · refine gives_of (v := doFrameReceive port f true s) rfl ?_
    unfold doFrameReceive
    rw [hup]
    dsimp only
    rw [if_neg (by decide), if_neg (by decide), if_pos hmin]
  · refine gives_of (v := doFrameReceive port f true s) rfl ?_
    unfold doFrameReceive
    rw [hup]
    dsimp only
    rw [if_neg (by decide), if_neg (by decide), if_neg (Nat.not_lt.mpr hmin), if_pos hmax]
  · exact gives_of (v := doFrameReceive port f true s) rfl (doFrameReceive_untagged hup hmin hmax hf)
  · exact gives_of (v := doFrameReceive port f true s) rfl (doFrameReceive_vlan hup hmin hmax hf hv)
  · exact gives_of (v := doFrameReceive port f true s) rfl (doFrameReceive_other hup hmin hmax hf hv het)
  · refine gives_of (v := doPfcFrame port f s) rfl ?_
    rw [doPfcFrame, hup, het, if_pos (by decide)]
    exact if_pos hop
  · intro q hq
    refine leaves_of (u := doPfcFrame port f s) rfl fun t ht => ?_
    have hfree' : (fld (portPfc (s.inc (portReg port 0x60)) port) 7 0).testBit c = false := hfree
    obtain ⟨hnp, hclk⟩ := pfcClass_pauses hfree' hq
    rw [settled_np ht, ht.clk, doPfcFrame_one hup het hop hc hen, hnp, hclk, quanta_inc]
    exact ⟨tabGet_tabSet_self .., rfl, rfl⟩
  · refine leaves_of (u := doPfcPauseEnd port c s) rfl fun t ht => ?_
    have e : doPfcPauseEnd port c s =
        showPaused ((s.atClk due).setNp port { s.np port with paused := tabDel (s.np port).paused c }) port := by
      unfold doPfcPauseEnd
      dsimp only
      rw [hp]
      exact if_pos hdue
    rw [settled_np ht, ht.clk, ht.tick, e, np_showPaused, np_setNp]
    exact ⟨rfl, rfl, rfl⟩
  · refine gives_of (v := doPfcPauseEnd port c s) rfl ?_
    unfold doPfcPauseEnd
    dsimp only
    rw [hp]
  · refine leaves_of (u := doPfcRepeat port c s) rfl fun t ht => ?_
    have e : doPfcRepeat port c s = (let u := sendPfc (s.atClk due) port c (pfcTime s port)
        u.setNp port { u.np port with pfc := tabSet (u.np port).pfc c (u.clk + quanta u port (pfcTime u port) / 2) }) := by
      unfold doPfcRepeat
      rw [hp]
      dsimp only
      rw [hdue, decide_eq_true hlow]
      rfl
    have hquanta : ∀ q, quanta (sendPfc (s.atClk due) port c (pfcTime s port)) port q = quanta s port q := fun q => by
      have hne : portReg port 0x40 ≠ portReg port 0x74 := by
        unfold portReg
        omega
      have hbit : ((s.atClk due).inc (portReg port 0x74)).bit (portReg port 0x40) 1 = s.bit (portReg port 0x40) 1 :=
        congrArg (fun w : Word => w.toNat.testBit 1) (reg_setReg_ne (s.atClk due) _ hne)
      show (if State.bit ((s.atClk due).inc (portReg port 0x74)) (portReg port 0x40) 1 then _ else _) = _
      rw [hbit]
      rfl
    rw [settled_np ht, ht.clk, e]
    dsimp only
    rw [np_setNp, hquanta]
    exact ⟨tabGet_tabSet_self .., rfl⟩
  · refine gives_of (v := doPfcRepeat port c s) rfl ?_
    unfold doPfcRepeat
    rw [hp]
  · intro left
    refine gives_of (v := doFirmwareQueueDrain port c n s) rfl ?_
    unfold doFirmwareQueueDrain
    dsimp only
    rw [hp, Option.isSome_none, Bool.and_false]
    rfl
  · refine leaves_of (u := doFirmwareQueueDrain port c n s) rfl fun t ht => ?_
    have hlow' : (decide (tabGetD (s.np port).rxq c 0 - n < fwqLow) && (tabGet (s.np port).pfc c).isSome) = true := by
      rw [hp, decide_eq_true hlow]
      rfl
    rw [settled_np ht, ht.clk]
    unfold doFirmwareQueueDrain
    dsimp only
    rw [hlow']
    exact ⟨congrArg NetPort.pfc (tabGetD_tabSet_self ..), rfl⟩
  · intro u g
    have e := doFrameTransmit_first hup hrep hc hq
    exact ⟨fun hfit => gives_of (v := doFrameTransmit port s) rfl (e.trans (if_neg (Nat.not_lt.mpr hfit))),
      fun hlong => gives_of (v := doFrameTransmit port s) rfl (e.trans (if_pos hlong))⟩
  · refine gives_of (v := doFrameTransmit port s) rfl ?_
    rw [doFrameTransmit, hdown]
    rfl
  · refine leaves_of (u := doLinkChange port up s) rfl fun t ht => ?_
    have e : doLinkChange port up s = linkSet s port up := if_pos ⟨hport, hup⟩
    obtain ⟨hbit, hev, hnp⟩ := linkSet_changes hport hne
    rw [settled_bitHigh ht (le_portReg ..), settled_bitHigh ht (by decide), settled_np ht, e, hbit, hev, hnp]
    exact ⟨rfl, rfl, rfl, rfl⟩
  · exact gives_of (v := doLinkChange port up s) rfl (doLinkChange_same h)

end Sys2Proof.Machine
end

section
/-! PROOFS. Time (R379 to R405): PTP, references, triggers. Obligation O47. -/

namespace Sys2Proof.Machine

open Sys2Proof.Claims

/-! ### Bits and fields that a write leaves -/

/-- An event clears no bit. -/
theorem bit_evt_keep (s : State) (stat : Nat) {b a i : Nat} (hb : b < 32) (hp : a < 0x20100 ∨ 0x20140 ≤ a)
    (h : s.bit a i = true) : (s.evt stat b).bit a i = true := by
  by_cases ha : a = stat
  · subst ha
    by_cases hib : i = b
    · subst hib
      exact bit_evt_self s a hb hp
    · have hset : (s.setBit a b true).bit a i = true := (bit_setBit_ne s a true hb hib).trans h
      unfold State.evt
      split
      · exact h
      · have hsnap : ∀ f, ((s.setBit a b true).snapTrig f).bit a i = true := fun f => by
          rw [State.bit, reg_snapTrig]
          exact hset
        have hedge : ∀ (u : State) (src : Nat), src < 512 → u.bit a i = true → (u.edge src).bit a i = true := fun u src hs hu => by
          rw [State.bit, reg_edge_ne u src hs hp]
          exact hu
        cases hf : snapFault a b <;> cases he : evtSource a b <;> dsimp only
        · exact hset
        · split
          · exact hedge _ _ (evtSource_lt hb he) hset
          · exact hset
        · exact hsnap _
        · split
          · exact hedge _ _ (evtSource_lt hb he) (hsnap _)
          · exact hsnap _
  · rw [bit_evt_ne s stat i hb ha hp]
    exact h

/-- A field below another keeps its value. -/
theorem field_setField_below (s : State) (a : Nat) {hi lo hi' lo' : Nat} (v : Nat) (h : hi' < lo) (hle : lo' ≤ hi') (hlt : hi' < 32) :
    (s.setField a hi lo v).field a hi' lo' = s.field a hi' lo' := by
  refine Nat.eq_of_testBit_eq fun i => ?_
  unfold State.field fld
  rw [Nat.testBit_mod_two_pow, Nat.testBit_mod_two_pow, Nat.testBit_div_two_pow, Nat.testBit_div_two_pow]
  by_cases hi' : i < hi' - lo' + 1
  · exact congrArg _ (bit_setField_below s a v (by omega) (by omega))
  · rw [decide_eq_false hi', Bool.false_and, Bool.false_and]

/-- A bit above a field is no part of it. -/
theorem field_setBit_below (s : State) (a : Nat) {j hi lo : Nat} (v : Bool) (h : hi < j) (hle : lo ≤ hi) (hlt : j < 32) :
    (s.setBit a j v).field a hi lo = s.field a hi lo := by
  refine Nat.eq_of_testBit_eq fun i => ?_
  unfold State.field fld
  rw [Nat.testBit_mod_two_pow, Nat.testBit_mod_two_pow, Nat.testBit_div_two_pow, Nat.testBit_div_two_pow]
  by_cases hi' : i < hi - lo + 1
  · exact congrArg _ (bit_setBit_ne s a v hlt (by omega : i + lo ≠ j))
  · rw [decide_eq_false hi', Bool.false_and, Bool.false_and]

/-- The registers of the time unit lie above the interrupt controller's. -/
theorem bit_evt_tim (s : State) (b i : Nat) {a : Nat} (hb : b < 32) (ha : a ≠ R.timEvtStatus) (hlow : 0x30000 ≤ a) :
    (s.evt R.timEvtStatus b).bit a i = s.bit a i := bit_evt_ne s _ i hb ha (.inr ((by decide : 0x20140 ≤ 0x30000).trans hlow))

theorem reg_evt_tim (s : State) {b a : Nat} (hb : b < 32) (ha : a ≠ R.timEvtStatus) (hlow : 0x30000 ≤ a) :
    (s.evt R.timEvtStatus b).reg a = s.reg a := reg_evt_ne s _ hb ha (.inr ((by decide : 0x20140 ≤ 0x30000).trans hlow))

/-! ### TIM_STATE -/

theorem timView_same (s : State) : timView s = { s with regs := (timView s).regs } := rfl

/-- The fields of TIM_STATE that follow from others are in no other register. -/
theorem timView_reg (s : State) {a : Nat} (h : a ≠ R.timState) : (timView s).reg a = s.reg a := by
  unfold timView
  dsimp only
  rw [reg_setBit_ne _ _ _ h, reg_setField_ne _ _ _ _ h, reg_setField_ne _ _ _ _ h, reg_setField_ne _ _ _ _ h]

theorem timView_bit (s : State) {a : Nat} (i : Nat) (h : a ≠ R.timState) : (timView s).bit a i = s.bit a i := by
  rw [State.bit, State.bit, timView_reg s h]

/-- They leave the time state. -/
theorem timView_tSt (s : State) : tSt (timView s) = tSt s := by
  unfold tSt timView
  dsimp only
  rw [field_setBit_below _ _ _ (by decide) (by decide) (by decide), field_setField_below _ _ _ (by decide) (by decide) (by decide),
    field_setField_below _ _ _ (by decide) (by decide) (by decide), field_setField_below _ _ _ (by decide) (by decide) (by decide)]

theorem tSt_of_reg {s t : State} (h : t.reg R.timState = s.reg R.timState) : tSt t = tSt s := by
  rw [tSt, tSt, State.field, State.field, h]

theorem settled_tSt {u t : State} (h : Settled u t) : tSt t = tSt u := tSt_of_reg (settled_regHigh h (by decide))

/-- What the source of the time depends on. -/
structure SameSource (s t : State) : Prop where
  gang : t.reg R.nylGangState = s.reg R.nylGangState
  mir : t.reg R.mirState = s.reg R.mirState
  map : t.mapCm = s.mapCm

theorem SameSource.timSource {s t : State} (h : SameSource s t) : timSource t = timSource s := by
  obtain ⟨hgang, hmir, hmap⟩ := h
  have hfield : t.field R.nylGangState 9 8 = s.field R.nylGangState 9 8 := by rw [State.field, State.field, hgang]
  have hpair : inPair t = inPair s := by rw [inPair, inPair, mirSt, mirSt, State.field, State.field, hmir]
  have hpref : isPref t = isPref s := by rw [isPref, isPref, State.bit, State.bit, hmir]
  rw [Machine.timSource, Machine.timSource, hfield, hpair, hpref, hmap]

theorem SameSource.refUsed {s t : State} (h : SameSource s t) (pps : Bool) : refUsed t pps = refUsed s pps := by
  rw [Machine.refUsed, Machine.refUsed, h.timSource, refSrc, refSrc, h.map]

theorem SameSource.setReg {s t : State} (h : SameSource s t) {a : Nat} (v : Word) (hg : R.nylGangState ≠ a) (hm : R.mirState ≠ a) :
    SameSource s (t.setReg a v) where
  gang := (reg_setReg_ne t v hg).trans h.gang
  mir := (reg_setReg_ne t v hm).trans h.mir
  map := h.map

theorem SameSource.evtTim {s t : State} (h : SameSource s t) {b : Nat} (hb : b < 32) : SameSource s (t.evt R.timEvtStatus b) where
  gang := (reg_evt_tim t hb (by decide) (by decide)).trans h.gang
  mir := (reg_evt_tim t hb (by decide) (by decide)).trans h.mir
  map := by
    rw [← h.map, State.mapCm, State.mapCm, evt_same]
    rfl

theorem SameSource.setTim {s t : State} (h : SameSource s t) (x : TimSt) : SameSource s { t with tim := x } :=
  ⟨h.gang, h.mir, h.map⟩

theorem SameSource.refl (s : State) : SameSource s s := ⟨rfl, rfl, rfl⟩

/-! ### HOLDOVER -/

/-- HOLDOVER entered from TRACK or LOCKED, before its event. -/
def toHoldover (s : State) : State := setIncr (setSt s.tim0 4) (timHold s)

theorem enterHoldover_of {s : State} (h : tSt s = 2 ∨ tSt s = 3) : enterHoldover s = (toHoldover s).evt R.timEvtStatus 1 := if_pos h

theorem enterHoldover_not {s : State} (h : ¬ (tSt s = 2 ∨ tSt s = 3)) : enterHoldover s = s := if_neg h

theorem setIncr_same (s : State) (v : Nat) : setIncr s v = { s with regs := (setIncr s v).regs } := by
  unfold setIncr
  split <;> rfl

theorem setIncr_reg (s : State) (v : Nat) {a : Nat} (hlo : a ≠ R.timIncrLo) (hhi : a ≠ R.timIncrHi) : (setIncr s v).reg a = s.reg a := by
  unfold setIncr
  split
  · exact (reg_setNat_ne _ _ hhi).trans (reg_setNat_ne _ _ hlo)
  · rfl

theorem toHoldover_same (s : State) : toHoldover s = { s with regs := (toHoldover s).regs, tim := s.tim0.tim } := by
  rw [toHoldover, setIncr_same]
  rfl

theorem toHoldover_reg (s : State) {a : Nat} (hst : a ≠ R.timState) (hlo : a ≠ R.timIncrLo) (hhi : a ≠ R.timIncrHi) :
    (toHoldover s).reg a = s.reg a := by
  rw [toHoldover, setIncr_reg _ _ hlo hhi, setSt, reg_setField_ne _ _ _ _ hst]
  rfl

theorem toHoldover_tSt (s : State) : tSt (toHoldover s) = 4 := by
  rw [toHoldover, tSt, State.field, setIncr_reg _ _ (by decide) (by decide)]
  exact field_setField_self s.tim0 R.timState 4 (by decide) (by decide)

/-- What entering HOLDOVER leaves: the registers it does not name, and events. -/
theorem enterHoldover_reg (s : State) {a : Nat} (hlow : 0x30000 ≤ a) (hst : a ≠ R.timState) (hlo : a ≠ R.timIncrLo) (hhi : a ≠ R.timIncrHi)
    (hev : a ≠ R.timEvtStatus) : (enterHoldover s).reg a = s.reg a := by
  by_cases h : tSt s = 2 ∨ tSt s = 3
  · rw [enterHoldover_of h, reg_evt_tim _ (by decide) hev hlow, toHoldover_reg s hst hlo hhi]
  · rw [enterHoldover_not h]

theorem enterHoldover_event {s : State} {i : Nat} (h : s.bit R.timEvtStatus i = true) :
    (enterHoldover s).bit R.timEvtStatus i = true := by
  by_cases hst : tSt s = 2 ∨ tSt s = 3
  · rw [enterHoldover_of hst]
    refine bit_evt_keep _ _ (by decide) (.inr (by decide)) ?_
    rw [State.bit, toHoldover_reg s (by decide) (by decide) (by decide)]
    exact h
  · rw [enterHoldover_not hst]
    exact h

theorem enterHoldover_tSt {s : State} (h : tSt s = 2 ∨ tSt s = 3) : tSt (enterHoldover s) = 4 := by
  rw [enterHoldover_of h, tSt_of_reg (reg_evt_tim _ (by decide) (by decide) (by decide)), toHoldover_tSt]

/-- The counts of samples start again; nothing else of the time unit's own state changes. -/
theorem enterHoldover_tim (s : State) : (enterHoldover s).tim = s.tim ∨ (enterHoldover s).tim = s.tim0.tim := by
  by_cases h : tSt s = 2 ∨ tSt s = 3
  · rw [enterHoldover_of h, evt_tim, toHoldover_same]
    exact .inr rfl
  · rw [enterHoldover_not h]
    exact .inl rfl

theorem enterHoldover_clk (s : State) : (enterHoldover s).clk = s.clk := by
  by_cases h : tSt s = 2 ∨ tSt s = 3
  · rw [enterHoldover_of h, evt_clk, toHoldover_same]
  · rw [enterHoldover_not h]

/-! ### PTP -/

/-- Choosing the master changes registers alone. -/
theorem notesOnly_chooseMaster (s : State) : NotesOnly s (chooseMaster s) := by
  unfold chooseMaster
  split
  · exact notesOnly_setReg ..
  · have hset : ∀ p lo hi, NotesOnly s (((s.setField R.timState 7 4 p).setNat R.timGmIdLo lo).setNat R.timGmIdHi hi) := fun p lo hi =>
      ((notesOnly_setReg ..).setReg ..).setReg ..
    dsimp only
    split
    · exact hset ..
    · exact (hset ..).evt ..

theorem chooseMaster_tim (s : State) : (chooseMaster s).tim = s.tim := (congrArg State.tim (notesOnly_chooseMaster s) :)

theorem chooseMaster_clk (s : State) : (chooseMaster s).clk = s.clk := (congrArg State.clk (notesOnly_chooseMaster s) :)

theorem chooseMaster_event {s : State} {i : Nat} (h : s.bit R.timEvtStatus i = true) :
    (chooseMaster s).bit R.timEvtStatus i = true := by
  have hkeep : ∀ {u : State}, u.reg R.timEvtStatus = s.reg R.timEvtStatus → u.bit R.timEvtStatus i = true := fun hu => by
    rw [State.bit, hu]
    exact h
  unfold chooseMaster
  split
  · exact hkeep (reg_setField_ne _ _ _ _ (by decide))
  · dsimp only
    have hreg : ∀ p lo hi, (((s.setField R.timState 7 4 p).setNat R.timGmIdLo lo).setNat R.timGmIdHi hi).reg R.timEvtStatus =
        s.reg R.timEvtStatus := fun p lo hi => by
      rw [reg_setNat_ne _ _ (by decide), reg_setNat_ne _ _ (by decide), reg_setField_ne _ _ _ _ (by decide)]
    split
    · exact hkeep (hreg ..)
    · exact bit_evt_keep _ _ (by decide) (.inr (by decide)) (hkeep (hreg ..))

section
variable {m : PtpMsg} {s : State}

theorem doSyncReceive_foreign (h : fromMaster s m = false) : doSyncReceive m s = s := if_neg (by rw [h]; decide)

theorem doFollowUpReceive_foreign (h : s.tim.follow = none ∨ fromMaster s m = false) : doFollowUpReceive m s = s := by
  unfold doFollowUpReceive
  obtain h | h := h
  · rw [h]
  · split
    · rfl
    · exact if_neg (by rw [h]; simp)

theorem doFollowUpReceive_own {t2 : Int} (hf : s.tim.follow = some (m.port, m.seq, m.srcId * 65536 + m.srcPort, t2))
    (h : fromMaster s m = true) :
    doFollowUpReceive m s = syncDone (rneDiv (t2 - m.t4 * 16384 - m.corr) 256) { s with tim := { s.tim with follow := none } } := by
  unfold doFollowUpReceive
  rw [hf]
  exact if_pos (by rw [h]; simp)

theorem doDelayRespReceive_foreign (h : fromMaster s m = false) : doDelayRespReceive m s = s := by
  unfold doDelayRespReceive
  split
  · exact if_neg (by rw [h]; simp)
  · rfl

theorem doDelayRespReceive_own {t3 d : Int} (hreq : s.tim.dreq = some (m.port, m.seq, t3)) (hd : s.tim.syncD = some d)
    (h : fromMaster s m = true) (hid : m.reqId = clockId s) (hport : m.reqPort = m.port + 1) :
    doDelayRespReceive m s = pathSample (rneDiv (d + diff8 m.t4 t3 m.corr) 2) { s with tim := { s.tim with dreq := none } } := by
  unfold doDelayRespReceive
  rw [hreq, hd]
  exact if_pos (by rw [h, hid, hport]; simp)

theorem pathSample_accepts {x : Int} (h : tSt s = 1 ∨ s.tim.path = []) :
    pathSample x s = (let l := (x :: s.tim.path).take 16
      ({ s with tim := { s.tim with path := l } } : State).setReg R.timMpd (wdI (meanOf l))) :=
  if_pos (h.imp_right List.isEmpty_iff.mpr)

theorem doAnnounceReceive_takes (hen : (ptpPortEn s m.port && m.domain == ptpDomain s.mapCm && portUp s m.port) = true)
    (hsrc : timSource s = 1)
    (h : ∀ q, tabGet s.tim.masters m.port = some q → q.1.srcId = m.srcId ∧ q.1.srcPort = m.srcPort ∨ ptpBetter m q.1 = true) :
    doAnnounceReceive m s = chooseMaster { s with tim := { s.tim with
      masters := tabSet s.tim.masters m.port (m, s.clk + annClk s.mapCm) } } := by
  unfold doAnnounceReceive
  rw [hen, if_neg (by decide), if_pos hsrc]
  dsimp only
  refine if_pos ?_
  cases hold : tabGet s.tim.masters m.port with
  | none => rfl
  | some q =>
    obtain ⟨a, due⟩ := q
    obtain ⟨hid, hport⟩ | hbetter := h _ hold
    · dsimp only at hid hport ⊢
      rw [hid, hport]
      simp
    · dsimp only at hbetter ⊢
      rw [hbetter, Bool.or_true]

theorem doAnnounceReceive_gang (hsrc : timSource s = 3) : doAnnounceReceive m s = s := by
  unfold doAnnounceReceive
  rw [hsrc]
  split <;> rfl

end

/-- The Sync of a port: one-step with its transmit time, or two-step. -/
def syncMsg (port : Nat) (s : State) : PtpMsg :=
  let two := bit (ptpCfg s.mapCm 0) 8
  { port := port
    seq := s.tim.seqOut % 65536
    t4 := if two then 0 else s.t4
    srcId := clockId s
    srcPort := port + 1
    twoStep := two
    domain := ptpDomain s.mapCm }

theorem mem_settled_out {u t : State} {o : Out} (h : Settled u t) (ho : o ∈ u.outbox) : o ∈ t.outbox :=
  List.contains_iff_mem.mp (contains_settled_out h ho)

section
variable {s : State}

theorem doSyncTransmit_sends {p : Nat} (h : servesTime s p = true) :
    (doSyncTransmit p s).tim.seqOut = s.tim.seqOut + 1 ∧ (doSyncTransmit p s).tick = s.tick ∧
    Out.ptp p ptpSync (syncMsg p s) ∈ (doSyncTransmit p s).outbox ∧
    ((syncMsg p s).twoStep = true →
      Out.ptp p ptpFollowUp { syncMsg p s with t4 := s.t4, twoStep := false } ∈ (doSyncTransmit p s).outbox) := by
  let u := ({ s with tim := { s.tim with seqOut := s.tim.seqOut + 1 } } : State).emit (.ptp p ptpSync (syncMsg p s))
  have e : doSyncTransmit p s = if (syncMsg p s).twoStep = true then
      u.emit (.ptp p ptpFollowUp { syncMsg p s with t4 := s.t4, twoStep := false }) else u := if_pos h
  rw [e]
  split
  · exact ⟨rfl, rfl, List.mem_cons_of_mem _ List.mem_cons_self, fun _ => List.mem_cons_self⟩
  · next htwo => exact ⟨rfl, rfl, List.mem_cons_self, fun h => absurd h htwo⟩

theorem doAnnounceTimeout_due {p due : Nat} {m : PtpMsg} (h : tabGet s.tim.masters p = some (m, due)) (hdue : s.dueOk (due + 1) = true) :
    (doAnnounceTimeout p s).tim.masters = tabDel s.tim.masters p ∧ (doAnnounceTimeout p s).bit R.timEvtStatus 5 = true ∧
    (doAnnounceTimeout p s).clk = max s.clk (due + 1) := by
  let v : State := { s.atClk (due + 1) with tim := { s.tim with
    masters := tabDel s.tim.masters p
    passive := s.tim.passive.filter (· != p) } }
  let w : State := (v.inc R.timCntAnnTo).evt R.timEvtStatus 5
  have e : doAnnounceTimeout p s =
      if timSource w = 1 then (if w.tim.masters.isEmpty then enterHoldover w else chooseMaster w) else w := by
    unfold doAnnounceTimeout
    rw [h]
    exact if_pos hdue
  have hm : w.tim.masters = tabDel s.tim.masters p := congrArg TimSt.masters (evt_tim ..)
  have hb : w.bit R.timEvtStatus 5 = true := bit_evt_self _ _ (by decide) (.inr (by decide))
  have hc : w.clk = max s.clk (due + 1) := evt_clk ..
  rw [e]
  split
  · split
    · refine ⟨?_, enterHoldover_event hb, (enterHoldover_clk w).trans hc⟩
      obtain ht | ht := enterHoldover_tim w <;> rw [ht] <;> exact hm
    · exact ⟨(congrArg TimSt.masters (chooseMaster_tim w)).trans hm, chooseMaster_event hb, (chooseMaster_clk w).trans hc⟩
  · exact ⟨hm, hb, hc⟩

theorem doSyncTimeout_due {due : Nat} (h : s.tim.syncDue = some due) (hsrc : timSource s = 1) (hdue : s.dueOk (due + 1) = true) :
    (doSyncTimeout s).tim.syncDue = none ∧ (doSyncTimeout s).bit R.timEvtStatus 6 = true ∧
    (tSt s = 2 ∨ tSt s = 3 → tSt (doSyncTimeout s) = 4) := by
  let v : State := { s.atClk (due + 1) with tim := { s.tim with syncDue := none } }
  let w : State := (v.inc R.timCntSyncTo).evt R.timEvtStatus 6
  have e : doSyncTimeout s = enterHoldover w := by
    unfold doSyncTimeout
    rw [h]
    exact if_pos ⟨hsrc, hdue⟩
  have hst : tSt w = tSt s :=
    tSt_of_reg ((reg_evt_tim _ (by decide) (by decide) (by decide)).trans (reg_inc_ne v 1 (by decide)))
  have hsync : w.tim.syncDue = none := congrArg TimSt.syncDue (evt_tim ..)
  rw [e]
  refine ⟨?_, enterHoldover_event (bit_evt_self _ _ (by decide) (.inr (by decide))), fun hs => enterHoldover_tSt (hst ▸ hs)⟩
  obtain ht | ht := enterHoldover_tim w <;> rw [ht] <;> exact hsync

end

/-! ### Reference inputs -/

section
variable {s : State}

/-- An edge of a PPS that does not discipline the clock: measured, noted, and shown. -/
theorem doPpsInEdge_measured {t4 : Nat} (h : refUsed s true = false) :
    doPpsInEdge t4 (bit (refCfg s.mapCm 0) 10) s =
      (let err : Int := (t4 : Int) - (ppsSecond s t4 * q4 : Nat)
       let v := s.setReg R.timPpsErr (wdI (err * 64))
       (({ v with tim := { v.tim with ppsBad := 0, ppsSec := some (ppsSecond s t4) } } : State).setBit R.timRefStatus 4 true).setBit
         R.timRefStatus 5 (absLe err (ppsWin s))) := by
  have hused : ∀ {u : State}, SameSource s u → refUsed u true = false := fun hu => (hu.refUsed true).trans h
  have hv : ∀ w, SameSource s (s.setReg R.timPpsErr w) := fun w => (SameSource.refl s).setReg w (by decide) (by decide)
  unfold doPpsInEdge
  rw [if_neg (fun h => h rfl)]
  dsimp only
  rw [hused (hv _)]
  refine (if_neg (by simp)).trans (if_neg ?_)
  rw [hused]
  · decide
  · exact SameSource.setReg (a := R.timRefStatus) (SameSource.setReg (a := R.timRefStatus) (SameSource.setTim (hv _) _) _ (by decide)
      (by decide)) _ (by decide) (by decide)

theorem doPpsWindowMiss_due {n : Nat} (hsec : s.tim.ppsSec = some n) (hused : refUsed s true = true) (hst : 2 ≤ tSt s)
    (hdue : s.dueOk (s.clkOf (((n + 1) * q4 + (ppsWin s).toNat) * 320) + 1) = true) :
    (doPpsWindowMiss s).tim.ppsSec = some (n + 1) ∧ (doPpsWindowMiss s).tim.ppsBad = s.tim.ppsBad + 1 ∧
    (s.tim.ppsBad = 2 → tSt s ≤ 3 → tSt (doPpsWindowMiss s) = 4 ∧ (doPpsWindowMiss s).bit R.timEvtStatus 8 = true) := by
  let v : State := { s.atClk (s.clkOf (((n + 1) * q4 + (ppsWin s).toNat) * 320) + 1) with tim := { s.tim with
    ppsBad := s.tim.ppsBad + 1
    ppsSec := some (n + 1)
    goodSince := none } }
  let w := (v.inc R.timCntPpsBad).setBit R.timRefStatus 5 false
  let x := (w.setBit R.timRefStatus 4 false).evt R.timEvtStatus 8
  have e : doPpsWindowMiss s = if s.tim.ppsBad + 1 = 3 then enterHoldover x else w := by
    unfold doPpsWindowMiss
    rw [hsec]
    exact if_pos ⟨hused, hst, hdue⟩
  have hst' : tSt x = tSt s := tSt_of_reg <| by
    rw [reg_evt_tim _ (by decide) (by decide) (by decide), reg_setBit_ne _ _ _ (by decide), reg_setBit_ne _ _ _ (by decide),
      reg_inc_ne _ _ (by decide)]
    rfl
  have htim : x.tim = v.tim := evt_tim ..
  rw [e]
  by_cases hbad : s.tim.ppsBad + 1 = 3
  · rw [if_pos hbad]
    refine ⟨?_, ?_, fun _ hle => ⟨enterHoldover_tSt (by omega), enterHoldover_event (bit_evt_self _ _ (by decide) (.inr (by decide)))⟩⟩
    · obtain ht | ht := enterHoldover_tim x
      · rw [ht, htim]
      · rw [ht, State.tim0, htim]
    · obtain ht | ht := enterHoldover_tim x
      · rw [ht, htim]
      · rw [ht, State.tim0, htim]
  · rw [if_neg hbad]
    exact ⟨rfl, rfl, fun h => absurd (congrArg (· + 1) h) hbad⟩

/-- A gate's measurement shown: the error, that the input is there, whether it is good. -/
def gateShown (q : Int) (s : State) : State :=
  ((s.setReg R.timRef10mErr (wdI q)).setBit R.timRefStatus 0 true).setBit R.timRefStatus 1
    (absLe q (fld (refCfg s.mapCm 0) 23 16 * 25600 : Nat))

theorem sameSource_gateShown (q : Int) (s : State) : SameSource s (gateShown q s) :=
  (((SameSource.refl s).setReg _ (by decide) (by decide)).setReg _ (by decide) (by decide)).setReg _ (by decide) (by decide)

theorem gateShown_reg (q : Int) (s : State) {a : Nat} (herr : a ≠ R.timRef10mErr) (hst : a ≠ R.timRefStatus) :
    (gateShown q s).reg a = s.reg a := by
  rw [gateShown, reg_setBit_ne _ _ _ hst, reg_setBit_ne _ _ _ hst, reg_setReg_ne _ _ herr]

/-- REF10M_GATE in terms of what it shows. -/
theorem doRef10mGate_eq (q : Int) (s : State) :
    doRef10mGate q s =
      (let ok := absLe q (fld (refCfg s.mapCm 0) 23 16 * 25600 : Nat)
       let u := gateShown q s
       let v := if s.bit R.timRefStatus 1 && !ok then
           (let e := u.evt R.timEvtStatus 7
            if refUsed e false then enterHoldover { e with tim := { e.tim with goodSince := none } } else e)
         else u
       if ok && timSource v == 2 && refSrc v == 3 then offsetSample 0 v else v) := by
  have hwas : (s.setReg R.timRef10mErr (wdI q)).bit R.timRefStatus 1 = s.bit R.timRefStatus 1 := by
    rw [State.bit, State.bit, reg_setReg_ne _ _ (by decide)]
  unfold doRef10mGate
  dsimp only
  rw [hwas]
  rfl

theorem doRef10mGate_measured {q : Int} (h : timSource s ≠ 2) :
    doRef10mGate q s = (let ok := absLe q (fld (refCfg s.mapCm 0) 23 16 * 25600 : Nat)
      if s.bit R.timRefStatus 1 && !ok then (gateShown q s).evt R.timEvtStatus 7 else gateShown q s) := by
  have hno : ∀ {u : State}, SameSource s u → (timSource u == 2) = false := fun hu => by
    rw [hu.timSource]
    exact beq_eq_false_iff_ne.mpr h
  have hu := sameSource_gateShown q s
  rw [doRef10mGate_eq]
  dsimp only
  have hused : refUsed ((gateShown q s).evt R.timEvtStatus 7) false = false := by
    rw [refUsed, hno (hu.evtTim (by decide)), Bool.false_and]
  rw [hused]
  split
  · exact if_neg (by rw [if_neg (by decide), hno (hu.evtTim (by decide))]; simp)
  · exact if_neg (by rw [hno hu]; simp)

theorem doRef10mGate_bad {q : Int} (hused : refUsed s false = true) (hgood : s.bit R.timRefStatus 1 = true)
    (hbad : absLe q (fld (refCfg s.mapCm 0) 23 16 * 25600 : Nat) = false) :
    doRef10mGate q s = (let e := (gateShown q s).evt R.timEvtStatus 7
      enterHoldover { e with tim := { e.tim with goodSince := none } }) := by
  rw [doRef10mGate_eq, hgood, hbad]
  dsimp only
  rw [((sameSource_gateShown q s).evtTim (by decide)).refUsed, hused]
  rfl

/-- A bad 10 MHz reference that disciplined the clock leaves HOLDOVER and its event. -/
theorem doRef10mGate_holdover {q : Int} (hused : refUsed s false = true) (hgood : s.bit R.timRefStatus 1 = true)
    (hst : tSt s = 2 ∨ tSt s = 3) (hbad : absLe q (fld (refCfg s.mapCm 0) 23 16 * 25600 : Nat) = false) :
    tSt (doRef10mGate q s) = 4 ∧ (doRef10mGate q s).bit R.timEvtStatus 7 = true ∧ (doRef10mGate q s).bit R.timRefStatus 1 = false := by
  let e := (gateShown q s).evt R.timEvtStatus 7
  let u : State := { e with tim := { e.tim with goodSince := none } }
  have hst' : tSt u = tSt s := tSt_of_reg (s := s) <|
    (reg_evt_tim _ (by decide) (by decide) (by decide)).trans (gateShown_reg q s (by decide) (by decide))
  have hev : u.bit R.timEvtStatus 7 = true := bit_evt_self (gateShown q s) R.timEvtStatus (by decide) (.inr (by decide))
  have hgone : u.bit R.timRefStatus 1 = false :=
    (bit_evt_tim (gateShown q s) 7 1 (by decide) (by decide) (by decide)).trans <| by
      rw [gateShown, hbad, bit_setBit_self _ _ _ (by decide)]
  rw [doRef10mGate_bad hused hgood hbad]
  refine ⟨enterHoldover_tSt (hst' ▸ hst), enterHoldover_event hev, ?_⟩
  rw [State.bit, enterHoldover_reg _ (by decide) (by decide) (by decide) (by decide) (by decide)]
  exact hgone

/-- The input shown as lost. -/
def lostShown (s : State) : State := ((s.setBit R.timRefStatus 0 false).setBit R.timRefStatus 1 false).evt R.timEvtStatus 7

theorem lostShown_status (s : State) :
    (lostShown s).bit R.timRefStatus 0 = false ∧ (lostShown s).bit R.timRefStatus 1 = false ∧
    (lostShown s).bit R.timEvtStatus 7 = true := by
  refine ⟨?_, ?_, bit_evt_self _ _ (by decide) (.inr (by decide))⟩
  · rw [lostShown, bit_evt_tim _ _ _ (by decide) (by decide) (by decide), bit_setBit_ne _ _ _ (by decide) (by decide),
      bit_setBit_self _ _ _ (by decide)]
  · rw [lostShown, bit_evt_tim _ _ _ (by decide) (by decide) (by decide), bit_setBit_self _ _ _ (by decide)]

theorem sameSource_lostShown (s : State) : SameSource s (lostShown s) :=
  (((SameSource.refl s).setReg _ (by decide) (by decide)).setReg _ (by decide) (by decide)).evtTim (by decide)

theorem lostShown_tSt (s : State) : tSt (lostShown s) = tSt s := tSt_of_reg <| by
  rw [lostShown, reg_evt_tim _ (by decide) (by decide) (by decide), reg_setBit_ne _ _ _ (by decide), reg_setBit_ne _ _ _ (by decide)]

theorem doRef10mLost_up (h : s.bit R.timRefStatus 0 = true) :
    doRef10mLost s = if refUsed s false then
      enterHoldover { lostShown s with tim := { (lostShown s).tim with goodSince := none } } else lostShown s := by
  unfold doRef10mLost
  rw [if_pos h, ← (sameSource_lostShown s).refUsed]
  rfl

theorem doRef10mLost_leaves (h : s.bit R.timRefStatus 0 = true) :
    (doRef10mLost s).bit R.timRefStatus 0 = false ∧ (doRef10mLost s).bit R.timRefStatus 1 = false ∧
    (doRef10mLost s).bit R.timEvtStatus 7 = true ∧ (refUsed s false = true → tSt s = 2 ∨ tSt s = 3 → tSt (doRef10mLost s) = 4) := by
  obtain ⟨h0, h1, hev⟩ := lostShown_status s
  rw [doRef10mLost_up h]
  split
  · have hreg : ∀ i, (enterHoldover { lostShown s with tim := { (lostShown s).tim with goodSince := none } }).bit R.timRefStatus i =
        (lostShown s).bit R.timRefStatus i := fun i =>
      congrArg (fun w : Word => w.toNat.testBit i) (enterHoldover_reg _ (by decide) (by decide) (by decide) (by decide) (by decide))
    exact ⟨(hreg 0).trans h0, (hreg 1).trans h1, enterHoldover_event hev,
      fun _ hst => enterHoldover_tSt (by rw [← lostShown_tSt s] at hst; exact hst)⟩
  · next hused => exact ⟨h0, h1, hev, fun h => absurd h hused⟩

/-- The phase of an edge of the word clock. -/
def wclkPhase (t4 fs : Nat) : Int := rneDiv ((t4 * fs : Nat) * 64 - (((t4 * fs + q4 / 2) / q4) * q4 : Nat) * 64) fs

/-- An edge of the word clock noted: its phase, that the input is there, its time. -/
def wclkNoted (w : Word) (t4 : Nat) (s : State) : State :=
  { (s.setReg R.timWclkPhase w).setBit R.timRefStatus 8 true with tim := { s.tim with wclkLast := some t4 } }

/-- What an edge shows: the phase and the input's presence. -/
structure WclkShown (w : Word) (t4 : Nat) (t : State) : Prop where
  phase : t.reg R.timWclkPhase = w
  here : t.bit R.timRefStatus 8 = true
  last : t.tim.wclkLast = some t4

theorem wclkShown_noted (w : Word) (t4 : Nat) (s : State) : WclkShown w t4 (wclkNoted w t4 s) :=
  ⟨(reg_setBit_ne (s.setReg R.timWclkPhase w) _ _ (by decide)).trans (reg_setReg_self ..),
    bit_setBit_self (s.setReg R.timWclkPhase w) R.timRefStatus true (by decide), rfl⟩

theorem WclkShown.rate {w : Word} {t4 : Nat} {t : State} (h : WclkShown w t4 t) (ok : Bool) :
    WclkShown w t4 (t.setBit R.timRefStatus 9 ok) :=
  ⟨(reg_setBit_ne _ _ _ (by decide)).trans h.phase, (bit_setBit_ne _ _ _ (by decide) (by decide)).trans h.here, h.last⟩

theorem WclkShown.evt {w : Word} {t4 : Nat} {t : State} (h : WclkShown w t4 t) : WclkShown w t4 (t.evt R.timEvtStatus 9) :=
  ⟨(reg_evt_tim _ (by decide) (by decide) (by decide)).trans h.phase,
    (bit_evt_tim _ _ _ (by decide) (by decide) (by decide)).trans h.here, (congrArg TimSt.wclkLast (evt_tim ..)).trans h.last⟩

/-- The edge is noted, and after an earlier one its rate is judged. -/
theorem doWclkInEdge_eq (t4 : Nat) (s : State) :
    doWclkInEdge t4 s = (match s.tim.wclkLast with
      | none => wclkNoted (wdI (wclkPhase t4 s.fs)) t4 s
      | some p =>
        let ok := absLe ((((t4 : Int) - p) * s.fs - q4) * 1000) (((t4 : Int) - p) * s.fs)
        let u := (wclkNoted (wdI (wclkPhase t4 s.fs)) t4 s).setBit R.timRefStatus 9 ok
        if s.bit R.timRefStatus 9 && !ok then u.evt R.timEvtStatus 9 else u) := by
  unfold doWclkInEdge wclkPhase wclkNoted
  rfl

theorem doWclkInEdge_shows (t4 : Nat) (s : State) : WclkShown (wdI (wclkPhase t4 s.fs)) t4 (doWclkInEdge t4 s) := by
  have h := wclkShown_noted (wdI (wclkPhase t4 s.fs)) t4 s
  rw [doWclkInEdge_eq]
  split
  · exact h
  · dsimp only
    split
    · exact (h.rate _).evt
    · exact h.rate _

theorem doWclkLost_due {p : Nat} (hlast : s.tim.wclkLast = some p) (hhere : s.bit R.timRefStatus 8 = true)
    (hdue : s.dueOk (s.clkOf ((p + 4 * q4 / s.fs) * 320) + 1) = true) :
    (doWclkLost s).bit R.timRefStatus 8 = false ∧ (doWclkLost s).tim.wclkLast = none ∧ (doWclkLost s).bit R.timEvtStatus 9 = true ∧
    (doWclkLost s).clk = max s.clk (s.clkOf ((p + 4 * q4 / s.fs) * 320) + 1) := by
  let u := (s.atClk (s.clkOf ((p + 4 * q4 / s.fs) * 320) + 1)).setBit R.timRefStatus 8 false
  have e : doWclkLost s = ({ u with tim := { u.tim with wclkLast := none } } : State).evt R.timEvtStatus 9 := by
    unfold doWclkLost
    rw [hlast]
    exact if_pos (by rw [hhere, hdue]; rfl)
  rw [e]
  refine ⟨?_, congrArg TimSt.wclkLast (evt_tim ..), bit_evt_self _ _ (by decide) (.inr (by decide)), evt_clk ..⟩
  rw [bit_evt_tim _ _ _ (by decide) (by decide) (by decide)]
  exact bit_setBit_self _ _ _ (by decide)

end

/-- A value of TIM_INCR: taken in range while host software owns the register. -/
theorem incrTaken_ite (b : Bool) (v : Nat) (x y : State) :
    (if !b then y else if incrMin ≤ v ∧ v ≤ incrMax then x else y) =
      if b = true ∧ 0xCCCCB1F4DA ≤ v ∧ v ≤ 0xCCCCE7A4C0 then x else y := by
  have hmin : incrMin = 0xCCCCB1F4DA := rfl
  have hmax : incrMax = 0xCCCCE7A4C0 := rfl
  rw [hmin, hmax]
  cases b <;> simp

theorem doTimIncrWrite_eq (val : Word) (s : State) :
    doTimIncrWrite val s = (let v := val.toNat + s.field R.timIncrHi 15 0 * 2 ^ 32
      if s.bit R.timCtrl 0 = true ∧ 0xCCCCB1F4DA ≤ v ∧ v ≤ 0xCCCCE7A4C0 then s.setReg R.timIncrLo val
      else s.evt R.timEvtStatus 12) :=
  incrTaken_ite (s.bit R.timCtrl 0) _ (s.setReg R.timIncrLo val) (s.evt R.timEvtStatus 12)

/-! ### Triggers -/

theorem putTrig_tim (p : Nat) (x : Trig) (late : Bool) (s : State) :
    (putTrig p x late s).tim = { s.tim with trigs := tabSet s.tim.trigs p x } := rfl

theorem putTrig_outbox (p : Nat) (x : Trig) (late : Bool) (s : State) : (putTrig p x late s).outbox = s.outbox := rfl

theorem putTrig_clk (p : Nat) (x : Trig) (late : Bool) (s : State) : (putTrig p x late s).clk = s.clk := rfl

section
variable {pin : Nat} {s : State}

/-- A firing on time drives the pin and counts. -/
theorem fireNow_fires (x : Trig) (s : State) :
    (∃ b, tabGet (fireNow pin x s).tim.trigs pin = some b ∧ b.k = x.k + 1 ∧ b.mode = x.mode ∧
      Out.trig pin b.high ∈ (fireNow pin x s).outbox) ∧ (fireNow pin x s).clk = s.clk := by
  have htim : (fireNow pin x s).tim.trigs = tabSet (((drivePin pin x s).1.inc (trigReg pin 0x10)).tim.trigs) pin
      { (drivePin pin x s).2 with k := x.k + 1 } := congrArg TimSt.trigs (putTrig_tim ..)
  have hout : (fireNow pin x s).outbox = Out.trig pin (drivePin pin x s).2.high :: s.outbox := by
    rw [fireNow, putTrig_outbox, inc_outbox]
    exact edge_outbox ..
  have hclk : (fireNow pin x s).clk = s.clk := by
    rw [fireNow, putTrig_clk, inc_clk]
    exact edge_clk ..
  refine ⟨⟨_, (congrArg (tabGet · pin) htim).trans (tabGet_tabSet_self ..), rfl, rfl, ?_⟩, hclk⟩
  rw [hout]
  exact List.mem_cons_self

theorem doTrigFire_due {x : Trig} (h : tabGet s.tim.trigs pin = some x) (hmode : x.mode ≠ 0) (hspent : x.spent = false)
    (hrun : s.tickRuns = true) (hlate : isLate s pin x = false) (hdue : s.dueOk (trigClk s pin (trigTime s x x.k)) = true) :
    doTrigFire pin s = fireNow pin x (s.atClk (trigClk s pin (trigTime s x x.k))) := by
  unfold doTrigFire
  rw [h]
  exact if_pos ⟨hmode, hspent, hrun, hlate, hdue⟩

theorem doTrigPulseEnd_due {x : Trig} {q : Nat} (h : tabGet s.tim.trigs pin = some x) (hq : x.pulseEnd = some q)
    (hdue : s.dueOk (s.clkOf (q * 320)) = true) :
    doTrigPulseEnd pin s = (let u := (s.atClk (s.clkOf (q * 320))).emit (.trig pin (!x.high))
      putTrig pin { x with pulseEnd := none, high := !x.high } (u.bit (trigReg pin 0) 4) u) := by
  unfold doTrigPulseEnd
  rw [h]
  dsimp only
  rw [hq]
  exact if_pos hdue

theorem doTrigFire_none (h : tabGet s.tim.trigs pin = none) : doTrigFire pin s = s := by
  unfold doTrigFire
  rw [h]

theorem doTrigPulseEnd_none (h : tabGet s.tim.trigs pin = none) : doTrigPulseEnd pin s = s := by
  unfold doTrigPulseEnd
  rw [h]

theorem snapPin_same (p : Nat) (falling : Bool) (s : State) : snapPin p falling s = { s with snp := (snapPin p falling s).snp } := by
  unfold snapPin
  dsimp only
  split <;> rfl

/-- The first edge on a capture input: noted, and captured while the queue has room. -/
theorem doTrigInputEdge_first {t4 e : Nat} {falling : Bool} (hin : tabGet s.tim.inputs pin = some e) (he : e = 2 ∨ e = b2n falling)
    (hlast : tabGet s.tim.lastEdge pin = none) :
    doTrigInputEdge pin t4 falling s =
      (let u := { snapPin pin falling s with tim := { s.tim with lastEdge := tabSet s.tim.lastEdge pin t4 } }
       if 16 ≤ (s.caps pin).length then (u.inc R.timCntCapOvf).evt R.timEvtStatus 11
       else (setCaps u pin (s.caps pin ++ [{ t4 := ((t4 : Int) - pinSkew s pin).toNat, falling := falling }])).edge (352 + pin)) := by
  unfold doTrigInputEdge
  rw [snapPin_same]
  dsimp only
  rw [hin]
  dsimp only
  rw [hlast]
  exact (if_neg Bool.false_ne_true).trans (if_pos he)

theorem doTrigInputEdge_none {t4 : Nat} {falling : Bool} (h : tabGet s.tim.inputs pin = none) :
    doTrigInputEdge pin t4 falling s = snapPin pin falling s := by
  unfold doTrigInputEdge
  rw [snapPin_same]
  dsimp only
  rw [h]

end

/-- Settles O47: PTP, the reference inputs and the triggers, clause by clause from the equations above. -/
theorem timeAndTriggers : Obligations.TimeAndTriggers := by
  unfold Obligations.TimeAndTriggers
  refine ⟨fun m s h => ?_, fun m s h htwo => ?_, fun m s h hone => ?_, fun m s h => ?_, fun m t2 s hf h => ?_, fun m s hserve hdom => ?_,
    fun m s h => ?_, fun m t3 d s hreq hd h hid hport hst => ?_, fun m s h => ?_, fun m s hen hsrc h => ?_, fun m s hsrc => ?_,
    fun p s h => ?_, fun p s h => ?_, fun p s h => ?_, fun p m s hbest hsrc hup => ?_, fun s h => ?_, fun p m due s h hdue => ?_,
    fun p s h => ?_, fun due s h hsrc hdue => ?_, fun s h => ?_, fun t4 falling s h => ?_, fun t4 s hused => ?_,
    fun n s hsec hused hst hdue => ?_, fun s h => ?_, fun q s hsrc => ?_, fun q s hused hgood hst hbad => ?_, fun s h => ?_,
    fun s h => ?_, fun t4 s => ?_, fun p s hlast hhere => ?_, fun s h => ?_, fun s hst hdue => ?_, fun s hst => ?_, fun val s => ?_,
    fun pin a s hx hmode hspent hrun hlate hdue => ?_, fun pin a q s hx hq hdue => ?_, fun pin s h => ?_,
    fun pin t4 falling e s hin he hlast hroom => ?_, fun pin t4 falling e s hin he hlast hfull => ?_, fun pin t4 falling s h => ?_⟩
  · exact gives_of (v := timView (doSyncReceive m s)) rfl (congrArg timView (doSyncReceive_foreign h))
  · refine gives_of (v := timView (doSyncReceive m s)) rfl (congrArg timView ?_)
    exact (if_pos h).trans (if_pos htwo)
  · refine gives_of (v := timView (doSyncReceive m s)) rfl (congrArg timView ?_)
    exact (if_pos h).trans (if_neg (by rw [hone]; decide))
  · exact gives_of (v := timView (doFollowUpReceive m s)) rfl (congrArg timView (doFollowUpReceive_foreign h))
  · exact gives_of (v := timView (doFollowUpReceive m s)) rfl (congrArg timView (doFollowUpReceive_own hf h))
  · refine gives_of (v := doDelayReqReceive m s) rfl (if_pos ?_)
    rw [hserve, hdom]
    simp
  · refine gives_of (v := doDelayReqReceive m s) rfl (if_neg ?_)
    obtain h | h := h
    · rw [h]
      simp
    · rw [beq_eq_false_iff_ne.mpr h]
      simp
  · exact gives_of (v := timView (doDelayRespReceive m s)) rfl
      (congrArg timView ((doDelayRespReceive_own hreq hd h hid hport).trans (pathSample_accepts hst)))
  · exact gives_of (v := timView (doDelayRespReceive m s)) rfl (congrArg timView (doDelayRespReceive_foreign h))
  · refine leaves_of (u := timView (doAnnounceReceive m s)) rfl fun t ht => ?_
    rw [ht.tim, ht.clk, timView_same, doAnnounceReceive_takes hen hsrc h, chooseMaster_tim, chooseMaster_clk]
    exact ⟨rfl, rfl, rfl⟩
  · exact gives_of (v := timView (doAnnounceReceive m s)) rfl (congrArg timView (doAnnounceReceive_gang hsrc))
  · refine leaves_of (u := doSyncTransmit p s) rfl fun t ht => ?_
    obtain ⟨hseq, htick, hsync, hfollow⟩ := doSyncTransmit_sends h
    rw [ht.tim, ht.tick]
    exact ⟨hseq, htick, syncMsg p s, rfl, rfl, mem_settled_out ht hsync, fun htwo => mem_settled_out ht (hfollow htwo)⟩
  · exact ⟨gives_of (v := doSyncTransmit p s) rfl (if_neg (by rw [h]; decide)),
      gives_of (v := doAnnounceTransmit p s) rfl (if_neg (by rw [h]; decide))⟩
  · exact gives_of (v := doAnnounceTransmit p s) rfl (if_pos h)
  · refine gives_of (v := doDelayReqTransmit s) rfl ?_
    unfold doDelayReqTransmit
    rw [hbest]
    exact if_pos ⟨hsrc, hup⟩
  · refine gives_of (v := doDelayReqTransmit s) rfl ?_
    unfold doDelayReqTransmit
    rw [h]
  · refine leaves_of (u := timView (doAnnounceTimeout p s)) rfl fun t ht => ?_
    rw [ht.tim, ht.clk, settled_bitHigh ht (by decide), timView_bit _ _ (by decide), timView_same]
    exact doAnnounceTimeout_due h hdue
  · refine gives_of (v := timView (doAnnounceTimeout p s)) rfl (congrArg timView ?_)
    unfold doAnnounceTimeout
    rw [h]
  · refine leaves_of (u := timView (doSyncTimeout s)) rfl fun t ht => ?_
    rw [ht.tim, settled_tSt ht, settled_bitHigh ht (by decide), timView_bit _ _ (by decide), timView_tSt, timView_same]
    exact doSyncTimeout_due h hsrc hdue
  · refine gives_of (v := timView (doSyncTimeout s)) rfl (congrArg timView ?_)
    unfold doSyncTimeout
    rw [h]
  · exact gives_of (v := timView (doPpsInEdge t4 falling s)) rfl (congrArg timView (if_pos h))
  · intro err
    refine leaves_of (u := timView (doPpsInEdge t4 (bit (refCfg s.mapCm 0) 10) s)) rfl fun t ht => ?_
    rw [ht.tim, settled_regHigh ht (by decide), settled_bitHigh ht (by decide), settled_bitHigh ht (by decide),
      timView_reg _ (by decide), timView_bit _ _ (by decide), timView_bit _ _ (by decide), timView_same, doPpsInEdge_measured hused]
    dsimp only
    rw [reg_setBit_ne _ _ _ (by decide), reg_setBit_ne _ _ _ (by decide), bit_setBit_ne _ _ _ (by decide) (by decide),
      bit_setBit_self _ _ _ (by decide), bit_setBit_self _ _ _ (by decide)]
    exact ⟨reg_setReg_self .., rfl, rfl, rfl⟩
  · refine leaves_of (u := timView (doPpsWindowMiss s)) rfl fun t ht => ?_
    rw [ht.tim, settled_tSt ht, settled_bitHigh ht (by decide), timView_bit _ _ (by decide), timView_tSt, timView_same]
    exact doPpsWindowMiss_due hsec hused hst hdue
  · refine gives_of (v := timView (doPpsWindowMiss s)) rfl (congrArg timView ?_)
    unfold doPpsWindowMiss
    rw [h]
  · exact gives_of (v := timView (doRef10mGate q s)) rfl (congrArg timView (doRef10mGate_measured hsrc))
  · refine leaves_of (u := timView (doRef10mGate q s)) rfl fun t ht => ?_
    rw [settled_tSt ht, settled_bitHigh ht (by decide), settled_bitHigh ht (by decide), timView_bit _ _ (by decide),
      timView_bit _ _ (by decide), timView_tSt]
    exact doRef10mGate_holdover hused hgood hst hbad
  · refine leaves_of (u := timView (doRef10mLost s)) rfl fun t ht => ?_
    rw [settled_tSt ht, settled_bitHigh ht (by decide), settled_bitHigh ht (by decide), settled_bitHigh ht (by decide),
      timView_bit _ _ (by decide), timView_bit _ _ (by decide), timView_bit _ _ (by decide), timView_tSt]
    exact doRef10mLost_leaves h
  · exact gives_of (v := timView (doRef10mLost s)) rfl (congrArg timView (if_neg (by rw [h]; decide)))
  · intro n phase
    refine leaves_of (u := doWclkInEdge t4 s) rfl fun t ht => ?_
    obtain ⟨hphase, hhere, hlast⟩ := doWclkInEdge_shows t4 s
    rw [ht.tim, settled_regHigh ht (by decide), settled_bitHigh ht (by decide)]
    exact ⟨hphase, hhere, hlast⟩
  · intro due hdue
    refine leaves_of (u := doWclkLost s) rfl fun t ht => ?_
    rw [ht.tim, ht.clk, settled_bitHigh ht (by decide), settled_bitHigh ht (by decide)]
    exact doWclkLost_due hlast hhere hdue
  · refine gives_of (v := doWclkLost s) rfl ?_
    unfold doWclkLost
    rw [h]
  · exact gives_of (v := doHoldStore s) rfl (if_pos ⟨hst, hdue⟩)
  · exact gives_of (v := doHoldStore s) rfl (if_neg fun h => hst h.1)
  · exact gives_of (v := doTimIncrWrite val s) rfl (doTimIncrWrite_eq val s)
  · refine leaves_of (u := doTrigFire pin s) rfl fun t ht => ?_
    obtain ⟨⟨b, hb, hk, hmode', hout⟩, hclk⟩ := fireNow_fires a (s.atClk (trigClk s pin (trigTime s a a.k)))
    have e := doTrigFire_due hx hmode hspent hrun hlate hdue
    rw [ht.tim, ht.clk, e]
    exact ⟨⟨b, hb, hk, hmode', mem_settled_out ht (e ▸ hout)⟩, hclk⟩
  · refine leaves_of (u := doTrigPulseEnd pin s) rfl fun t ht => ?_
    have e := doTrigPulseEnd_due hx hq hdue
    rw [ht.tim, e]
    refine ⟨(congrArg (fun x : TimSt => tabGet x.trigs pin) (putTrig_tim ..)).trans (tabGet_tabSet_self ..), mem_settled_out ht ?_⟩
    rw [e]
    exact List.mem_cons_self
  · exact ⟨gives_of (v := doTrigFire pin s) rfl (doTrigFire_none h), gives_of (v := doTrigPulseEnd pin s) rfl (doTrigPulseEnd_none h)⟩
  · refine leaves_of (u := doTrigInputEdge pin t4 falling s) rfl fun t ht => ?_
    have e := (doTrigInputEdge_first (t4 := t4) hin he hlast).trans (if_neg (Nat.not_le.mpr hroom))
    rw [State.caps, ht.tim, e, edge_tim]
    exact ⟨tabGetD_tabSet_self .., tabGet_tabSet_self ..⟩
  · refine leaves_of (u := doTrigInputEdge pin t4 falling s) rfl fun t ht => ?_
    have e := (doTrigInputEdge_first (t4 := t4) hin he hlast).trans (if_pos hfull)
    rw [State.caps, ht.tim, settled_bitHigh ht (by decide), e, evt_tim]
    exact ⟨rfl, bit_evt_self _ _ (by decide) (.inr (by decide))⟩
  · exact gives_of (v := doTrigInputEdge pin t4 falling s) rfl (doTrigInputEdge_none h)

end Sys2Proof.Machine
end

section
/-! PROOFS. The tick (R19, R20, R104, R362): boundary, admission pass, egress block, sample release. Obligation O48. -/

namespace Sys2Proof.Machine

open Sys2Proof.Claims

section
variable {s : State}

theorem doTickBoundary_runs (x : TickIn) (hd : s.dieRuns = true) (hrun : s.tickRuns = true) :
    doTickBoundary x s = boundaryWork x (s.tick + 1) (s.atClk s.tickEnd) :=
  (if_neg (by rw [hd]; decide)).trans (if_pos hrun)

/-- The boundary of tick `t` leaves tick `t`, its admission pass to come. -/
theorem boundaryWork_starts (x : TickIn) (t : Nat) (s : State) :
    (boundaryWork x t s).tick = t ∧ (boundaryWork x t s).cmd.passDone = false := ⟨rfl, rfl⟩

theorem doAdmissionPass_runs (hrun : s.tickRuns = true) (hpass : s.cmd.passDone = false) (hdue : s.dueOk (s.tickClk + 500000) = true)
    (hfol : isFollower s = false) :
    doAdmissionPass s =
      (let u := s.atClk (s.tickClk + 500000)
       let v := if passBlocked s then (dueTxns s (s.tick + 1)).foldl (fun (w : State) x =>
           w.putTxn { x with phase := .refused, boundary := s.tick + 1, verdict := { status := stBadState } }) u
         else (((dueTxns s (s.tick + 1)).take passMax).foldl (passOne (s.tick + 1) u) (u, u)).1
       { v with cmd := { v.cmd with passDone := true } }) := by
  have hfol' : isFollower (s.atClk (s.tickClk + 500000)) = false := hfol
  unfold doAdmissionPass
  dsimp only
  rw [hrun, hpass, hdue, hfol', if_pos (by decide)]
  rfl

theorem doAdmissionPass_done (h : s.cmd.passDone = true) : doAdmissionPass s = s := if_neg (by rw [h]; simp)

theorem doEgressBlockComplete_shows (hd : s.dieRuns = true) (hrun : s.tickRuns = true) (hpos : 1 ≤ s.tick) (hopen : egressDone s = false)
    (hdue : s.dueOk (sampleClk s (s.tick * s.blockLen + egressSamples s : Nat)).toNat = true) :
    ∃ u : State, doEgressBlockComplete s =
      (u.setNat R.strBlkEpoch (u.cmAt (s.tick - 1)).epoch).setNat64 R.strBlkTickLo (s.tick - 1) := by
  refine ⟨_, if_pos ?_⟩
  rw [hd, hrun, decide_eq_true hpos, hopen, hdue]
  rfl

theorem doEgressBlockComplete_done (h : egressDone s = true) : doEgressBlockComplete s = s := if_neg (by rw [h]; simp)

theorem doSampleRelease_next (din : List (Nat × Word)) (hrun : s.tickRuns = true) (hlt : s.str.relT < (s.tick + 1) * s.blockLen) :
    doSampleRelease din s = releaseOne din (s.atClk (sampleClk s s.str.relT).toNat) :=
  if_pos (by rw [hrun, decide_eq_true hlt]; rfl)

end

/-- Which state governs a block is no matter of registers. -/
theorem cmAt_of {s t : State} (hcm : t.cm = s.cm) (hhist : t.hist = s.hist) (b : Nat) : t.cmAt b = s.cmAt b := by
  rw [State.cmAt, State.cmAt, hcm, hhist]

/-- Settles O48: the guard of each command of the tick, and the state its branch leaves. -/
theorem tickWork : Obligations.TickWork := by
  unfold Obligations.TickWork
  refine ⟨fun x s hd hrun => ?_, fun x s hd => ?_, fun x s hd hrun hrestart => ?_, fun s hrun hpass hdue hfol hnone => ?_,
    fun s a hrun hpass hdue hfol hone hblock => ?_, fun s h => ?_, fun s hd hrun hpos hopen hdue => ?_, fun s h => ?_,
    fun din s hrun hlt => ?_, fun din s hle => ?_⟩
  · refine leaves_of (u := doTickBoundary x s) rfl fun t ht => ?_
    rw [ht.tick, ht.cmd, doTickBoundary_runs x hd hrun]
    exact boundaryWork_starts ..
  · exact gives_of (v := doTickBoundary x s) rfl (if_pos (by rw [hd]; decide))
  · refine gives_of (v := doTickBoundary x s) rfl ((if_neg (by rw [hd]; decide)).trans ((if_neg ?_).trans (if_neg ?_)))
    · rw [hrun]
      decide
    · rw [hrestart]
      decide
  · refine gives_of (v := doAdmissionPass s) rfl ((doAdmissionPass_runs hrun hpass hdue hfol).trans ?_)
    rw [hnone]
    cases passBlocked s <;> rfl
  · refine gives_of (v := doAdmissionPass s) rfl ((doAdmissionPass_runs hrun hpass hdue hfol).trans ?_)
    rw [hone, hblock]
    rfl
  · exact gives_of (v := doAdmissionPass s) rfl (doAdmissionPass_done h)
  · refine leaves_of (u := doEgressBlockComplete s) rfl fun t ht => ?_
    obtain ⟨u, hu⟩ := doEgressBlockComplete_shows hd hrun hpos hopen hdue
    have hcm : t.cmAt (s.tick - 1) = u.cmAt (s.tick - 1) :=
      cmAt_of (ht.cm.trans (congrArg State.cm hu)) (ht.hist.trans (congrArg State.hist hu)) _
    rw [settled_regHigh ht (by decide), settled_regHigh ht (by decide), settled_regHigh ht (by decide), hcm, hu, State.setNat64,
      reg_setNat_ne _ _ (by decide), reg_setNat_ne _ _ (by decide), reg_setNat_self, reg_setNat_ne _ _ (by decide), reg_setNat_self,
      reg_setNat_self]
    exact ⟨rfl, rfl, rfl⟩
  · exact gives_of (v := doEgressBlockComplete s) rfl (doEgressBlockComplete_done h)
  · refine leaves_of (u := doSampleRelease din s) rfl fun t ht => ?_
    rw [ht.str, doSampleRelease_next din hrun hlt]
    rfl
  · exact gives_of (v := doSampleRelease din s) rfl (if_neg (by rw [decide_eq_false (Nat.not_lt.mpr hle)]; simp))

end Sys2Proof.Machine
end

section
/-! PROOFS. Receive streams (R351 to R359, R426, R457): packets, cut-offs, margins, mutes and fades. Obligation O49. -/

namespace Sys2Proof.Machine

open Sys2Proof.Claims

/-! ### Slots -/

theorem le_rxReg (slot off : Nat) : 0x30000 ≤ rxReg slot off := by
  unfold rxReg R.strRx
  omega

theorem rxReg_ne {slot a b : Nat} (h : a ≠ b) : rxReg slot a ≠ rxReg slot b := by
  unfold rxReg
  omega

theorem rxReg_ne_strEvtStatus (slot off : Nat) : rxReg slot off ≠ R.strEvtStatus := by
  unfold rxReg R.strRx R.strEvtStatus
  omega

theorem reg_strEvt_rx (s : State) (b slot off : Nat) (hb : b < 32) : (strEvt s b).reg (rxReg slot off) = s.reg (rxReg slot off) :=
  reg_evt_ne s _ hb (rxReg_ne_strEvtStatus slot off) (.inr ((by decide : 0x20140 ≤ 0x30000).trans (le_rxReg ..)))

theorem rxs_of_rx {s t : State} (h : t.str.rx = s.str.rx) (slot : Nat) : t.rxs slot = s.rxs slot := by rw [State.rxs, State.rxs, h]

/-- A slot reads the streams put into it. -/
theorem rxs_setRxs (s : State) (slot : Nat) (l : List RxRt) : (s.setRxs slot l).rxs slot = l := by
  cases l with
  | nil =>
    show tabGetD (tabDel s.str.rx slot) slot [] = []
    rw [tabGetD, tabGet_tabDel_self]
    rfl
  | cons r l => exact tabGetD_tabSet_self ..

/-! ### Cut-offs and deadlines -/

section
variable {slot seq : Nat} {s : State} {r : RxRt}

theorem doPacketCutoff_alone {due : Nat} (hr : rxNewest s slot s.tick = some r) (hcut : cutDue s r seq = some due) (hstop : r.stop = none)
    (hseq : seq < 65536) (hdec : r.decided.contains seq = false) (hdue : s.dueOk due = true) (hpair : (inPair s && partnerUp s) = false) :
    doPacketCutoff slot seq s =
      (let u := (s.atClk due).putRx slot { r with decided := (seq :: r.decided).take 256 }
       if (r.pkts.find? fun p => p.seq == seq && !p.late).isSome then u.inc (rxReg slot 4) else countLost u slot) := by
  have hpair' : (inPair (s.atClk due) && partnerUp (s.atClk due)) = false := hpair
  have hguard : r.stop.isNone = true ∧ seq < 65536 ∧ r.decided.contains seq = false ∧ s.dueOk due = true :=
    ⟨by rw [hstop]; rfl, hseq, hdec, hdue⟩
  unfold doPacketCutoff
  rw [hr]
  dsimp only
  rw [hcut, Option.getD_some, hpair', if_pos hguard]
  rfl

theorem doPacketCutoff_decided (hr : rxNewest s slot s.tick = some r) (hdec : r.decided.contains seq = true) :
    doPacketCutoff slot seq s = s := by
  unfold doPacketCutoff
  rw [hr]
  refine if_neg fun ⟨_, _, h, _⟩ => ?_
  rw [hdec] at h
  exact Bool.false_ne_true h.symm

theorem doFillDeadline_open {p : RxPkt} (hr : rxNewest s slot s.tick = some r) (hwait : r.waits.contains seq = true)
    (hp : r.pkts.find? (fun p => p.seq == seq) = some p) (hdue : s.dueOk (sampleClk s (p.t + rxLo r.d0)).toNat = true) :
    doFillDeadline slot seq s =
      ((s.atClk (sampleClk s (p.t + rxLo r.d0)).toNat).putRx slot (closeWait r seq)).inc R.mirCntFillTo := by
  unfold doFillDeadline
  rw [hr]
  dsimp only
  rw [hp]
  exact if_pos (by rw [hwait, hdue]; rfl)

theorem doFillDeadline_closed (hr : rxNewest s slot s.tick = some r) (hwait : r.waits.contains seq = false) :
    doFillDeadline slot seq s = s := by
  unfold doFillDeadline
  rw [hr]
  exact if_neg (by rw [hwait]; simp)

end

/-! ### Margins -/

/-- Publishing a margin leaves the tick and the window's tick. -/
theorem publishMargin_keeps (s : State) (slot : Nat) (r : RxRt) :
    (publishMargin s slot r).str.winTick = s.str.winTick ∧ (publishMargin s slot r).tick = s.tick := by
  unfold publishMargin
  dsimp only
  split
  · exact ⟨rfl, rfl⟩
  · split
    · exact ⟨(congrArg StrSt.winTick (evt_str _ R.strEvtStatus 6) :), evt_tick _ R.strEvtStatus 6⟩
    · exact ⟨rfl, rfl⟩

/-- What is published of a slot that took packets: the least margin, the mean, and the warning. -/
theorem publishMargin_shows {s : State} (slot : Nat) {r : RxRt} (h : r.mCnt ≠ 0) :
    (publishMargin s slot r).reg (rxReg slot 0x2C) = wdI r.mMin ∧
    (publishMargin s slot r).reg (rxReg slot 0x30) = wdI (rneDiv r.mSum r.mCnt) ∧
    (r.mMin < (s.regNat R.strMarginWarn : Int) → (publishMargin s slot r).bit R.strEvtStatus 6 = true) := by
  have key : ∀ v : State, let u := (v.setReg (rxReg slot 0x2C) (wdI r.mMin)).setReg (rxReg slot 0x30) (wdI (rneDiv r.mSum r.mCnt))
      u.reg (rxReg slot 0x2C) = wdI r.mMin ∧ u.reg (rxReg slot 0x30) = wdI (rneDiv r.mSum r.mCnt) := fun v =>
    ⟨(reg_setReg_ne _ _ (rxReg_ne (by decide))).trans (reg_setReg_self ..), reg_setReg_self ..⟩
  unfold publishMargin
  dsimp only
  rw [if_neg h]
  split
  · rw [reg_strEvt_rx _ _ _ _ (by decide), reg_strEvt_rx _ _ _ _ (by decide)]
    obtain ⟨hmin, hmean⟩ := key _
    exact ⟨hmin, hmean, fun _ => bit_evt_self _ _ (by decide) (.inr (by decide))⟩
  · next hwarn =>
    obtain ⟨hmin, hmean⟩ := key _
    exact ⟨hmin, hmean, fun hlt => absurd hlt hwarn⟩

theorem doMarginWindowEnd_due {s : State} (h150 : s.tick % 150 = 0) (hlt : s.str.winTick < s.tick) :
    doMarginWindowEnd s = s.str.rx.foldl (fun s (e : Nat × List RxRt) => e.2.foldl (fun s r => publishMargin s e.1 r) s)
      { s with str := { s.str with winTick := s.tick } } := if_pos ⟨h150, hlt⟩

theorem doMarginWindowEnd_keeps {s : State} (h150 : s.tick % 150 = 0) (hlt : s.str.winTick < s.tick) :
    (doMarginWindowEnd s).str.winTick = s.tick ∧ (doMarginWindowEnd s).tick = s.tick := by
  rw [doMarginWindowEnd_due h150 hlt]
  refine foldl_keeps (P := fun u : State => u.str.winTick = s.tick ∧ u.tick = s.tick) _ (fun u e _ hu => ?_) ⟨rfl, rfl⟩
  refine foldl_keeps (P := fun u : State => u.str.winTick = s.tick ∧ u.tick = s.tick) _ (fun v r _ ⟨hwin, htick⟩ => ?_) hu
  obtain ⟨hwin', htick'⟩ := publishMargin_keeps v e.1 r
  exact ⟨hwin'.trans hwin, htick'.trans htick⟩

/-! ### Mutes and fades -/

theorem doBurstMuteEnd_past {ch : Nat} {b : BurstSt} {s : State} (hb : burstOf s ch = some b) (hm : b.muted = true) (hw : b.want = 0)
    (hlast : b.last + 8193 < s.str.relT) : doBurstMuteEnd ch s = putBurst s ch { b with muted := false, w := 0 } := by
  have hlast' : b.last + 8193 < s.str.relT := hlast
  unfold doBurstMuteEnd
  rw [hb]
  dsimp only
  rw [if_neg, if_pos]
  · rw [hm, hw, decide_eq_true hlast']
    rfl
  · rw [decide_eq_false (Nat.not_le.mpr hlast')]
    simp

theorem doBurstMuteEnd_heard {ch : Nat} {b : BurstSt} {s : State} (hb : burstOf s ch = some b) (hm : b.muted = false) :
    doBurstMuteEnd ch s = s := by
  unfold doBurstMuteEnd
  rw [hb]
  dsimp only
  rw [hm]
  rfl

/-- Firmware traffic leaves the receive streams. -/
theorem txQueue_rx (s : State) (p cls : Nat) (f : List Byte) : (txQueue s p cls f).str.rx = s.str.rx := by
  unfold txQueue
  dsimp only
  split
  · exact congrArg StrSt.rx (evt_str ..)
  · rfl

theorem fwFrame_rx (s : State) (p dst etype : Nat) (body : List Byte) : (fwFrame s p dst etype body).str.rx = s.str.rx :=
  txQueue_rx s p 0 _

/-- A membership report is a frame of the firmware's, or nothing. -/
theorem igmpReport_sends (s : State) (p : Nat) (recs : List (Nat × Nat × List Nat)) :
    igmpReport s p recs = s ∨ ∃ dst body, igmpReport s p recs = fwFrame s p dst 0x0800 body := by
  by_cases h : recs.isEmpty = true
  · exact .inl (if_pos h)
  · exact .inr ⟨_, _, if_neg h⟩

theorem igmpReport_rx (s : State) (p : Nat) (recs : List (Nat × Nat × List Nat)) : (igmpReport s p recs).str.rx = s.str.rx := by
  obtain h | ⟨dst, body, h⟩ := igmpReport_sends s p recs
  · rw [h]
  · rw [h, fwFrame_rx]

theorem rxLeaves_rx (old : List (Nat × Nat × Option Nat)) (s : State) : (rxLeaves old s).str.rx = s.str.rx :=
  foldl_keeps (P := fun u : State => u.str.rx = s.str.rx) _ (fun u p _ hu => (igmpReport_rx u p _).trans hu) rfl

theorem bufRegs_rx (s : State) : (bufRegs s).str.rx = s.str.rx := rfl

theorem gone_isEmpty (l : List RxRt) (s : State) : (l.filter (rxFaded s)).isEmpty = !l.any (rxFaded s) := by
  rw [Bool.eq_iff_iff, List.isEmpty_iff, List.filter_eq_nil_iff, Bool.not_eq_true', List.any_eq_false]

theorem doStrRxFadeEnd_over {slot : Nat} {s : State} (h : (s.rxs slot).any (rxFaded s) = true) :
    (doStrRxFadeEnd slot s).rxs slot = (s.rxs slot).filter fun r => !rxFaded s r := by
  unfold doStrRxFadeEnd
  dsimp only
  rw [gone_isEmpty, h, if_neg (by decide)]
  rw [rxs_of_rx ((bufRegs_rx _).trans (rxLeaves_rx _ _)), rxs_setRxs]

theorem doStrRxFadeEnd_none {slot : Nat} {s : State} (h : (s.rxs slot).any (rxFaded s) = false) : doStrRxFadeEnd slot s = s := by
  unfold doStrRxFadeEnd
  dsimp only
  rw [gone_isEmpty, h]
  rfl

/-! ### Packets -/

section
variable {slot : Nat} {r : RxRt} {red : Bool} {x : Rtp} {s : State}

/-- A packet after its cut-off counts as late. -/
theorem placePacket_late (h : sampleClk s (cutOff s r.d0 (extendTs (sampleNow s) x.ts)) < (s.clk : Int)) :
    ∃ r', placePacket slot r red x s = (((s.putRx slot r').inc (rxReg slot 0xC)).evt R.strEvtStatus 1).inc R.strCntLate := by
  unfold placePacket
  dsimp only
  exact ⟨_, (if_pos h).trans rfl⟩

/-- One too early for the buffer counts as early. -/
theorem placePacket_early (h : (s.clk : Int) ≤ sampleClk s (cutOff s r.d0 (extendTs (sampleNow s) x.ts)))
    (hbuf : (s.t1280 * s.fs : Int) + (rxBuf s r.d0 - descS s r.d0 : Nat) * 1280000000000 <
      (extendTs (sampleNow s) x.ts + rxLo r.d0) * 1280000000000) :
    ∃ r', placePacket slot r red x s = ((s.putRx slot r').inc (rxReg slot 0x14)).evt R.strEvtStatus 2 := by
  unfold placePacket
  dsimp only
  exact ⟨_, ((if_neg (Int.not_lt.mpr h)).trans (if_pos hbuf)).trans rfl⟩

end

/-- The stream of a slot after a new packet in time: its margin noted, its samples kept, its SSRC the packet's. -/
def keptOf (s : State) (r : RxRt) (red : Bool) (x : Rtp) : RxRt :=
  let t := extendTs (sampleNow s) x.ts
  let q : RxPkt :=
    { seq := x.seq
      t := t
      s := descS s r.d0
      red := red
      blue := !red
      samples := rowsOf r.d0 (descS s r.d0) x.body
      pay := x.body }
  { noteMargin { r with seen := if red then (true, r.seen.2) else (r.seen.1, true) }
      (((cutOff s r.d0 t) * 1280000000000 / s.fs - s.t1280) / 1280) with
    pkts := prune s.str.relT r.d0 (q :: r.pkts)
    ssrc := some x.ssrc }

/-- The packet is of another source than the stream's packets before it. -/
def otherSource (r : RxRt) (x : Rtp) : Bool := match r.ssrc with
  | some v => v != x.ssrc
  | none => false

theorem otherSource_iff (r : RxRt) (x : Rtp) : otherSource r x = true ↔ ∃ v, r.ssrc = some v ∧ v ≠ x.ssrc := by
  unfold otherSource
  cases r.ssrc with
  | none => simp
  | some v => simp

/-- A new packet in time: kept, its SSRC shown, a change of SSRC counted. -/
theorem placePacket_kept {slot : Nat} {r : RxRt} {red : Bool} {x : Rtp} {s : State}
    (h : (s.clk : Int) ≤ sampleClk s (cutOff s r.d0 (extendTs (sampleNow s) x.ts)))
    (hbuf : (extendTs (sampleNow s) x.ts + rxLo r.d0) * 1280000000000 ≤
      (s.t1280 * s.fs : Int) + (rxBuf s r.d0 - descS s r.d0 : Nat) * 1280000000000)
    (hnew : r.pkts.find? (fun p => p.seq == x.seq) = none) :
    placePacket slot r red x s =
      (let u := (s.putRx slot (keptOf s r red x)).setReg (rxReg slot 0x28) (wd x.ssrc)
       if otherSource r x then (u.inc (rxReg slot 0x24)).evt R.strEvtStatus 4 else u) := by
  unfold placePacket
  dsimp only
  rw [hnew]
  exact (if_neg (Int.not_lt.mpr h)).trans (if_neg (Int.not_lt.mpr hbuf))

section
variable {port : Nat} {d : Dgram} {s : State}

theorem doStreamPacket_off (h : (portUp s port && portEn s port && d.ok) = false) : doStreamPacket port d s = s := by
  unfold doStreamPacket
  rw [h]
  rfl

theorem doStreamPacket_other (h : legMatch s port d.srcIp d.dstIp d.dstUdp = none) : doStreamPacket port d s = s := by
  unfold doStreamPacket
  split
  · rfl
  · rw [h]

/-- The packet is of the stream's version, payload type and size. -/
def wellFormed (s : State) (r : RxRt) (d : Dgram) : Prop :=
  (rtpOf d.payload).ver = 2 ∧ (rtpOf d.payload).pt = fld (wAt r.d0 1) 6 0 ∧ 12 ≤ d.payload.length ∧
    (rtpOf d.payload).body.length = descCh r.d0 * descS s r.d0 * fmtBytes (descFmt r.d0)

theorem doStreamPacket_malformed {slot start : Nat} {red : Bool} {r : RxRt} (hon : (portUp s port && portEn s port && d.ok) = true)
    (hleg : legMatch s port d.srcIp d.dstIp d.dstUdp = some (slot, start, red)) (hr : s.rxAt slot start = some r)
    (h : ¬ wellFormed s r d) : doStreamPacket port d s = (s.inc (rxReg slot 0x18)).evt R.strEvtStatus 3 := by
  unfold doStreamPacket
  rw [hon, hleg]
  dsimp only
  rw [hr]
  exact if_neg h

theorem doStreamPacket_places {slot start : Nat} {red : Bool} {r : RxRt} (hon : (portUp s port && portEn s port && d.ok) = true)
    (hleg : legMatch s port d.srcIp d.dstIp d.dstUdp = some (slot, start, red)) (hr : s.rxAt slot start = some r)
    (h : wellFormed s r d) : doStreamPacket port d s = placePacket slot r red (rtpOf d.payload) s := by
  unfold doStreamPacket
  rw [hon, hleg]
  dsimp only
  rw [hr]
  exact if_pos h

end

/-- Settles O49: the deadlines of a slot and the fate of a packet, each by the branch its premises choose. -/
theorem streamPacketsAndDeadlines : Obligations.StreamPacketsAndDeadlines := by
  unfold Obligations.StreamPacketsAndDeadlines
  refine ⟨fun slot seq r due s hr hcut hstop hseq hdec hdue hpair => ?_, fun slot seq r s hr hdec => ?_,
    fun slot seq r p s hr hwait hp => ?_, fun slot seq r s hr hwait => ?_, fun s h150 hlt => ?_,
    fun slot r s h150 hlt hslot hrx hcnt => ?_, fun s h => ?_, fun ch b s hb hm hw hlast => ?_, fun ch b s hb hm => ?_,
    fun slot s h => ?_, fun slot s h => ?_, fun port d s h => ?_, fun port d s h => ?_,
    fun port d slot start red r s hon hleg hr h => ?_, fun port d slot start red r s hon hleg hr => ?_⟩
  · intro u
    have e := doPacketCutoff_alone hr hcut hstop hseq hdec hdue hpair
    refine ⟨fun p hp => gives_of (v := doPacketCutoff slot seq s) rfl (e.trans ?_),
      fun hp => gives_of (v := doPacketCutoff slot seq s) rfl (e.trans ?_)⟩
    · rw [hp]
      rfl
    · rw [hp]
      rfl
  · exact gives_of (v := doPacketCutoff slot seq s) rfl (doPacketCutoff_decided hr hdec)
  · intro due hdue
    exact gives_of (v := doFillDeadline slot seq s) rfl (doFillDeadline_open hr hwait hp hdue)
  · exact gives_of (v := doFillDeadline slot seq s) rfl (doFillDeadline_closed hr hwait)
  · refine leaves_of (u := doMarginWindowEnd s) rfl fun t ht => ?_
    rw [ht.str, ht.tick]
    exact doMarginWindowEnd_keeps h150 hlt
  · refine leaves_of (u := doMarginWindowEnd s) rfl fun t ht => ?_
    rw [settled_regHigh ht (le_rxReg ..), settled_regHigh ht (le_rxReg ..), settled_bitHigh ht (by decide),
      doMarginWindowEnd_due h150 hlt, hrx]
    exact publishMargin_shows (s := { s with str := { s.str with winTick := s.tick } }) slot hcnt
  · refine gives_of (v := doMarginWindowEnd s) rfl (if_neg fun ⟨h150, hlt⟩ => ?_)
    omega
  · exact gives_of (v := doBurstMuteEnd ch s) rfl (doBurstMuteEnd_past hb hm hw hlast)
  · exact gives_of (v := doBurstMuteEnd ch s) rfl (doBurstMuteEnd_heard hb hm)
  · refine leaves_of (u := doStrRxFadeEnd slot s) rfl fun t ht => ?_
    rw [rxs_of_rx (congrArg StrSt.rx ht.str)]
    exact doStrRxFadeEnd_over h
  · exact gives_of (v := doStrRxFadeEnd slot s) rfl (doStrRxFadeEnd_none h)
  · exact gives_of (v := doStreamPacket port d s) rfl (doStreamPacket_off h)
  · exact gives_of (v := doStreamPacket port d s) rfl (doStreamPacket_other h)
  · refine gives_of (v := doStreamPacket port d s) rfl (doStreamPacket_malformed hon hleg hr fun ⟨hver, hpt, hlen, hbody⟩ => ?_)
    obtain h | h | h | h := h
    · exact h hver
    · exact h hpt
    · exact absurd hlen (Nat.not_le.mpr h)
    · exact h hbody
  · intro x t hver hpt hlen hbody
    have e := doStreamPacket_places hon hleg hr ⟨hver, hpt, hlen, hbody⟩
    refine ⟨fun hcut => ?_, fun hcut hbuf => ?_, fun hcut hbuf hnew => ?_⟩
    · obtain ⟨r', h'⟩ := placePacket_late (slot := slot) (red := red) hcut
      exact ⟨r', gives_of (v := doStreamPacket port d s) rfl (e.trans h')⟩
    · obtain ⟨r', h'⟩ := placePacket_early (slot := slot) (red := red) hcut hbuf
      exact ⟨r', gives_of (v := doStreamPacket port d s) rfl (e.trans h')⟩
    · have e' := e.trans (placePacket_kept (slot := slot) (red := red) hcut hbuf hnew)
      refine ⟨keptOf s r red x, rfl, rfl, fun hold => gives_of (v := doStreamPacket port d s) rfl (e'.trans (if_neg ?_)),
        fun v hv hne => gives_of (v := doStreamPacket port d s) rfl (e'.trans (if_pos ((otherSource_iff r x).mpr ⟨v, hv, hne⟩)))⟩
      rw [otherSource_iff]
      rintro ⟨v, hv, hne⟩
      obtain hnone | hsome := hold
      · exact absurd (hnone.symm.trans hv) (by simp)
      · exact hne (Option.some.inj (hv.symm.trans hsome))

end Sys2Proof.Machine
end

section
/-! PROOFS. The render path (R69, R84, R113, R149, R152, R554): ends of fades, switches and holds. Obligation O50. -/

namespace Sys2Proof.Machine

open Sys2Proof.Claims

@[simp] theorem rt_setRt (s : State) (o : Nat) (r : ObjRt) : (s.setRt o r).rt o = r := tabGetD_tabSet_self ..

@[simp] theorem cor_setCor (s : State) (o : Nat) (r : CorRt) : (s.setCor o r).cor o = r := tabGetD_tabSet_self ..

theorem rt_of_geo {s t : State} (h : t.geo = s.geo) (o : Nat) : t.rt o = s.rt o := by rw [State.rt, State.rt, h]

theorem cor_of_cors {s t : State} (h : t.cors = s.cors) (o : Nat) : t.cor o = s.cor o := by rw [State.cor, State.cor, h]

section
variable {s : State}

/-! ### Priming -/

/-- A primed well is noted and raises its event; the recovery hold may end. -/
theorem doWellPrimed_primes {obj : Nat} {w : Well} (hw : tabGet (s.cmAt s.tick).wells obj = some w) (hle : w.birth ≤ s.tick)
    (hnew : primedAt (s.rt obj) w.birth = none) (hclear : clearOfBirth s obj s.tick w = true) :
    ((doWellPrimed obj s).rt obj).primed = ((w.birth, s.tick) :: (s.rt obj).primed).take 3 ∧
    (doWellPrimed obj s).bit R.pmpEvtStatus 1 = true ∧ (doWellPrimed obj s).tick = s.tick := by
  have key : ∀ r : ObjRt, let v := (s.setRt obj r).evt R.pmpEvtStatus 1
      (v.rt obj).primed = r.primed ∧ v.bit R.pmpEvtStatus 1 = true ∧ v.tick = s.tick := fun r => by
    refine ⟨?_, bit_evt_self _ _ (by decide) (.inr (by decide)), evt_tick ..⟩
    rw [rt_of_geo (evt_geo _ R.pmpEvtStatus 1), rt_setRt]
  have hguard : w.birth ≤ s.tick ∧ (primedAt (s.rt obj) w.birth).isNone = true ∧ clearOfBirth s obj s.tick w = true :=
    ⟨hle, by rw [hnew]; rfl, hclear⟩
  unfold doWellPrimed
  dsimp only
  rw [hw]
  dsimp only
  rw [if_pos hguard]
  split
  · exact key _
  · exact key _

theorem doWellPrimed_none {obj : Nat} (hw : tabGet (s.cmAt s.tick).wells obj = none) : doWellPrimed obj s = s := by
  unfold doWellPrimed
  dsimp only
  rw [hw]

/-! ### Paths -/

theorem doRouteFadeEnd_plain {obj out : Nat} (h : ∀ l ∈ s.geo.legs, l.obj = obj → l.out = out → l.kind = .plain) :
    doRouteFadeEnd obj out s = s := by
  refine if_neg ?_
  rw [Bool.not_eq_true, List.any_eq_false]
  intro l hl hdone
  simp only [Bool.and_eq_true, beq_iff_eq, bne_iff_ne] at hdone
  obtain ⟨⟨⟨hobj, hout⟩, hkind⟩, _⟩ := hdone
  exact hkind (h l hl hobj hout)

theorem doObjOffRampEnd_holds {obj : Nat} {rule : Rule} {r : Ramp} (hrule : (s.rt obj).rule ≠ 0) (hheld : (s.rt obj).held = false)
    (hget : tabGet s.geo.rules (s.rt obj).rule = some rule) (hoff : rule.off = some r) (hover : r.start + r.len ≤ s.tick + 3) :
    doObjOffRampEnd obj s = (s.setRt obj { s.rt obj with held := true }).setLegs (s.geo.legs.map fun l =>
      if l.obj == obj && l.rule == (s.rt obj).rule && l.hold.isNone then { l with hold := some (l.lastDelay, 0) } else l) := by
  have hguard : ¬ ((s.rt obj).rule = 0 ∨ (s.rt obj).held = true) := by
    rintro (h | h)
    · exact hrule h
    · exact Bool.false_ne_true (hheld.symm.trans h)
  unfold doObjOffRampEnd
  dsimp only
  rw [if_neg hguard, hget, Option.bind_some, hoff]
  exact if_pos hover

/-- Every path of the object under its rule is then held. -/
theorem held_legs (legs : List Leg) (obj rule : Nat) {l : Leg}
    (hl : l ∈ legs.map fun l => if l.obj == obj && l.rule == rule && l.hold.isNone then { l with hold := some (l.lastDelay, 0) } else l)
    (hobj : l.obj = obj) (hrule : l.rule = rule) : l.hold ≠ none := by
  obtain ⟨x, _, rfl⟩ := List.mem_map.mp hl
  split at hobj
  · next h =>
    rw [if_pos h]
    simp
  · next h =>
    rw [if_neg h] at hrule ⊢
    intro hnone
    exact h (by rw [hobj, hrule, hnone]; simp)

/-! ### Output modes and correction -/

theorem doOutputModeSwitch_due {out : Nat} {c : ModeChange} (h : (s.outRt out).change = some c) (hsw : c.sw = none)
    (hdue : c.due ≤ s.tick + 3) :
    doOutputModeSwitch out s = s.setOut out { s.outRt out with change := some { c with sw := some (s.tick + 3) } } := by
  unfold doOutputModeSwitch
  dsimp only
  rw [h]
  exact if_pos (by rw [hsw, decide_eq_true (show c.due ≤ nextGeo s from hdue)]; rfl)

theorem endFade_alone {r : CorRt} {b : Nat} (h : r.queued = none) : endFade r b = { r with fade := none } := by
  unfold endFade
  split
  · rfl
  · next heq => exact absurd (h.symm.trans heq) (by simp)

theorem endFade_queued {r : CorRt} {b len : Nat} {lin : Bool} (h : r.queued = some (len, lin)) :
    endFade r b = { r with
      fade := some { start := b, len := len, lin := lin }
      queued := none
      active := !r.active } := by
  rw [endFade, h]

theorem doCorFadeEnd_over {out : Nat} {f : CorFade} (h : (s.cor out).fade = some f) (hover : f.start + f.len ≤ s.tick) :
    doCorFadeEnd out s = s.setCor out (endFade (s.cor out) s.tick) := by
  unfold doCorFadeEnd
  dsimp only
  rw [h]
  exact if_pos hover

/-- Registers and notes leave the correction chains. -/
theorem countCut_cors (s : State) (n : Nat) : (countCut s n).cors = s.cors := by
  unfold countCut
  split
  · rfl
  · exact (evt_cors ..).trans rfl

theorem corMemRegs_cors (s : State) : (corMemRegs s).cors = s.cors := rfl

theorem doCorSwitch_takes {out : Nat} {c : Word × Word × Word} (hsupp : (s.cor out).supp = .down) (hpend : (s.cor out).pend = some c)
    (hw : (s.cor out).w ≤ s.tick) : (doCorSwitch out s).cor out = (takeOver s.blockLen s.tick (s.cor out) c).1 := by
  have e : doCorSwitch out s = corMemRegs (countCut (s.setCor out (takeOver s.blockLen s.tick (s.cor out) c).1)
      (takeOver s.blockLen s.tick (s.cor out) c).2) := by
    unfold doCorSwitch
    dsimp only
    rw [hsupp, hpend]
    exact if_pos hw
  rw [e, cor_of_cors ((corMemRegs_cors _).trans (countCut_cors _ _)), cor_setCor]

end

/-- What takes over at the switch block with no load waiting. -/
theorem takeOver_fields (B w : Nat) {r : CorRt} (c : Word × Word × Word) (h : r.loads = []) :
    let t := (takeOver B w r c).1
    t.supp = .hold ∧ t.cfg = c.1 ∧ t.len = c.2.1 ∧ t.pd = c.2.2 ∧ t.fade = none ∧ t.queued = none ∧ t.hist = [] ∧ t.w = w ∧
      t.j = w + ceilDiv (corSettle B c.1 c.2.1 c.2.2) B := by
  unfold takeOver
  dsimp only
  rw [h]
  exact ⟨rfl, rfl, rfl, rfl, rfl, rfl, rfl, rfl, rfl⟩

/-- Settles O50: the branch of each command that its premises choose. -/
theorem renderEvents : Obligations.RenderEvents := by
  unfold Obligations.RenderEvents
  refine ⟨fun obj w s hw hle hnew hclear => ?_, fun obj s hw => ?_, ?_, fun obj out s h => ?_,
    fun obj rule r s hrule hheld hget hoff hover => ?_, fun obj s h => ?_, fun out c s h hsw hdue => ?_, fun out s h => ?_,
    fun out f s h hover hq => ?_, fun out f len lin s h hover hq => ?_, fun out s h => ?_, fun out c s hsupp hpend hw hloads => ?_,
    fun out s h => ?_, fun out s hsupp hj => ?_, fun out s h => ?_⟩
  · refine leaves_of (u := doWellPrimed obj s) rfl fun t ht => ?_
    rw [rt_of_geo ht.geo, settled_bitHigh ht (by decide), ht.tick]
    exact doWellPrimed_primes hw hle hnew hclear
  · exact gives_of (v := doWellPrimed obj s) rfl (doWellPrimed_none hw)
  · intro obj out s done h
    exact gives_of (v := doRouteFadeEnd obj out s) rfl (if_pos h)
  · exact gives_of (v := doRouteFadeEnd obj out s) rfl (doRouteFadeEnd_plain h)
  · refine leaves_of (u := doObjOffRampEnd obj s) rfl fun t ht => ?_
    rw [rt_of_geo ht.geo, ht.geo, doObjOffRampEnd_holds hrule hheld hget hoff hover]
    refine ⟨?_, fun l hl hobj hr => held_legs _ _ _ hl hobj hr⟩
    show ((s.setRt obj { s.rt obj with held := true }).rt obj).held = true
    rw [rt_setRt]
  · exact gives_of (v := doObjOffRampEnd obj s) rfl (if_pos h)
  · exact gives_of (v := doOutputModeSwitch out s) rfl (doOutputModeSwitch_due h hsw hdue)
  · refine gives_of (v := doOutputModeSwitch out s) rfl ?_
    unfold doOutputModeSwitch
    dsimp only
    rw [h]
  · refine gives_of (v := doCorFadeEnd out s) rfl ((doCorFadeEnd_over h hover).trans ?_)
    rw [endFade_alone hq]
  · refine gives_of (v := doCorFadeEnd out s) rfl ((doCorFadeEnd_over h hover).trans ?_)
    rw [endFade_queued hq]
  · refine gives_of (v := doCorFadeEnd out s) rfl ?_
    unfold doCorFadeEnd
    dsimp only
    rw [h]
  · refine leaves_of (u := doCorSwitch out s) rfl fun t ht => ?_
    rw [cor_of_cors ht.cors, doCorSwitch_takes hsupp hpend hw]
    exact takeOver_fields _ _ _ hloads
  · refine gives_of (v := doCorSwitch out s) rfl ?_
    unfold doCorSwitch
    dsimp only
    rw [h]
    cases (s.cor out).supp <;> rfl
  · exact gives_of (v := doCorSettled out s) rfl (if_pos ⟨hsupp, hj⟩)
  · exact gives_of (v := doCorSettled out s) rfl (if_neg fun ⟨hsupp, _⟩ => h hsupp)

end Sys2Proof.Machine
end

section
/-! PROOFS. Measurement (R170 to R191), serial ports and dynamic metadata (R419 to R431). Obligation O51. -/

namespace Sys2Proof.Machine

open Sys2Proof.Claims

/-! ### Measurement -/

theorem doMicValid_settled {m k : Nat} {s : State} (hm : m < 32) (hk : (s.mic m).start = some k) (hnew : s.bit R.meaMicValid m = false)
    (hdue : s.dueOk (sampleClk s (micValidFrom s (s.cmAt s.tick) m k)).toNat = true) :
    doMicValid m s = ((s.atClk (sampleClk s (micValidFrom s (s.cmAt s.tick) m k)).toNat).setBit R.meaMicValid m true).evt
      R.meaEvtStatus 0 := by
  unfold doMicValid
  rw [hk]
  exact if_pos (by rw [decide_eq_true hm, hnew, hdue]; rfl)

theorem notesOnly_foldl {α : Type} {f : State → α → State} (l : List α) (hf : ∀ s t a, NotesOnly s t → NotesOnly s (f t a))
    {s t : State}
    (h : NotesOnly s t) : NotesOnly s (l.foldl f t) :=
  foldl_keeps (P := NotesOnly s) l (fun u a _ hu => hf s u a hu) h

theorem notesOnly_loudRegs {s t : State} (g : Nat) (r : LoudRt) (h : NotesOnly s t) : NotesOnly s (loudRegs t g r) :=
  (((h.setReg _ _).setReg _ _).setReg _ _).setReg _ _

/-- The fine values are written, and the tick they belong to. -/
theorem doFineFloatUpdate_writes {s : State} (hrun : s.tickRuns = true) (h150 : s.tick % 150 = 0) (hnew : s.mea.ffTick ≠ s.tick) :
    ∃ u, NotesOnly s u ∧ doFineFloatUpdate s =
      (let v := pilotUpdate s.tick (u.setNat R.meaFfTick (s.tick - 2))
       { v with mea := { v.mea with ffTick := s.tick } }) := by
  refine ⟨_, ?_, if_pos ?_⟩
  · refine NotesOnly.setReg ?_ _ _
    refine notesOnly_foldl _ (fun s t e h => notesOnly_loudRegs e.1 e.2 h) ?_
    exact notesOnly_foldl _ (fun s t e h => (h.setReg _ _).setReg _ _) (NotesOnly.refl s)
  · rw [hrun, h150, bne_iff_ne.mpr hnew]
    rfl

/-! ### Publication -/

/-- What a publication leaves of the plan: the subsets still waiting, the exports, the tick. -/
structure PlanKept (s t : State) : Prop where
  pend : t.mea.pend = s.mea.pend
  exports : t.mea.exports = s.mea.exports
  tick : t.tick = s.tick

theorem PlanKept.refl (s : State) : PlanKept s s := ⟨rfl, rfl, rfl⟩

theorem PlanKept.trans {a b c : State} (h1 : PlanKept a b) (h2 : PlanKept b c) : PlanKept a c :=
  ⟨h2.pend.trans h1.pend, h2.exports.trans h1.exports, h2.tick.trans h1.tick⟩

theorem PlanKept.setReg {s t : State} (h : PlanKept s t) (a : Nat) (v : Word) : PlanKept s (t.setReg a v) := ⟨h.pend, h.exports, h.tick⟩

theorem PlanKept.draw {s t : State} (h : PlanKept s t) : PlanKept s t.draw.2 := ⟨h.pend, h.exports, h.tick⟩

theorem PlanKept.records {s t : State} (h : PlanKept s t) (r : Tab MeaRec) :
    PlanKept s { t with mea := { t.mea with records := r } } := ⟨h.pend, h.exports, h.tick⟩

theorem PlanKept.evt {s t : State} (h : PlanKept s t) (b : Nat) : PlanKept s (meaEvt t b) where
  pend := (congrArg MeaSt.pend (evt_mea t R.meaEvtStatus b)).trans h.pend
  exports := (congrArg MeaSt.exports (evt_mea t R.meaEvtStatus b)).trans h.exports
  tick := (evt_tick ..).trans h.tick

theorem PlanKept.ite {s t u : State} {c : Prop} [Decidable c] (ht : PlanKept s t) (hu : PlanKept s u) :
    PlanKept s (if c then t else u) := by
  split
  · exact ht
  · exact hu

theorem planKept_publishOut (p : IdentPend) (fed : Bool) (s : State) (o : Nat) : PlanKept s (publishOut p fed s o) :=
  foldl_keeps (P := PlanKept s) p.mics
    (fun _ _ _ hu => PlanKept.records (PlanKept.ite (PlanKept.setReg hu.draw _ _) hu.draw) _) (PlanKept.refl s)

theorem planKept_alarmOut (p : IdentPend) (s : State) (o : Nat) : PlanKept s (alarmOut p s o) := by
  have hdrift : ∀ (c : Prop) [Decidable c] (r : Tab MeaRec) (a i : Nat),
      PlanKept s (if c then meaEvt (State.setBit { s with mea := { s.mea with records := r } } a i true) 2 else s) :=
    fun c _ r a i => PlanKept.ite (((PlanKept.refl s).records r).setReg _ _ |>.evt 2) (PlanKept.refl s)
  unfold alarmOut
  dsimp only
  exact PlanKept.ite (((hdrift _ _ _ _).records _).setReg _ _ |>.evt 3) (hdrift _ _ _ _)

/-- What the loop of the speed of sound leaves: the unit's own state, the tick, the subset shown. -/
structure SosKept (s t : State) : Prop where
  mea : t.mea = s.mea
  tick : t.tick = s.tick
  subset : t.reg R.meaIdSubset = s.reg R.meaIdSubset

theorem SosKept.refl (s : State) : SosKept s s := ⟨rfl, rfl, rfl⟩

theorem SosKept.setReg {s t : State} (h : SosKept s t) {a : Nat} (v : Word) (ha : R.meaIdSubset ≠ a) : SosKept s (t.setReg a v) :=
  ⟨h.mea, h.tick, (reg_setReg_ne t v ha).trans h.subset⟩

theorem SosKept.evt {s t : State} (h : SosKept s t) {b : Nat} (hb : b < 32) : SosKept s (meaEvt t b) :=
  ⟨(evt_mea ..).trans h.mea, (evt_tick ..).trans h.tick,
    (reg_evt_ne t R.meaEvtStatus hb (by decide) (.inr (by decide))).trans h.subset⟩

/-- The firmware's staging touches the command unit alone. -/
theorem fwStage_same (s : State) (kind : Nat) (l : List Packet) : fwStage s kind l = { s with cmd := (fwStage s kind l).cmd } := by
  unfold fwStage
  cases fwOpen s <;> rfl

theorem SosKept.fwStage {s t : State} (h : SosKept s t) (kind : Nat) (l : List Packet) : SosKept s (fwStage t kind l) := by
  rw [fwStage_same]
  exact ⟨h.mea, h.tick, h.subset⟩

theorem sosKept_submitSos (est : Nat) {s t : State} (h : SosKept s t) : SosKept s (submitSos est t) := by
  unfold submitSos
  split
  · exact h
  · refine SosKept.fwStage ?_ _ _
    split
    · exact h.evt (by decide)
    · exact h

theorem sosKept_sosLoop (p : IdentPend) {s t : State} (h : SosKept s t) : SosKept s (sosLoop p t) := by
  unfold sosLoop
  split
  · exact h
  · dsimp only
    split
    · exact h.setReg _ (by decide)
    · split
      · exact h
      · exact sosKept_submitSos _ ((h.setReg _ (by decide)).setReg _ (by decide))

/-- The outputs a publication hears: nothing but free values is drawn. -/
theorem planKept_fed (l : List Nat) (s : State) :
    PlanKept s (l.foldl (fun (a : State × List Nat) o =>
      let d := a.1.draw
      (d.2, if Config.identFed d.1 then o :: a.2 else a.2)) (s, [])).1 :=
  foldl_keeps (P := fun a : State × List Nat => PlanKept s a.1) l (fun _ _ _ ha => ha.draw) (PlanKept.refl s)

theorem doSubsetPublish_due {p : IdentPend} {rest : List IdentPend} {s : State} (hp : s.mea.pend = p :: rest) (hdue : p.due ≤ s.tick) :
    let t := doSubsetPublish s
    t.mea.pend = rest ∧ t.mea.exports = [] ∧ t.reg R.meaIdSubset = wd (p.count * 65536 + p.index) ∧ t.tick = s.tick ∧
      ∃ e v, t.mea.pub = some (p, s.tick, e, v) := by
  let s1 := dropExports { s with mea := { s.mea with pend := rest } }
  have key : ∀ u : State, PlanKept s1 u → ∀ e v seen,
      let w : State := { u with mea := { u.mea with pub := some (p, u.tick, e, v), pilotSeen := seen } }
      let t := sosLoop p (meaEvt (w.setNat R.meaIdSubset (p.count * 65536 + p.index)) 1)
      t.mea.pend = rest ∧ t.mea.exports = [] ∧ t.reg R.meaIdSubset = wd (p.count * 65536 + p.index) ∧ t.tick = s.tick ∧
        ∃ e v, t.mea.pub = some (p, s.tick, e, v) := by
    intro u hu e v seen w
    have htick : u.tick = s.tick := hu.tick
    have h := sosKept_sosLoop p ((SosKept.refl (w.setNat R.meaIdSubset (p.count * 65536 + p.index))).evt (b := 1) (by decide))
    dsimp only
    rw [h.mea, h.tick, h.subset]
    exact ⟨hu.pend, hu.exports, reg_setNat_self .., htick, e, v, by rw [← htick]; rfl⟩
  unfold doSubsetPublish
  rw [hp]
  dsimp only
  rw [if_pos hdue]
  refine key _ ?_ _ _ _
  refine foldl_keeps (P := PlanKept s1) _ (fun u o _ hu => hu.trans (planKept_alarmOut p u o)) ?_
  refine foldl_keeps (P := PlanKept s1) _ (fun u o _ hu => hu.trans (planKept_publishOut p _ u o)) ?_
  exact planKept_fed _ _

/-- The oldest copy of responses goes out, and its packet completes. -/
theorem doExportComplete_first {e : Export} {rest : List Export} {s : State} (h : s.mea.exports = e :: rest) :
    ∃ data, doExportComplete s =
      (let u := ({ s with mea := { s.mea with exports := rest } } : State).emit (.host e.addr data)
       { u with cmd := { u.cmd with fetched := u.cmd.fetched.map fun f =>
         if f.num == e.num then { f with cpl := some { rlen := e.len } } else f } }) := by
  unfold doExportComplete
  rw [h]
  exact ⟨_, rfl⟩

/-! ### Serial ports -/

@[simp] theorem port_setPort (s : State) (p : Nat) (r : SapRt) : (s.setPort p r).port p = r := tabGetD_tabSet_self ..

theorem port_of_sap {s t : State} (h : t.sap = s.sap) (p : Nat) : t.port p = s.port p := by rw [State.port, State.port, h]

theorem le_sapReg (p off : Nat) : 0x30000 ≤ sapReg p off := by
  unfold sapReg R.sapCfg
  omega

theorem sapReg_ne {p a b : Nat} (h : a ≠ b) : sapReg p a ≠ sapReg p b := by
  unfold sapReg
  omega

/-- A port after an accepted edge in cycle `c`. -/
def acceptedPort (r : SapRt) (c : Nat) : SapRt :=
  let r := { r with last := some c, winEdges := c :: r.winEdges }
  { (if r.st = 3 then ({ r with st := 1 } : SapRt).restartWindows c else r) with edgeDue := false }

theorem acceptedPort_fields (r : SapRt) (c : Nat) :
    (acceptedPort r c).last = some c ∧ (acceptedPort r c).edgeDue = false ∧ (acceptedPort r c).frames = r.frames ∧
    (acceptedPort r c).buf = r.buf := by
  unfold acceptedPort
  dsimp only
  split <;> exact ⟨rfl, rfl, rfl, rfl⟩

/-- An accepted edge: the port, the stamp of an edge that was asked for, the ratio. -/
theorem acceptEdge_eq (s : State) (p : Nat) (r : SapRt) :
    ∃ w, acceptEdge s p r =
      (let u := s.setPort p (acceptedPort r s.clk)
       (if r.edgeDue then u.setReg (sapReg p 0x20) s.stamp else u).setReg (sapReg p 0x14) w) := by
  unfold acceptEdge acceptedPort
  dsimp only
  split
  · exact ⟨_, rfl⟩
  · exact ⟨_, rfl⟩

theorem acceptEdge_port (s : State) (p : Nat) (r : SapRt) : (acceptEdge s p r).port p = acceptedPort r s.clk := by
  obtain ⟨w, h⟩ := acceptEdge_eq s p r
  rw [h]
  dsimp only
  split <;> exact port_setPort ..

theorem acceptEdge_tick (s : State) (p : Nat) (r : SapRt) : (acceptEdge s p r).tick = s.tick := by
  obtain ⟨w, h⟩ := acceptEdge_eq s p r
  rw [h]
  dsimp only
  split <;> rfl

theorem acceptEdge_stamp {s : State} {p : Nat} {r : SapRt} (h : r.edgeDue = true) :
    (acceptEdge s p r).reg (sapReg p 0x20) = s.stamp := by
  obtain ⟨w, e⟩ := acceptEdge_eq s p r
  rw [e]
  dsimp only
  rw [if_pos h, reg_setReg_ne _ _ (sapReg_ne (by decide)), reg_setReg_self]

section
variable {p : Nat} {l : List Word} {s : State}

theorem doLrclkEdge_off (h : (s.port p).en = false ∨ (s.port p).master = true) : doLrclkEdge p l s = s := by
  refine if_pos ?_
  obtain h | h := h <;> rw [h] <;> simp

theorem doLrclkEdge_on (hp : p < 32) (hen : (s.port p).en = true) (hm : (s.port p).master = false) :
    ¬ (!(decide (p < 32) && (s.port p).en && !(s.port p).master)) = true := by
  rw [decide_eq_true hp, hen, hm]
  decide

theorem doLrclkEdge_first (hp : p < 32) (hen : (s.port p).en = true) (hm : (s.port p).master = false) (hlast : (s.port p).last = none) :
    doLrclkEdge p l s = acceptEdge s p (s.port p) := by
  unfold doLrclkEdge
  dsimp only
  rw [if_neg (doLrclkEdge_on hp hen hm)]
  split
  · rfl
  · next h => exact absurd (hlast.symm.trans h) (by simp)

theorem doLrclkEdge_extra {e : Nat} (hp : p < 32) (hen : (s.port p).en = true) (hm : (s.port p).master = false)
    (hlast : (s.port p).last = some e) (hextra : edgeExtra (s.port p) (s.clk - e) = true) :
    doLrclkEdge p l s = (s.inc (sapReg p 0x24)).evt R.sapEvtStatus 3 := by
  unfold doLrclkEdge
  dsimp only
  rw [if_neg (doLrclkEdge_on hp hen hm), hlast]
  exact if_pos hextra

theorem doLrclkEdge_frame {e : Nat} {a b : Word} (hp : p < 32) (hen : (s.port p).en = true) (hm : (s.port p).master = false)
    (hlast : (s.port p).last = some e) (hextra : edgeExtra (s.port p) (s.clk - e) = false)
    (hmissing : edgeMissing (s.port p) (s.clk - e) = false) :
    ∃ r, r.frames = (s.port p).frames + 1 ∧
      r.buf = ((t256 s e, slotSample (s.port p).width a, slotSample (s.port p).width b) :: (s.port p).buf).take 512 ∧
      doLrclkEdge p [a, b] s = acceptEdge s p r := by
  refine ⟨pushFrame { s.port p with ivals := ((s.clk - e) :: (s.port p).ivals).take 64, frames := (s.port p).frames + 1 } (t256 s e)
    (slotSample (s.port p).width a) (slotSample (s.port p).width b), rfl, rfl, ?_⟩
  unfold doLrclkEdge
  dsimp only
  rw [if_neg (doLrclkEdge_on hp hen hm)]
  split
  · next h => exact absurd (hlast.symm.trans h) (by simp)
  · next e' h =>
    obtain rfl : e = e' := Option.some.inj (hlast.symm.trans h)
    rw [hextra, hmissing]
    rfl

theorem doSapLost_due {e : Nat} (hlast : (s.port p).last = some e) (hen : (s.port p).en = true) (hm : (s.port p).master = false)
    (hst : (s.port p).st = 1 ∨ (s.port p).st = 2)
    (hdue : s.dueOk (e + 4 * (sapPeriod (s.port p)).1 / (sapPeriod (s.port p)).2 + 1) = true) :
    doSapLost p s = (((s.atClk (e + 4 * (sapPeriod (s.port p)).1 / (sapPeriod (s.port p)).2 + 1)).setPort p
      { s.port p with st := 3 }).inc (sapReg p 0x28)).evt R.sapEvtStatus 0 := by
  unfold doSapLost
  dsimp only
  split
  · next h => exact absurd (hlast.symm.trans h) (by simp)
  · next e' h =>
    obtain rfl : e = e' := Option.some.inj (hlast.symm.trans h)
    exact if_pos ⟨hen, hm, hst, hdue⟩

theorem doSapLost_not (h : (s.port p).last = none ∨ (s.port p).st = 3) : doSapLost p s = s := by
  unfold doSapLost
  dsimp only
  split
  · rfl
  · next e he =>
    obtain h | h := h
    · exact absurd (h.symm.trans he) (by simp)
    · refine if_neg fun ⟨_, _, hst, _⟩ => ?_
      omega

theorem doSapRateWindow_locked (hen : (s.port p).en = true) (hm : (s.port p).master = false) (hst : (s.port p).st = 2)
    (hdue : s.dueOk ((s.port p).winStart + 1250000) = true) :
    doSapRateWindow p s = lockedWindow (s.atClk ((s.port p).winStart + 1250000)) p
      { s.port p with
        winStart := (s.port p).winStart + 1250000
        winEdges := (s.port p).winEdges.filter fun c => decide ((s.port p).winStart + 1250000 < c) }
      (windowRate ((s.port p).winEdges.filter fun c => decide (c ≤ (s.port p).winStart + 1250000))) := by
  unfold doSapRateWindow
  dsimp only
  rw [if_pos ⟨hen, hm, .inr hst, hdue⟩, if_neg (by rw [hst]; decide)]

theorem lockedWindow_second {r : SapRt} {f : Nat} (hf : within f (sapRate r.rate * 1000) 2 100 = false) (hd : r.differ ≠ 0) :
    ((lockedWindow s p r f).port p).st = 1 ∧ ((lockedWindow s p r f).port p).differ = 0 ∧
    (lockedWindow s p r f).bit R.sapEvtStatus 1 = true := by
  have e : lockedWindow s p r f =
      sapEvt ((s.setPort p (({ r with st := 1 } : SapRt).restartWindows s.clk)).inc (sapReg p 0x2C)) 1 :=
    (if_neg (by rw [hf]; decide)).trans (if_neg hd)
  have hport : (lockedWindow s p r f).port p = ({ r with st := 1 } : SapRt).restartWindows s.clk := by
    rw [e, sapEvt, port_of_sap (evt_sap _ R.sapEvtStatus 1)]
    exact port_setPort ..
  rw [hport]
  exact ⟨rfl, rfl, e ▸ bit_evt_self _ _ (by decide) (.inr (by decide))⟩

end

/-! ### Metadata frames -/

section
variable {f : AdmFrame} {x : AdmRx} {rest : List AdmRx} {s : State}

theorem doAdmStage_damaged (hx : s.sap.adm = x :: rest) (htick : x.tick ≤ s.tick)
    (hhalt : (tabGetD s.ecs (fld (admW s.mapCm 0) 7 4) {}).mode = .halted) (hbad : f.ok = false ∨ 131072 < x.bits) :
    doAdmStage f s = (({ s with sap := { s.sap with adm := rest } } : State).inc R.sapAdmCntErr).evt R.sapEvtStatus 5 := by
  have hbad' : (!f.ok || decide (131072 < x.bits)) = true := by
    obtain h | h := hbad
    · rw [h]
      rfl
    · rw [decide_eq_true h, Bool.or_true]
  unfold doAdmStage
  rw [hx]
  dsimp only
  rw [if_pos ⟨htick, hhalt⟩, if_pos hbad']
  rfl

/-- What a frame that is taken leaves: the frames still to come, the tick, the committed state. -/
structure AdmTaken (rest : List AdmRx) (s t : State) : Prop where
  adm : t.sap.adm = rest
  tick : t.tick = s.tick
  cm : t.cm = s.cm

theorem AdmTaken.setReg {s t : State} (h : AdmTaken rest s t) (a : Nat) (v : Word) : AdmTaken rest s (t.setReg a v) :=
  ⟨h.adm, h.tick, h.cm⟩

theorem AdmTaken.evt {s t : State} (h : AdmTaken rest s t) (b : Nat) : AdmTaken rest s (sapEvt t b) :=
  ⟨(congrArg SapSt.adm (evt_sap t R.sapEvtStatus b)).trans h.adm, (evt_tick ..).trans h.tick, (evt_cm ..).trans h.cm⟩

theorem AdmTaken.fwStage {s t : State} (h : AdmTaken rest s t) (kind : Nat) (l : List Packet) : AdmTaken rest s (fwStage t kind l) := by
  rw [fwStage_same]
  exact ⟨h.adm, h.tick, h.cm⟩

theorem AdmTaken.ite {s t u : State} {c : Prop} [Decidable c] (ht : AdmTaken rest s t) (hu : AdmTaken rest s u) :
    AdmTaken rest s (if c then t else u) := by
  split
  · exact ht
  · exact hu

theorem doAdmStage_takes (hx : s.sap.adm = x :: rest) (htick : x.tick ≤ s.tick)
    (hhalt : (tabGetD s.ecs (fld (admW s.mapCm 0) 7 4) {}).mode = .halted) (hok : f.ok = true) (hbits : x.bits ≤ 131072) :
    AdmTaken rest s (doAdmStage f s) := by
  have hgood : ¬ (!f.ok || decide (131072 < x.bits)) = true := by
    rw [hok, decide_eq_false (Nat.not_lt.mpr hbits)]
    decide
  have h0 : AdmTaken rest s { s with sap := { s.sap with adm := rest } } := ⟨rfl, rfl, rfl⟩
  have hevt : ∀ {t : State} (n : Nat), AdmTaken rest s t → AdmTaken rest s (if n = 0 then t else sapEvt t 7) :=
    fun n ht => ht.ite (ht.evt 7)
  unfold doAdmStage
  rw [hx]
  dsimp only
  rw [if_pos ⟨htick, hhalt⟩, if_neg hgood]
  exact AdmTaken.ite (hevt _ ((((h0.setReg _ _).setReg _ _).setReg _ _).setReg _ _))
    ((hevt _ ((((h0.setReg _ _).setReg _ _).setReg _ _).setReg _ _)).fwStage _ _)

end

/-- Settles O51: measurement, serial ports and metadata frames, each clause by the branch its premises choose. -/
theorem measurementAndSerialPorts : Obligations.MeasurementAndSerialPorts := by
  unfold Obligations.MeasurementAndSerialPorts
  refine ⟨fun m k s hm hk hnew => ?_, fun m s h => ?_, fun s hrun h150 hnew => ?_, fun s h => ?_, fun p rest s hp hdue => ?_,
    fun s h => ?_, fun p rest s hp hlt => ?_, fun e rest s h => ?_, fun s h => ?_, fun val s => ?_, fun val s => ?_,
    fun p l s h => ?_, fun p l s hp hen hm hlast => ?_, fun p l e s hp hen hm hlast hextra => ?_,
    fun p l h e s hp hen hm hlast hextra hmissing => ?_, fun p e s hlast hen hm hst => ?_, fun p s h => ?_, fun p s h => ?_,
    fun p s hen hm hst => ?_, fun f x rest s hx htick hhalt hbad => ?_, fun f x rest s hx htick hhalt hok hbits => ?_, fun f s h => ?_⟩
  · intro due hdue
    exact gives_of (v := doMicValid m s) rfl (doMicValid_settled hm hk hnew hdue)
  · refine gives_of (v := doMicValid m s) rfl ?_
    unfold doMicValid
    rw [h]
  · refine leaves_of (u := doFineFloatUpdate s) rfl fun t ht => ?_
    obtain ⟨u, hu, e⟩ := doFineFloatUpdate_writes hrun h150 hnew
    rw [settled_regHigh ht (by decide), ht.mea, ht.tick, ht.cm, e]
    exact ⟨reg_setNat_self .., rfl, (congrArg State.tick hu :), (congrArg State.cm hu :)⟩
  · refine gives_of (v := doFineFloatUpdate s) rfl (if_neg ?_)
    obtain h | h := h
    · rw [beq_eq_false_iff_ne.mpr h]
      simp
    · rw [h]
      simp
  · refine leaves_of (u := doSubsetPublish s) rfl fun t ht => ?_
    rw [ht.mea, ht.tick, settled_regHigh ht (by decide)]
    exact doSubsetPublish_due hp hdue
  · refine gives_of (v := doSubsetPublish s) rfl ?_
    unfold doSubsetPublish
    rw [h]
  · refine gives_of (v := doSubsetPublish s) rfl ?_
    unfold doSubsetPublish
    rw [hp]
    exact if_neg (Nat.not_le.mpr hlt)
  · obtain ⟨data, e'⟩ := doExportComplete_first h
    exact ⟨data, gives_of (v := doExportComplete s) rfl e'⟩
  · refine gives_of (v := doExportComplete s) rfl ?_
    unfold doExportComplete
    rw [h]
  · exact gives_of (v := doMeaCfFreeze val s) rfl rfl
  · exact gives_of (v := doMeaLoudReset val s) rfl rfl
  · exact gives_of (v := doLrclkEdge p l s) rfl (doLrclkEdge_off h)
  · refine leaves_of (u := doLrclkEdge p l s) rfl fun t ht => ?_
    obtain ⟨hl, hd, _, _⟩ := acceptedPort_fields (s.port p) s.clk
    rw [port_of_sap ht.sap, ht.tick, settled_regHigh ht (le_sapReg ..), doLrclkEdge_first hp hen hm hlast, acceptEdge_port,
      acceptEdge_tick]
    exact ⟨hl, hd, rfl, fun h => acceptEdge_stamp h⟩
  · exact gives_of (v := doLrclkEdge p l s) rfl (doLrclkEdge_extra hp hen hm hlast hextra)
  · refine leaves_of (u := doLrclkEdge p [l, h] s) rfl fun t ht => ?_
    obtain ⟨r, hframes, hbuf, e⟩ := doLrclkEdge_frame (a := l) (b := h) hp hen hm hlast hextra hmissing
    obtain ⟨hl, _, hf, hb⟩ := acceptedPort_fields r s.clk
    rw [port_of_sap ht.sap, e, acceptEdge_port]
    exact ⟨hl, hf.trans hframes, hb.trans hbuf⟩
  · intro q due hdue
    exact gives_of (v := doSapLost p s) rfl (doSapLost_due hlast hen hm hst hdue)
  · exact gives_of (v := doSapLost p s) rfl (doSapLost_not h)
  · refine gives_of (v := doSapRateWindow p s) rfl (if_neg fun ⟨hen, hm, _⟩ => ?_)
    obtain h | h := h
    · exact Bool.false_ne_true (h.symm.trans hen)
    · exact Bool.false_ne_true (hm.symm.trans h)
  · intro r due f r' hdue
    have e := doSapRateWindow_locked hen hm hst hdue
    refine ⟨fun hf => gives_of (v := doSapRateWindow p s) rfl (e.trans (if_pos hf)),
      fun hf hd => gives_of (v := doSapRateWindow p s) rfl (e.trans ((if_neg (by rw [hf]; decide)).trans (if_pos hd))),
      fun hf hd => leaves_of (u := doSapRateWindow p s) rfl fun t ht => ?_⟩
    rw [port_of_sap ht.sap, settled_bitHigh ht (by decide), e]
    exact lockedWindow_second hf hd
  · exact gives_of (v := doAdmStage f s) rfl (doAdmStage_damaged hx htick hhalt hbad)
  · refine leaves_of (u := doAdmStage f s) rfl fun t ht => ?_
    obtain ⟨hadm, ht', hcm⟩ := doAdmStage_takes hx htick hhalt hok hbits
    rw [ht.sap, ht.tick, ht.cm]
    exact ⟨hadm, ht', hcm⟩
  · refine gives_of (v := doAdmStage f s) rfl ?_
    unfold doAdmStage
    rw [h]

end Sys2Proof.Machine
end

section
/-! PROOFS. Messages of the Nyith links (R440 to R443): what is taken, what a refused one leaves, and what sending changes. -/

namespace Sys2Proof.Machine

open Sys2Proof.Claims

/-! ### Taking a message -/

section
variable {kind : Nat} {m : LinkMsg} {s t : State}

theorem takeMsg_down (h : linkUp s m.link = false) : takeMsg kind m s = (s, false) :=
  if_pos (by rw [h, Bool.not_false, Bool.or_true])

/-- A message of a class that is not resent, whose CRC fails, is counted alone. -/
theorem takeMsg_bad (hk : m.kind = kind) (hup : linkUp s m.link = true) (hcrc : m.crcOk = false) (hr : isResent kind = false) :
    takeMsg kind m s = ((s.inc (linkReg m.link 0x10)).evt R.nylEvtStatus 4, false) := by
  subst hk
  unfold takeMsg
  rw [hup, hcrc, hr, bne_self_eq_false]
  rfl

theorem takeMsg_taken (h : taken kind m s = true) : takeMsg kind m s = (gotMsg m s, true) := by
  simp only [taken, Bool.and_eq_true, Bool.or_eq_true, Bool.not_eq_true', beq_iff_eq] at h
  obtain ⟨⟨⟨rfl, hup⟩, hcrc⟩, hseq⟩ := h
  unfold takeMsg gotMsg
  rw [hup, hcrc, bne_self_eq_false]
  rcases hr : isResent m.kind with _ | _
  · rfl
  · obtain hseq | hseq := hseq
    · rw [hr] at hseq
      cases hseq
    · exact if_pos hseq

theorem kind_of_taken (h : taken kind m s = true) : m.kind = kind := by
  simp only [taken, Bool.and_eq_true, beq_iff_eq] at h
  exact h.1.1.1

theorem gotMsg_of_not_resent (h : isResent m.kind = false) : gotMsg m s = s := if_neg (by rw [h]; decide)

/-- On a class that is not resent nothing is noted of a message that is taken. -/
theorem takeMsg_plain (h : taken kind m s = true) (hr : isResent kind = false) : takeMsg kind m s = (s, true) := by
  rw [takeMsg_taken h, gotMsg_of_not_resent (kind_of_taken h ▸ hr)]

/-- A message that is taken moves its sequence number alone. -/
theorem gotMsg_same (m : LinkMsg) (s : State) : gotMsg m s = { s with nyl := { s.nyl with rx := (gotMsg m s).nyl.rx } } := by
  unfold gotMsg
  split <;> rfl

theorem gotMsg_regs (m : LinkMsg) (s : State) : (gotMsg m s).regs = s.regs := (congrArg State.regs (gotMsg_same m s) :)
theorem gotMsg_cm (m : LinkMsg) (s : State) : (gotMsg m s).cm = s.cm := (congrArg State.cm (gotMsg_same m s) :)
theorem gotMsg_cmd (m : LinkMsg) (s : State) : (gotMsg m s).cmd = s.cmd := (congrArg State.cmd (gotMsg_same m s) :)
theorem gotMsg_tick (m : LinkMsg) (s : State) : (gotMsg m s).tick = s.tick := (congrArg State.tick (gotMsg_same m s) :)
theorem gotMsg_members (m : LinkMsg) (s : State) : (gotMsg m s).nyl.members = s.nyl.members :=
  (congrArg (fun u : State => u.nyl.members) (gotMsg_same m s) :)

theorem gotMsg_reg (m : LinkMsg) (s : State) (a : Nat) : (gotMsg m s).reg a = s.reg a := by
  rw [State.reg, State.reg, gotMsg_regs]

theorem gotMsg_field (m : LinkMsg) (s : State) (a hi lo : Nat) : (gotMsg m s).field a hi lo = s.field a hi lo := by
  rw [State.field, State.field, gotMsg_reg]

theorem fromPartner_gotMsg (x m : LinkMsg) (s : State) : fromPartner (gotMsg x s) m = fromPartner s m := by
  rw [gotMsg_same]
  rfl

/-! ### Messages round a gang -/

theorem gangTake_forUs (h : forUs m s = true) : gangTake m s = (s, true) := by
  simp only [forUs, Bool.or_eq_true, beq_iff_eq] at h
  refine if_pos ?_
  obtain (h | h) | h := h
  · rw [h]
    rfl
  · rw [h]
    simp
  · rw [decide_eq_true h, Bool.or_true]

theorem forUs_gotMsg : forUs m (gotMsg m s) = forUs m s := by
  rw [gotMsg_same]
  rfl

theorem fromLead_refused (h : takeMsg kind m s = (t, false)) : fromLead kind m s = (t, false) := by
  unfold fromLead
  rw [h]
  rfl

theorem fromLead_taken (h : taken kind m s = true) (hus : forUs m s = true) : fromLead kind m s = (gotMsg m s, true) := by
  unfold fromLead
  rw [takeMsg_taken h]
  exact gangTake_forUs (forUs_gotMsg.trans hus)

end

/-! ### Messages that are not taken -/

/-- The command `f` for messages of `kind` does nothing beyond what `takeMsg` leaves of a message that it refuses. -/
def DropsRefused (kind : Nat) (f : LinkMsg → Instr) : Prop :=
  ∀ (m : LinkMsg) (s t : State), (∀ k, (m.kind = kind → k = kind) → takeMsg k m s = (t, false)) → exec (f m) s = .next (settle t)

section
variable {kind : Nat} {f : LinkMsg → Instr} (g : LinkMsg → State → State)

theorem dropsRefused_of_take (hf : ∀ m s, exec (f m) s = .next (settle (g m s)))
    (hg : ∀ m s t, takeMsg kind m s = (t, false) → g m s = t) : DropsRefused kind f := fun m s t h => by
  rw [hf, hg m s t (h _ fun _ => rfl)]

theorem dropsRefused_of_lead (hf : ∀ m s, exec (f m) s = .next (settle (g m s)))
    (hg : ∀ m s t, fromLead kind m s = (t, false) → g m s = t) : DropsRefused kind f :=
  dropsRefused_of_take g hf fun m s t h => hg m s t (fromLead_refused h)

end

/-- A presence report and a request for a payload, by the kind of the message. -/
theorem dropsRefused_presence {kind : Nat} (h : kind = mkPresence ∨ kind = mkAsk) : DropsRefused kind .presenceReport :=
  fun m s t ht => by
    have htake := ht (if m.kind == mkAsk then mkAsk else mkPresence) fun hk => by
      obtain rfl | rfl := h <;> rw [hk] <;> rfl
    have hdo : doPresenceReport m s = t := by
      unfold doPresenceReport
      dsimp only
      rw [htake]
      rfl
    exact congrArg (fun u => Host.Outcome.next (settle u)) hdo

/-- A payload and samples of a serial port, by the kind of the message. -/
theorem dropsRefused_fill {kind : Nat} (h : kind = mkFill ∨ kind = mkSerial) : DropsRefused kind .fillPayload :=
  fun m s t ht => by
    have htake := ht (if m.kind == mkSerial then mkSerial else mkFill) fun hk => by
      obtain rfl | rfl := h <;> rw [hk] <;> rfl
    have hdo : doFillPayload m s = t := by
      unfold doFillPayload
      dsimp only
      rw [htake]
      rfl
    exact congrArg (fun u => Host.Outcome.next (settle u)) hdo

theorem doCommit_refused (m : LinkMsg) (s t : State) (h : fromLead mkCommit m s = (t, false)) : doCommit m s = t := by
  unfold doCommit
  rw [h]
  dsimp only
  split <;> rfl

theorem messageRows_dropRefused : ∀ row ∈ messageRows, DropsRefused row.1 row.2 := by
  simp only [messageRows, List.forall_mem_cons, List.not_mem_nil, false_imp_iff, implies_true, and_true]
  exact ⟨dropsRefused_of_take doPhaseMessage (fun _ _ => rfl) fun m s t h => by rw [doPhaseMessage, h]; rfl,
    dropsRefused_presence (.inl rfl), dropsRefused_presence (.inr rfl), dropsRefused_fill (.inl rfl), dropsRefused_fill (.inr rfl),
    dropsRefused_of_lead doStagedCommand (fun _ _ => rfl) fun m s t h => by rw [doStagedCommand, h]; rfl,
    dropsRefused_of_lead doAdmitMsg (fun _ _ => rfl) fun m s t h => by rw [doAdmitMsg, h]; rfl,
    dropsRefused_of_lead doVerdict (fun _ _ => rfl) fun m s t h => by rw [doVerdict, h]; rfl,
    dropsRefused_of_lead doCommit (fun _ _ => rfl) doCommit_refused,
    dropsRefused_of_take doSnapshotTriggerMessage (fun _ _ => rfl) fun m s t h => by rw [doSnapshotTriggerMessage, h]; rfl,
    dropsRefused_of_take doDoorbellMessage (fun _ _ => rfl) fun m s t h => by rw [doDoorbellMessage, h]; rfl,
    dropsRefused_of_take doDigest (fun _ _ => rfl) fun m s t h => by rw [doDigest, h]; rfl,
    dropsRefused_of_take doDownNotice (fun _ _ => rfl) fun m s t h => by rw [doDownNotice, h]; rfl,
    dropsRefused_of_lead doJournalMessage (fun _ _ => rfl) fun m s t h => by rw [doJournalMessage, h]; rfl,
    dropsRefused_of_lead doPrimeMessage (fun _ _ => rfl) fun m s t h => by rw [doPrimeMessage, h]; rfl,
    dropsRefused_of_lead doBulkMessage (fun _ _ => rfl) fun m s t h => by rw [doBulkMessage, h]; rfl,
    dropsRefused_of_take doDiscovery (fun _ _ => rfl) fun m s t h => by rw [doDiscovery, h]; rfl,
    dropsRefused_of_take doDiscoveryAnswer (fun _ _ => rfl) fun m s t h => by rw [doDiscoveryAnswer, h]; rfl,
    dropsRefused_of_take doResendRequest (fun _ _ => rfl) fun m s t h => by rw [doResendRequest, h]; rfl⟩

/-! ### Sending -/

/-- `t` is `s` but for what the links have sent and what left the device. -/
structure LinkOnly (s t : State) : Prop where
  same : t = { s with nyl := t.nyl, outbox := t.outbox }
  rx : t.nyl.rx = s.nyl.rx

namespace LinkOnly
variable {s t u : State}

theorem refl (s : State) : LinkOnly s s := ⟨rfl, rfl⟩

theorem trans (h1 : LinkOnly s t) (h2 : LinkOnly t u) : LinkOnly s u where
  same := by
    refine h2.same.trans ?_
    rw [h1.same]
  rx := h2.rx.trans h1.rx

theorem cmd (h : LinkOnly s t) : t.cmd = s.cmd := (congrArg State.cmd h.same :)
theorem mir (h : LinkOnly s t) : t.mir = s.mir := (congrArg State.mir h.same :)

theorem reg (h : LinkOnly s t) (a : Nat) : t.reg a = s.reg a := by
  rw [State.reg, State.reg, (congrArg State.regs h.same : t.regs = _)]

theorem bit (h : LinkOnly s t) (a i : Nat) : t.bit a i = s.bit a i := by rw [State.bit, State.bit, h.reg]

theorem field (h : LinkOnly s t) (a hi lo : Nat) : t.field a hi lo = s.field a hi lo := by rw [State.field, State.field, h.reg]

end LinkOnly

theorem linkOnly_sendMsg (s : State) (m : LinkMsg) : LinkOnly s (sendMsg s m) := by
  unfold sendMsg
  split
  · split
    · exact ⟨rfl, rfl⟩
    · exact ⟨rfl, rfl⟩
  · exact .refl s

theorem linkOnly_sendOn (s : State) (l kind : Nat) (args : List Nat) (bytes : List Byte) : LinkOnly s (sendOn s l kind args bytes) :=
  linkOnly_sendMsg s _

theorem linkOnly_sendPartner (s : State) (kind : Nat) (args : List Nat) (bytes : List Byte) :
    LinkOnly s (sendPartner s kind args bytes) := by
  unfold sendPartner
  split
  · exact linkOnly_sendOn ..
  · exact .refl s

theorem linkOnly_sendUp (s : State) (kind : Nat) (args : List Nat) (bytes : List Byte) : LinkOnly s (sendUp s kind args bytes) := by
  unfold sendUp
  split
  · exact linkOnly_sendOn ..
  · split
    · exact linkOnly_sendOn ..
    · exact .refl s

theorem linkOnly_sendLead (s : State) (kind : Nat) (args : List Nat) (bytes : List Byte) : LinkOnly s (sendLead s kind args bytes) := by
  unfold sendLead
  split
  · exact linkOnly_sendPartner ..
  · exact linkOnly_sendUp ..

theorem linkOnly_tellPartner (s : State) (ask j : Nat) : LinkOnly s (tellPartner s ask j) := linkOnly_sendPartner ..

theorem linkOnly_tellLeader (s : State) (ask j : Nat) : LinkOnly s (tellLeader s ask j) := linkOnly_sendUp ..

theorem linkOnly_setMir (s : State) (st : Nat) : LinkOnly (s.setField R.mirState 3 0 st) (setMir s st) := linkOnly_tellPartner ..

end Sys2Proof.Machine
end

section
/-! PROOFS. What messages of the links do when they are taken (R440 to R447, R457), and links that come up and go down (R443). -/

namespace Sys2Proof.Machine

open Sys2Proof.Claims

section
variable {m : LinkMsg} {s : State}

theorem doPhaseMessage_taken (h : taken mkPhase m s = true) (hfrom : fromPartner s m = true ∨ s.nyl.up = some m.link)
    (hlen : 4 ≤ m.args.length) (htim : timSource s ≠ 3) :
    doPhaseMessage m s = s.setNat (linkReg m.link 4)
      (max 0 (rneDiv (rneDiv ((((m.args.getD 1 0 : Int) - m.args.getD 0 0) + ((m.args.getD 3 0 : Int) - m.args.getD 2 0)) * 64) 2 * 2000)
        256)).toNat := by
  have habove : (fromPartner s m || s.nyl.up == some m.link) = true := by
    obtain hp | hu := hfrom
    · rw [hp, Bool.true_or]
    · rw [hu, beq_self_eq_true, Bool.or_true]
  unfold doPhaseMessage
  rw [takeMsg_plain h rfl]
  dsimp only
  rw [habove, decide_eq_true hlen]
  have hsame : SameSource s (s.setNat (linkReg m.link 4) (max 0 (rneDiv (rneDiv ((((m.args.getD 1 0 : Int) - m.args.getD 0 0) +
      ((m.args.getD 3 0 : Int) - m.args.getD 2 0)) * 64) 2 * 2000) 256)).toNat) :=
    (SameSource.refl s).setReg _ (by unfold linkReg R.nylLinkStat R.nylGangState; omega)
      (by unfold linkReg R.nylLinkStat R.mirState; omega)
  exact (if_pos rfl).trans (if_neg (not_and_of_not_left _ (hsame.timSource.trans_ne htim)))

/-- A packet's report is kept with the older ones that are still wanted. -/
def addReport (r : RxRt) (seq : Nat) (x : Bool × Nat) : Tab (Bool × Nat) :=
  tabSet (r.reports.filter fun e => r.waits.contains e.1 || !r.decided.contains e.1) seq x

theorem doPresenceReport_taken {r : RxRt} (h : taken mkPresence m s = true) (hfrom : fromPartner s m = true)
    (hr : rxNewest s (m.args.getD 0 0) s.tick = some r) (hnew : tabGet r.reports (m.args.getD 1 0) = none)
    (hwait : r.waits.contains (m.args.getD 1 0) = false) :
    doPresenceReport m s = s.putRx (m.args.getD 0 0)
      { r with reports := addReport r (m.args.getD 1 0) (m.args.getD 2 0 == 1, m.args.getD 3 0) } := by
  have hask : (m.kind == mkAsk) = false := by
    rw [kind_of_taken h]
    rfl
  unfold doPresenceReport
  dsimp only
  rw [hask]
  simp only [Bool.false_eq_true, if_false]
  rw [takeMsg_plain h rfl]
  dsimp only
  rw [hfrom, hr]
  dsimp only
  rw [hnew, hwait]
  rfl

theorem doFillPayload_serial (h : taken mkSerial m s = true) (hfrom : fromPartner s m = true) (hport : m.args.getD 0 0 < 32)
    (hpref : isPref s = false) (hrel : s.str.relT ≤ m.args.getD 1 0) :
    doFillPayload m s = s.setPort (m.args.getD 0 0) { s.port (m.args.getD 0 0) with
      fill := tabSet (s.port (m.args.getD 0 0)).fill (m.args.getD 1 0)
        (signedOf 32 (m.args.getD 2 0), signedOf 32 (m.args.getD 3 0)) } := by
  have hser : (m.kind == mkSerial) = true := by
    rw [kind_of_taken h]
    rfl
  unfold doFillPayload
  dsimp only
  rw [hser]
  simp only [if_true]
  rw [takeMsg_plain h rfl]
  dsimp only
  rw [hfrom]
  exact (if_pos rfl).trans (if_pos ⟨hport, hpref, hrel⟩)

theorem doDoorbellMessage_taken (h : taken mkDoorbell m s = true) (hus : forUs m s = true) :
    doDoorbellMessage m s = ringSource (gotMsg m s) (m.args.getD 1 0 % 512) := by
  unfold doDoorbellMessage
  rw [takeMsg_taken h]
  dsimp only
  rw [gangTake_forUs (forUs_gotMsg.trans hus)]
  rfl

theorem doSnapshotTriggerMessage_taken (h : taken mkSnapshot m s = true) (hus : forUs m s = true) :
    doSnapshotTriggerMessage m s = { gotMsg m s with
      snp := { (gotMsg m s).snp with gang := (gotMsg m s).snp.gang ++ [(m.args.getD 1 0, m.args.getD 2 0)] } } := by
  unfold doSnapshotTriggerMessage
  rw [takeMsg_taken h]
  dsimp only
  rw [gangTake_forUs (forUs_gotMsg.trans hus)]
  rfl

/-! ### Discovery (R447, R453) -/

theorem doDiscovery_back (h : taken mkDiscovery m s = true) (hx : m.args.getD 0 0 = 0) :
    doDiscovery m s = { gotMsg m s with nyl := { (gotMsg m s).nyl with ringSeen := true } } := by
  unfold doDiscovery
  rw [takeMsg_taken h]
  exact if_pos hx

theorem doDiscovery_partner (h : taken mkDiscovery m s = true) (hx : m.args.getD 0 0 = 16) :
    doDiscovery m s = sendOn (gotMsg m s) m.link mkAnswer ([0, 16] ++ answerArgs s) [] := by
  unfold doDiscovery
  rw [takeMsg_taken h]
  simp only [hx]
  rfl

theorem doDiscoveryAnswer_taken (h : taken mkAnswer m s = true) :
    doDiscoveryAnswer m s =
      (let u := ((gotMsg m s).setNat (linkReg m.link 8) (m.args.getD 2 0)).setNat (linkReg m.link 0xC) (m.args.getD 2 0 / 2 ^ 32)
       if m.args.getD 1 0 = 16 then { u with mir := { u.mir with answer := some (answerOf m.args) } }
       else { u with nyl := { u.nyl with answers := tabSet u.nyl.answers (m.args.getD 1 0) (answerOf m.args) } }) := by
  unfold doDiscoveryAnswer
  rw [takeMsg_taken h]
  rfl

/-! ### Resending (R442) -/

/-- Messages sent again, oldest first. -/
def emitAll (l : Nat) (xs : List LinkMsg) (s : State) : State := xs.foldl (fun s x => s.emit (.link l x)) s

theorem emitAll_nyl (l : Nat) (xs : List LinkMsg) (s : State) : (emitAll l xs s).nyl = s.nyl :=
  foldl_keeps (P := fun u : State => u.nyl = s.nyl) (f := fun s x => s.emit (.link l x)) xs (fun _ _ _ h => h) rfl

theorem emitAll_keeps (l : Nat) (xs : List LinkMsg) {s : State} {o : Out} (h : o ∈ s.outbox) : o ∈ (emitAll l xs s).outbox :=
  foldl_keeps (P := fun u : State => o ∈ u.outbox) xs (fun _ _ _ hu => List.mem_cons_of_mem _ hu) h

theorem emitAll_sends (l : Nat) {xs : List LinkMsg} {x : LinkMsg} (hx : x ∈ xs) (s : State) :
    Out.link l x ∈ (emitAll l xs s).outbox := by
  induction xs generalizing s with
  | nil => cases hx
  | cons y ys ih =>
    obtain rfl | hx := List.mem_cons.mp hx
    · exact emitAll_keeps l ys (s := s.emit (.link l x)) List.mem_cons_self
    · exact ih hx _

theorem doResendRequest_taken (h : taken mkResend m s = true) : ∃ n, doResendRequest m s =
    (emitAll m.link ((tabGetD s.nyl.sent (8 * m.link + m.args.getD 0 0) []).dropWhile fun x => x.seq != m.args.getD 1 0) s).inc
      (linkReg m.link 0x14) n := by
  unfold doResendRequest
  rw [takeMsg_plain h rfl]
  exact ⟨_, rfl⟩

end

/-! ### Links up and down (R443) -/

theorem linkReg_ne (l off : Nat) {a : Nat} (h : a < R.nylLinkStat) : linkReg l off ≠ a := by
  unfold linkReg
  omega

theorem le_linkReg (l off : Nat) : 0x30000 ≤ linkReg l off := by
  unfold linkReg R.nylLinkStat
  omega

theorem linkUp_of_reg {s t : State} {l : Nat} (h : t.reg (linkReg l 0) = s.reg (linkReg l 0)) : linkUp t l = linkUp s l := by
  rw [linkUp, linkUp, State.field, State.field, h]

/-- What the loss of members changes of the registers: the count of them and their event. -/
theorem memberLost_reg (s : State) (m : Nat) {a : Nat} (hlow : 0x30000 ≤ a) (hc : a ≠ R.nylCntMemberLost) (he : a ≠ R.nylEvtStatus) :
    (memberLost s m).reg a = s.reg a := by
  unfold memberLost
  split
  · rfl
  · rw [nylEvt, reg_evt_ne _ _ (by decide) he (.inr ((by decide : 0x20140 ≤ 0x30000).trans hlow)), reg_inc_ne _ _ hc]
    rfl

theorem memberLost_event (s : State) (m : Nat) {i : Nat} (h : s.bit R.nylEvtStatus i = true) :
    (memberLost s m).bit R.nylEvtStatus i = true := by
  unfold memberLost
  split
  · exact h
  · refine bit_evt_keep _ _ (by decide) (.inr (by decide)) ?_
    rw [State.bit, reg_inc_ne _ _ (by decide)]
    exact h

theorem loseUnreachable_reg (s : State) {a : Nat} (hlow : 0x30000 ≤ a) (hc : a ≠ R.nylCntMemberLost) (he : a ≠ R.nylEvtStatus) :
    (loseUnreachable s).reg a = s.reg a := by
  unfold loseUnreachable
  split
  · refine foldl_keeps (P := fun u : State => u.reg a = s.reg a) _ (fun u m _ hu => ?_) rfl
    split
    · exact hu
    · exact (memberLost_reg u m hlow hc he).trans hu
  · rfl

theorem loseUnreachable_event (s : State) {i : Nat} (h : s.bit R.nylEvtStatus i = true) :
    (loseUnreachable s).bit R.nylEvtStatus i = true := by
  unfold loseUnreachable
  split
  · refine foldl_keeps (P := fun u : State => u.bit R.nylEvtStatus i = true) _ (fun u m _ hu => ?_) h
    split
    · exact hu
    · exact memberLost_event u m hu
  · exact h

/-- Noting the state of the pair links is no matter of the registers or of the links. -/
theorem notePairLinks_same (s : State) : notePairLinks s = { s with mir := (notePairLinks s).mir } := by
  unfold notePairLinks
  split
  · rfl
  · split <;> rfl

theorem notePairLinks_reg (s : State) (a : Nat) : (notePairLinks s).reg a = s.reg a := by
  rw [notePairLinks_same]
  rfl

theorem notePairLinks_bit (s : State) (a i : Nat) : (notePairLinks s).bit a i = s.bit a i := by
  rw [State.bit, State.bit, notePairLinks_reg]

theorem notePairLinks_nyl (s : State) : (notePairLinks s).nyl = s.nyl := (congrArg State.nyl (notePairLinks_same s) :)

/-- A link that loses lock is down. -/
theorem linkDown_off {l : Nat} {s : State} (h : linkUp s l = true) :
    (linkDown s l).reg (linkReg l 0) = 0 ∧ (linkDown s l).bit R.nylEvtStatus 0 = true := by
  have hinc : linkReg l 0 ≠ linkReg l 0x18 := by
    unfold linkReg
    omega
  have hev : linkReg l 0 ≠ R.nylEvtStatus := linkReg_ne l 0 (by decide)
  unfold linkDown
  rw [if_pos h]
  dsimp only
  constructor
  · rw [loseUnreachable_reg _ (le_linkReg l 0) (linkReg_ne l 0 (by decide)) hev, notePairLinks_reg, nylEvt,
      reg_evt_ne _ _ (by decide) hev (.inr ((by decide : 0x20140 ≤ 0x30000).trans (le_linkReg l 0))), reg_inc_ne _ _ hinc, reg_setReg_self]
  · refine loseUnreachable_event _ ?_
    rw [notePairLinks_bit]
    exact bit_evt_self _ _ (by decide) (.inr (by decide))

theorem linkUp_of_zero {l : Nat} {s : State} (h : s.reg (linkReg l 0) = 0) : linkUp s l = false := by
  rw [linkUp, State.field, h, Bool.and_eq_false_iff]
  exact .inr rfl

/-- The state of a link that has trained: UP, its lanes, its numbers starting again. -/
def trainedLink (l : Nat) (s : State) : State :=
  let fresh : State := { s with nyl := { s.nyl with
    tx := s.nyl.tx.filter fun e => e.1 / 8 != l
    rx := s.nyl.rx.filter fun e => e.1 / 8 != l
    sent := s.nyl.sent.filter fun e => e.1 / 8 != l } }
  notePairLinks (nylEvt (fresh.setNat (linkReg l 0) (2 + 16 * (if l < 2 then 15 else 3))) 0)

/-- The partner hears of it on a pair link. -/
def tellTrained (l : Nat) (s : State) : State := if fromPartner s { link := l } then tellPartner s 0 0 else s

theorem linkOnly_tellTrained (l : Nat) (s : State) : LinkOnly s (tellTrained l s) := by
  unfold tellTrained
  split
  · exact linkOnly_tellPartner ..
  · exact .refl s

theorem doLinkTrained_trains {l : Nat} {s : State} (hon : linkOn s.mapCm l = true) (hup : linkUp s l = false) :
    doLinkTrained l s = tellTrained l (trainedLink l s) := if_pos (by rw [hon, hup]; rfl)

theorem tabGet_filter_none {α : Type} (t : Tab α) {l k : Nat} (h : k / 8 = l) : tabGet (t.filter fun e => e.1 / 8 != l) k = none := by
  induction t with
  | nil => rfl
  | cons e t ih =>
    obtain ⟨j, v⟩ := e
    by_cases hj : j / 8 = l
    · rw [List.filter_cons_of_neg (by rw [hj, bne_self_eq_false]; decide)]
      exact ih
    · rw [List.filter_cons, if_pos (bne_iff_ne.mpr hj)]
      exact (if_neg (by rw [beq_iff_eq]; rintro rfl; exact hj h)).trans ih

theorem trainedLink_up {l : Nat} (hl : l < 6) (s : State) :
    linkUp (trainedLink l s) l = true ∧ (trainedLink l s).bit R.nylEvtStatus 0 = true ∧
      ∀ k, k / 8 = l → tabGet (trainedLink l s).nyl.rx k = none := by
  have hreg : (trainedLink l s).reg (linkReg l 0) = wd (2 + 16 * (if l < 2 then 15 else 3)) := by
    rw [trainedLink, notePairLinks_reg, nylEvt, reg_evt_ne _ _ (by decide) (linkReg_ne l 0 (by decide))
      (.inr ((by decide : 0x20140 ≤ 0x30000).trans (le_linkReg l 0))), reg_setNat_self]
  refine ⟨?_, ?_, fun k hk => ?_⟩
  · rw [linkUp, State.field, hreg]
    interval_cases l <;> rfl
  · rw [trainedLink, notePairLinks_bit]
    exact bit_evt_self _ _ (by decide) (.inr (by decide))
  · rw [trainedLink, notePairLinks_nyl, nylEvt, evt_nyl]
    exact tabGet_filter_none _ hk

end Sys2Proof.Machine
end

section
/-! PROOFS. What follows a leader (R450, R451, R454): staged packets, ADMIT, VERDICT and COMMIT at a copy. -/

namespace Sys2Proof.Machine

open Sys2Proof.Claims

/-! ### Copies of the leader's transactions -/

theorem copyOf_of_cmd {s t : State} (h : t.cmd = s.cmd) (n : Nat) : copyOf t n = copyOf s n := by rw [copyOf, copyOf, h]

/-- The copy that is put back is found again. -/
theorem copyOf_putTxn {s : State} {n : Nat} {c u : Txn} (hc : copyOf s n = some c) (hnum : u.num = c.num) (hlead : u.lead = some n) :
    copyOf (s.putTxn u) n = some u :=
  find?_map_replace hc (beq_iff_eq.mpr hnum.symm) (by rw [hlead, beq_self_eq_true])

theorem lead_of_copyOf {s : State} {n : Nat} {c : Txn} (hc : copyOf s n = some c) : c.lead = some n :=
  beq_iff_eq.mp (List.find?_some hc :)

theorem needCopy_of_copy {s : State} {n : Nat} {c : Txn} (hc : copyOf s n = some c) (id : Nat) : needCopy s n id = (s, c) := by
  unfold needCopy
  rw [hc]

/-- A copy of transaction `n` as it is made. -/
def freshCopy (s : State) (n id : Nat) : Txn := { num := s.cmd.txnNum, id := id, lead := some n, used := s.clk, phase := .accepted }

/-- The state with a new transaction at the end of its list. -/
def withTxn (s : State) (t : Txn) : State :=
  { s with cmd := { s.cmd with txnNum := s.cmd.txnNum + 1, txns := s.cmd.txns ++ [t] } }

theorem needCopy_of_none {s : State} {n : Nat} (hc : copyOf s n = none) (id : Nat) :
    needCopy s n id = ((withTxn s { freshCopy s n id with phase := .open_ }).putTxn (freshCopy s n id), freshCopy s n id) := by
  unfold needCopy
  rw [hc]
  rfl

theorem copyOf_withTxn {s : State} {n : Nat} {t : Txn} (hc : copyOf s n = none) (ht : t.lead = some n) :
    copyOf (withTxn s t) n = some t := by
  have hlast : List.find? (fun u : Txn => u.lead == some n) [t] = some t := by
    rw [List.find?_cons_of_pos]
    rw [ht, beq_self_eq_true]
  show List.find? _ (s.cmd.txns ++ [t]) = some t
  rw [List.find?_append, (show List.find? _ s.cmd.txns = none from hc), hlast]
  rfl

/-- The copy is there after it was needed; nothing but the list of transactions has changed. -/
theorem needCopy_finds (s : State) (n id : Nat) :
    copyOf (needCopy s n id).1 n = some (needCopy s n id).2 ∧ (needCopy s n id).1 = { s with cmd := (needCopy s n id).1.cmd } := by
  rcases hc : copyOf s n with _ | c
  · rw [needCopy_of_none hc]
    exact ⟨copyOf_putTxn (copyOf_withTxn (t := { freshCopy s n id with phase := .open_ }) hc rfl) rfl rfl, rfl⟩
  · rw [needCopy_of_copy hc]
    exact ⟨hc, rfl⟩

section
variable {m : LinkMsg} {c : Txn} {s : State}

theorem gangRole_gotMsg : gangRole (gotMsg m s) = gangRole s := gotMsg_field ..

theorem epochsFrom_gotMsg : epochsFrom (gotMsg m s) m = epochsFrom s m := by
  rw [gotMsg_same]
  rfl

/-! ### Staged packets (R450) -/

theorem doStagedCommand_taken (h : taken mkStaged m s = true) (hus : forUs m s = true) (hep : epochsFrom s m = true)
    (hrole : gangRole s ≠ 1) (hc : copyOf s (m.args.getD 1 0) = some c) :
    doStagedCommand m s = (gotMsg m s).putTxn { c with
      packets := c.packets ++ [{ op := m.args.getD 3 0, payload := m.bytes, depth := m.args.getD 4 0, path := m.args.getD 5 0 }]
      fw := m.args.getD 6 0 == 1 } := by
  have hcopy : copyOf (gotMsg m s) (m.args.getD 1 0) = some c := (copyOf_of_cmd (gotMsg_cmd m s) _).trans hc
  have hinner : ∀ u : Txn, gangRole ((gotMsg m s).putTxn u) ≠ 1 := fun _ => gangRole_gotMsg.trans_ne hrole
  unfold doStagedCommand
  rw [fromLead_taken h hus]
  dsimp only
  rw [epochsFrom_gotMsg, hep]
  refine (if_pos rfl).trans ?_
  rw [needCopy_of_copy hcopy]
  dsimp only
  rw [if_neg (hinner _)]
  rfl

/-! ### Verdicts (R450) -/

theorem sendLead_cmd (s : State) (kind : Nat) (args : List Nat) (bytes : List Byte) : (sendLead s kind args bytes).cmd = s.cmd :=
  (linkOnly_sendLead s kind args bytes).cmd

/-- An inner module decides a copy: the verdict stands in the copy, which waits for COMMIT where it passed. -/
theorem decideTxn_copy {n : Nat} (hc : copyOf s n = some c) {t : Txn} (hnum : t.num = c.num) (hlead : t.lead = some n)
    (hrole : gangRole s ≠ 1) :
    copyOf (decideTxn s t) n = some { t with
      verdict := (combine t).1
      undecided := false
      awaits := []
      needGo := (combine t).1.ok } := by
  have hput := copyOf_putTxn (u := { t with
    verdict := (combine t).1
    undecided := false
    awaits := []
    needGo := (combine t).1.ok }) hc hnum hlead
  unfold decideTxn
  dsimp only
  rw [hlead] at hput ⊢
  dsimp only
  rw [copyOf_of_cmd (sendLead_cmd ..)]
  split
  · rw [if_neg hrole]
    exact hput
  · exact hput

/-- A copy as ADMIT judges it at a module that leads nobody. -/
def judgedCopy (m : LinkMsg) (s : State) (c : Txn) : Txn :=
  let t := { c with
    boundary := m.args.getD 2 0
    lateMax := m.args.getD 4 0
    regs := (listOf 2 (leBytes 4 (m.bytes.length / 8) ++ m.bytes)).map fun w => ((wAt w 0).toNat, wAt w 1)
    kinds := if c.fw then [2] else [] }
  let j := judge (caseOf s (followScratch s t.boundary) t t.boundary) (m.args.getD 3 0) t.lateMax (jnlFull s (recSize t.packets t.regs))
  { t with verdict := j.1, peaks := j.2, awaits := [], undecided := false }

theorem doAdmitMsg_taken (h : taken mkAdmit m s = true) (hus : forUs m s = true) (hlate : s.tick < m.args.getD 2 0)
    (hrole : gangRole (needCopy (gotMsg m s) (m.args.getD 1 0) (m.args.getD 5 0)).1 ≠ 1) :
    doAdmitMsg m s =
      (let c := needCopy (gotMsg m s) (m.args.getD 1 0) (m.args.getD 5 0)
       decideTxn (c.1.putTxn (judgedCopy m c.1 c.2)) (judgedCopy m c.1 c.2)) := by
  unfold doAdmitMsg
  rw [fromLead_taken h hus]
  dsimp only
  rw [gotMsg_tick, decide_eq_true hlate]
  refine (if_pos rfl).trans ?_
  rw [if_neg hrole]
  rfl

/-- What a module that leads nobody leaves of an ADMIT. -/
theorem doAdmitMsg_copy (h : taken mkAdmit m s = true) (hus : forUs m s = true) (hlate : s.tick < m.args.getD 2 0)
    (hrole : gangRole s ≠ 1) :
    ∃ b, copyOf (doAdmitMsg m s) (m.args.getD 1 0) = some b ∧ b.boundary = m.args.getD 2 0 ∧ b.lateMax = m.args.getD 4 0 ∧
      b.undecided = false ∧ b.needGo = b.verdict.ok := by
  obtain ⟨hfind, hsame⟩ := needCopy_finds (gotMsg m s) (m.args.getD 1 0) (m.args.getD 5 0)
  have hneed : gangRole (needCopy (gotMsg m s) (m.args.getD 1 0) (m.args.getD 5 0)).1 ≠ 1 := by
    rw [hsame]
    exact gangRole_gotMsg.trans_ne hrole
  have hlead := lead_of_copyOf hfind
  rw [doAdmitMsg_taken h hus hlate hneed]
  exact ⟨_, decideTxn_copy (copyOf_putTxn (u := judgedCopy m _ _) hfind rfl hlead) rfl hlead hneed, rfl, rfl, rfl, rfl⟩

/-- A verdict that was awaited is noted, and what can be decided is. -/
theorem doVerdict_awaited {a : Txn} (h : taken mkVerdict m s = true) (hus : forUs m s = true)
    (ha : s.cmd.txns.find? (fun t => t.undecided && (t.lead.getD t.num == m.args.getD 1 0)) = some a)
    (hin : a.awaits.contains (m.args.getD 2 0) = true) :
    doVerdict m s = decideReady false ((gotMsg m s).putTxn { a with
      awaits := a.awaits.filter (· != m.args.getD 2 0)
      votes := a.votes ++ [(m.args.getD 2 0, m.args.getD 3 0, verdictOf (m.args.drop 4))] }) := by
  unfold doVerdict
  rw [fromLead_taken h hus]
  dsimp only
  rw [gotMsg_cmd, ha]
  exact if_pos hin

/-- A refusal from above drops the copy. -/
theorem doVerdict_refusal (h : taken mkVerdict m s = true) (hus : forUs m s = true) (hdec : ∀ a ∈ s.cmd.txns, a.undecided = false)
    (hc : copyOf s (m.args.getD 1 0) = some c) (hvotes : c.votes = []) : doVerdict m s = (gotMsg m s).dropTxn c.num := by
  have hnone : s.cmd.txns.find? (fun t => t.undecided && (t.lead.getD t.num == m.args.getD 1 0)) = none :=
    List.find?_eq_none.mpr fun a ha => by rw [hdec a ha, Bool.false_and]; decide
  unfold doVerdict
  rw [fromLead_taken h hus]
  dsimp only
  rw [gotMsg_cmd, hnone, (copyOf_of_cmd (gotMsg_cmd m s) _).trans hc]
  dsimp only
  unfold tellDecision
  rw [hvotes]
  rfl

theorem doVerdictTimeout_decided (h : ∀ a ∈ s.cmd.txns, a.undecided = false) : doVerdictTimeout s = s := by
  have hnone : s.cmd.txns.filter (·.undecided) = [] := List.filter_eq_nil_iff.mpr fun a ha => by rw [h a ha]; decide
  unfold doVerdictTimeout
  rw [hnone]
  rfl

/-- The end of the wait decides everything; a partner that did not answer is no member that is lost. -/
theorem doVerdictTimeout_partner {a : Txn} (ha : a ∈ s.cmd.txns) (hund : a.undecided = true)
    (hwait : ∀ b ∈ s.cmd.txns, b.undecided = true → ∀ v ∈ b.awaits, v = partnerId) (hdue : s.dueOk (s.tickClk + 750000) = true) :
    doVerdictTimeout s = decideReady true (s.atClk (s.tickClk + 750000)) := by
  have hne : (s.cmd.txns.filter (·.undecided)).isEmpty = false :=
    List.isEmpty_eq_false_iff_exists_mem.mpr ⟨a, List.mem_filter.mpr ⟨ha, hund⟩⟩
  have hmute : ((s.cmd.txns.filter (·.undecided)).flatMap (·.awaits)).filter (· != partnerId) = [] := by
    refine List.filter_eq_nil_iff.mpr fun v hv => ?_
    obtain ⟨b, hb, hvb⟩ := List.mem_flatMap.mp hv
    obtain ⟨hb, hbund⟩ := List.mem_filter.mp hb
    rw [hwait b hb hbund v hvb]
    decide
  unfold doVerdictTimeout
  dsimp only
  rw [hne, hdue, hmute]
  rfl

/-! ### COMMIT (R450, R451) -/

/-- A verdict that is final here stands in the copy. -/
theorem conclude_copy {n : Nat} (hc : copyOf s n = some c) {t : Txn} (hnum : t.num = c.num) (hlead : t.lead = some n) (v : Verdict) :
    ∃ b, copyOf (conclude s t v) n = some b ∧ b.boundary = t.boundary ∧ b.needGo = t.needGo ∧
      b.phase = if v.ok then .admitted else .refused := by
  unfold conclude
  dsimp only
  split
  case isTrue hok => exact ⟨_, copyOf_putTxn (copyOf_of_cmd (s := s) rfl n ▸ hc) hnum hlead, rfl, rfl, rfl⟩
  case isFalse hok => exact ⟨_, copyOf_putTxn hc hnum hlead, rfl, rfl, rfl⟩

theorem doCommit_taken (h : taken mkCommit m s = true) (hus : forUs m s = true) (hc : copyOf s (m.args.getD 1 0) = some c)
    (hph : c.phase = .accepted) (hlate : s.tick < m.args.getD 2 0) (hvotes : c.votes = []) :
    doCommit m s = conclude (gotMsg m s) { c with boundary := m.args.getD 2 0, needGo := false } c.verdict := by
  unfold doCommit
  rw [fromLead_taken h hus]
  dsimp only
  rw [(copyOf_of_cmd (gotMsg_cmd m s) _).trans hc]
  dsimp only
  rw [hph, gotMsg_tick, decide_eq_true hlate]
  refine (if_pos rfl).trans ?_
  unfold tellDecision
  dsimp only
  rw [hvotes]
  rfl

end

end Sys2Proof.Machine
end

section
/-! PROOFS. Pairs and gangs (R451, R458 to R468): digests, the loss of a partner, replay, priming and verification. Obligation O52. -/

namespace Sys2Proof.Machine

open Sys2Proof.Claims

/-! ### The state of the pair -/

theorem mirSt_of_reg {s t : State} (h : t.reg R.mirState = s.reg R.mirState) : mirSt t = mirSt s := by
  rw [mirSt, mirSt, State.field, State.field, h]

theorem isPref_of_reg {s t : State} (h : t.reg R.mirState = s.reg R.mirState) : isPref t = isPref s := by
  rw [isPref, isPref, State.bit, State.bit, h]

theorem setMir_mirSt (s : State) {st : Nat} (h : st < 16) : mirSt (setMir s st) = st := by
  rw [mirSt, (linkOnly_setMir s st).field, field_setField_self _ _ _ (by decide) (by decide)]
  exact Nat.mod_eq_of_lt h

theorem setMir_mir (s : State) (st : Nat) : (setMir s st).mir = s.mir := (linkOnly_setMir s st).mir

theorem mirEvt_mirState (s : State) {b : Nat} (hb : b < 32) : (mirEvt s b).reg R.mirState = s.reg R.mirState :=
  reg_evt_ne s _ hb (by decide) (.inr (by decide))

theorem enterHoldover_mir (s : State) : (enterHoldover s).mir = s.mir := by
  by_cases h : tSt s = 2 ∨ tSt s = 3
  · rw [enterHoldover_of h, evt_mir, toHoldover_same]
  · rw [enterHoldover_not h]

/-- The unit that becomes PREFERRED keeps its place in the pair and what it knows of the partner. -/
theorem becomePref_pref (s : State) :
    isPref (becomePref s) = true ∧ mirSt (becomePref s) = mirSt s ∧ (becomePref s).mir = s.mir := by
  by_cases hp : isPref s = true
  · rw [becomePref, if_pos hp]
    exact ⟨hp, rfl, rfl⟩
  · rw [becomePref, if_neg hp]
    have hreg : (timView (enterHoldover (mirEvt ((dropCopies s).setBit R.mirState 4 true) 2))).reg R.mirState =
        ((dropCopies s).setBit R.mirState 4 true).reg R.mirState := by
      rw [timView_reg _ (by decide), enterHoldover_reg _ (by decide) (by decide) (by decide) (by decide) (by decide),
        mirEvt_mirState _ (by decide)]
    refine ⟨?_, ?_, ?_⟩
    · rw [isPref_of_reg hreg]
      exact bit_setBit_self _ _ _ (by decide)
    · rw [mirSt_of_reg hreg]
      exact field_setBit_below _ _ _ (by decide) (by decide) (by decide)
    · rw [timView_same]
      exact (enterHoldover_mir _).trans (evt_mir ..)

/-- What a unit that sends leaves when its partner is lost. -/
structure Survives (t : State) : Prop where
  solo : mirSt t = 3
  pref : isPref t = true
  own : t.mir.own = []
  partner : t.mir.partner = 0

/-- The pair's own state as it forgets the partner. -/
def forgetPartner (s : State) : State :=
  { s with mir := { s.mir with
    losses := s.mir.losses + 1
    missing := 0
    partner := 0
    own := []
    theirs := []
    downFrom := none } }

theorem partnerLost_sending {s : State} (h : mirSt s = 2) :
    partnerLost s = becomePref (setMir (mirEvt ((forgetPartner s).setBit R.mirState 6 false) 3) 3) := by
  unfold partnerLost
  dsimp only
  rw [if_pos (.inl h), if_neg (fun hc => absurd (h.symm.trans hc.1) (by decide))]
  rfl

theorem partnerLost_survives {s : State} (h : mirSt s = 2) : Survives (partnerLost s) := by
  obtain ⟨hpref, hst, hmir⟩ := becomePref_pref (setMir (mirEvt ((forgetPartner s).setBit R.mirState 6 false) 3) 3)
  rw [setMir_mir, mirEvt, evt_mir] at hmir
  rw [partnerLost_sending h]
  exact ⟨hst.trans (setMir_mirSt _ (by decide)), hpref, congrArg MirRt.own hmir, congrArg MirRt.partner hmir⟩

/-- A state that survives stays so as it settles. -/
theorem Survives.settled {u t : State} (h : Survives u) (ht : Settled u t) :
    mirSt t = 3 ∧ isPref t = true ∧ t.mir.own = [] ∧ t.mir.partner = 0 := by
  have hreg := settled_regHigh ht (a := R.mirState) (by decide)
  obtain ⟨hsolo, hpref, hown, hpartner⟩ := h
  exact ⟨(mirSt_of_reg hreg).trans hsolo, (isPref_of_reg hreg).trans hpref, by rw [ht.mir, hown], by rw [ht.mir, hpartner]⟩

/-! ### Digests (R458) -/

section
variable {m : LinkMsg} {s : State}

theorem doDigest_known (h : taken mkDigest m s = true) (hfrom : fromPartner s m = true) (hst : inStep (mirSt s) = true)
    (hany : s.mir.theirs.any (·.1 == m.args.getD 1 0) = true) : doDigest m s = s := by
  unfold doDigest
  rw [takeMsg_plain h rfl]
  dsimp only
  rw [hfrom, hst, hany]
  rfl

theorem compareDigest_alone {tick : Nat} (h : s.mir.own.find? (·.1 == tick) = none) : compareDigest tick s = s := by
  unfold compareDigest
  rw [h]

theorem doDigest_early (h : taken mkDigest m s = true) (hfrom : fromPartner s m = true) (hst : inStep (mirSt s) = true)
    (hany : s.mir.theirs.any (·.1 == m.args.getD 1 0) = false) (hown : s.mir.own.find? (·.1 == m.args.getD 1 0) = none) :
    doDigest m s = { s with mir := { s.mir with
      theirs := (s.mir.theirs ++ [(m.args.getD 1 0, m.args)]).filter fun e => decide (s.tick ≤ e.1 + 8) } } := by
  unfold doDigest
  rw [takeMsg_plain h rfl]
  dsimp only
  rw [hfrom, hst, hany]
  exact compareDigest_alone hown

theorem doDigestTimeout_none (h : s.mir.own = []) : doDigestTimeout s = s := by
  unfold doDigestTimeout
  rw [h]

/-- The state once the oldest digest is given up. -/
def missDigest (s : State) (due : Nat) (rest : List (Nat × Nat × List Nat)) : State :=
  let u := (s.atClk due).inc R.mirCntDigTo
  { u with mir := { u.mir with own := rest, missing := s.mir.missing + 1 } }

theorem missDigest_mirSt (due : Nat) (rest : List (Nat × Nat × List Nat)) : mirSt (missDigest s due rest) = mirSt s :=
  mirSt_of_reg (reg_inc_ne (s.atClk _) 1 (by decide))

theorem missDigest_lossTicks (due : Nat) (rest : List (Nat × Nat × List Nat)) :
    (missDigest s due rest).field R.mirLossTicks 7 0 = s.field R.mirLossTicks 7 0 := by
  have hreg : (missDigest s due rest).reg R.mirLossTicks = s.reg R.mirLossTicks := reg_inc_ne (s.atClk _) 1 (by decide)
  rw [State.field, State.field, hreg]

theorem doDigestTimeout_due {o : Nat × Nat × List Nat} {rest : List (Nat × Nat × List Nat)} (h : s.mir.own = o :: rest)
    (hdue : s.dueOk (o.2.1 + s.field R.mirDigTo 19 0) = true) :
    doDigestTimeout s =
      let u := missDigest s (o.2.1 + s.field R.mirDigTo 19 0) rest
      if s.field R.mirLossTicks 7 0 ≤ s.mir.missing + 1 then partnerLost u else u := by
  have hticks := missDigest_lossTicks (s := s) (o.2.1 + s.field R.mirDigTo 19 0) rest
  rw [← hticks]
  unfold doDigestTimeout
  rw [h]
  exact if_pos hdue

/-! ### DOWN notices and lost members -/

theorem doPairLinksDown_due {k : Nat} (h : s.mir.downFrom = some k) (hk : k + s.field R.mirLossTicks 7 0 ≤ s.tick) :
    doPairLinksDown s = partnerLost s := by
  unfold doPairLinksDown
  rw [h]
  exact if_pos hk

theorem doPairLinksDown_none (h : s.mir.downFrom = none) : doPairLinksDown s = s := by
  unfold doPairLinksDown
  rw [h]

theorem doDownNotice_partner (h : taken mkDown m s = true) (hfrom : fromPartner s m = true) :
    doDownNotice m s = partnerLost (gotMsg m s) := by
  unfold doDownNotice
  rw [takeMsg_taken h]
  exact if_pos hfrom

theorem memberLost_known {k : Nat} {x : MemberSt} (hx : tabGet s.nyl.members k = some x) (hph : x.phase ≠ 4) :
    memberLost s k = ((putMember s k { x with phase := 4 }).inc R.nylCntMemberLost).evt R.nylEvtStatus 2 := by
  have hmem : s.member k = x := by
    rw [State.member, tabGetD, hx]
    rfl
  unfold memberLost
  rw [hmem, hx]
  exact if_neg (not_or.mpr ⟨Bool.false_ne_true, hph⟩)

theorem doDownNotice_member {x : MemberSt} (h : taken mkDown m s = true) (hfrom : fromPartner s m = false) (hrole : gangRole s = 1)
    (hme : m.args.getD 0 0 = gangMe s) (hx : tabGet s.nyl.members (m.args.getD 1 0) = some x) (hph : x.phase ≠ 4) :
    doDownNotice m s =
      ((putMember (gotMsg m s) (m.args.getD 1 0) { x with phase := 4 }).inc R.nylCntMemberLost).evt R.nylEvtStatus 2 := by
  have hus : forUs m (gotMsg m s) = true := by
    rw [forUs_gotMsg, forUs, hme, beq_self_eq_true, Bool.or_true]
  unfold doDownNotice
  rw [takeMsg_taken h]
  dsimp only
  rw [hfrom, gangTake_forUs hus, hrole]
  refine memberLost_known ?_ hph
  rw [gotMsg_members]
  exact hx

/-! ### COMMIT_MISSING (R451) -/

theorem doCommitMissing_none (h : missingGo s = []) : doCommitMissing s = s := by
  unfold doCommitMissing
  rw [h]
  rfl

/-- The transactions left when the copies without a COMMIT are dropped. -/
def dropMissing (s : State) : State := s.setTxns (s.cmd.txns.filter fun t => !((missingGo s).any fun u => u.num == t.num))

theorem doCommitMissing_drops (h : missingGo s ≠ []) (hrole : gangRole s ≠ 2) : doCommitMissing s = dropMissing s := by
  unfold doCommitMissing
  dsimp only
  rw [if_neg (by rw [List.isEmpty_iff]; exact h)]
  exact if_neg hrole

/-- A member that fell out of step, before it asks its leader for the replay. -/
def outOfStep (s : State) : State :=
  let u := nylEvt ((s.setField R.nylGangState 26 24 3).inc R.nylCntDesync) 3
  { u with mir := { u.mir with
    based := false
    target := none
    joinAt := none
    loads := []
    copies := none
    got := 0 } }

theorem doCommitMissing_member (h : missingGo s ≠ []) (hrole : gangRole s = 2) :
    doCommitMissing s = tellLeader (outOfStep (dropMissing s)) 1 0 := by
  unfold doCommitMissing
  dsimp only
  rw [if_neg (by rw [List.isEmpty_iff]; exact h)]
  exact if_pos hrole

theorem outOfStep_gangSt : gangSt (outOfStep s) = 3 := by
  have hreg : (outOfStep s).reg R.nylGangState = (s.setField R.nylGangState 26 24 3).reg R.nylGangState :=
    (reg_evt_ne _ _ (by decide) (by decide) (.inr (by decide))).trans (reg_inc_ne _ 1 (by decide))
  rw [gangSt, State.field, hreg]
  exact field_setField_self s R.nylGangState 3 (by decide) (by decide)

/-! ### Replay (R466) -/

theorem replaying_gotMsg : replaying (gotMsg m s) = replaying s := by
  rw [gotMsg_same]
  rfl

theorem doJournalMessage_idle (h : taken mkJournal m s = true) (hus : forUs m s = true) (hrep : replaying s = false) :
    doJournalMessage m s = gotMsg m s := by
  unfold doJournalMessage
  rw [fromLead_taken h hus]
  dsimp only
  rw [replaying_gotMsg, hrep]
  rfl

/-- A survivor's checkpoint as this unit takes it. -/
def takenChk (s : State) (c : Checkpoint) : Checkpoint :=
  let gang := mirSt s != 5
  { c with
    cm := mergeCm gang s.cm c.cm
    progs := if gang then (chkOf s).progs else c.progs
    coefs := if gang then (chkOf s).coefs else c.coefs
    active := if gang then (chkOf s).active else c.active
    ringOff := 0 }

/-- The journal begins with the survivor's checkpoint. -/
def baseOn (c : Checkpoint) (s : State) : State :=
  { s with
    jnl := { s.jnl with
      chk := takenChk s c
      seq := c.seq
      ringOff := 0
      recs := []
      clean := none
      hdrNum := s.jnl.hdrNum + 1
      slot := 1 - s.jnl.slot }
    mir := { s.mir with based := true } }

theorem mergeCm_epoch (gang : Bool) (own c : Committed) : (mergeCm gang own c).epoch = c.epoch := by
  unfold mergeCm
  split <;> rfl

theorem doJournalMessage_checkpoint {c : Checkpoint} (h : taken mkJournal m s = true) (hus : forUs m s = true)
    (hrep : replaying s = true) (hx : m.args.getD 1 0 = 0) (hc : m.chk = some c) :
    doJournalMessage m s =
      let u := gotMsg m s
      tryJoin (baseOn c { u with mir := { u.mir with target := some (m.args.getD 7 0) } }) := by
  unfold doJournalMessage
  rw [fromLead_taken h hus]
  dsimp only
  rw [replaying_gotMsg, hrep]
  refine (if_neg (by decide)).trans ((if_pos hx).trans ?_)
  rw [hc]
  rfl

/-- With a later epoch still to come there is nothing to join yet. -/
theorem tryJoin_waits (h : s.mir.target ≠ some (jnlEpoch s)) : tryJoin s = s := by
  unfold tryJoin
  rw [beq_eq_false_iff_ne.mpr h, Bool.and_false]
  exact if_neg (by decide)

theorem jnlEpoch_baseOn (c : Checkpoint) : jnlEpoch (baseOn c s) = c.cm.epoch := mergeCm_epoch ..

/-! ### Copies and verification (R467, R468) -/

theorem mirSt_gotMsg : mirSt (gotMsg m s) = mirSt s := gotMsg_field ..

theorem doPrimeMessage_number (h : taken mkPrime m s = true) (hus : forUs m s = true) (hst : mirSt s = 6) (hx : m.args.getD 1 0 = 0) :
    doPrimeMessage m s = { gotMsg m s with mir := { (gotMsg m s).mir with copies := some (m.args.getD 2 0) } } := by
  unfold doPrimeMessage
  rw [fromLead_taken h hus]
  dsimp only
  rw [mirSt_gotMsg, hst]
  exact (if_neg Bool.false_ne_true).trans (if_pos hx)

theorem doPrimeMessage_headworks (h : taken mkPrime m s = true) (hus : forUs m s = true) (hst : mirSt s = 6)
    (hx : m.args.getD 1 0 = 2) :
    doPrimeMessage m s =
      (let u := gotMsg m s
       let w : State := { u with mir := { u.mir with got := u.mir.got + 1 } }
       let v := (m.args.drop 4).map (signedOf 64)
       w.setRt (m.args.getD 2 0) { w.rt (m.args.getD 2 0) with
         hwSel := m.args.getD 3 0
         hw := chunk 4 v.length v
         hwOld := none }) := by
  unfold doPrimeMessage
  rw [fromLead_taken h hus]
  dsimp only
  rw [mirSt_gotMsg, hst]
  have hne : ∀ {k}, 2 ≠ k → m.args.getD 1 0 ≠ k := fun hk => hx.trans_ne hk
  exact (if_neg Bool.false_ne_true).trans ((if_neg (hne (by decide))).trans ((if_neg (hne (by decide))).trans (if_pos hx)))

theorem doPrimeComplete_open (h : s.mir.copies = none) : doPrimeComplete s = s :=
  if_neg fun hc => Option.some_ne_none _ (hc.1.symm.trans h)

section
variable (hcopies : s.mir.copies = some s.mir.got) (hjoin : s.mir.joinAt = none)
include hcopies hjoin

theorem doPrimeComplete_verify (hst : mirSt s = 6) :
    doPrimeComplete s =
      setMir (({ s with mir := { s.mir with copies := none, verifyFrom := s.tick, stalled := false } } :
        State).setReg R.mirVerifyCnt 0) 7 :=
  (if_pos ⟨hcopies, hjoin⟩).trans (if_pos hst)

theorem doPrimeComplete_formed (hst : mirSt s ≠ 6) (hrole : gangRole s = 2) (hgang : gangSt s ≠ 2) :
    doPrimeComplete s =
      tellLeader (({ s with mir := { s.mir with copies := none } } : State).setField R.nylGangState 26 24 2) 0 0 :=
  (if_pos ⟨hcopies, hjoin⟩).trans ((if_neg hst).trans (if_pos ⟨hrole, hgang⟩))

end

/-- Status of a partner that sends, to a unit that sends and is asked for nothing. -/
theorem takePartner_sending {j : Nat} {w : List Word} (hst : mirSt s = 2) (hw : fld (wAt w 3) 3 0 = 2) :
    takePartner 0 j w s =
      ({ s with mir := { s.mir with partner := 2, partnerFw := (wAt w 8).toNat } } : State).setBit R.mirState 6 true := by
  have hkeep : mirSt (({ s with mir := { s.mir with partner := 2, partnerFw := (wAt w 8).toNat } } : State).setBit R.mirState 6 true) = 2 :=
    (field_setBit_below _ _ _ (by decide) (by decide) (by decide)).trans hst
  unfold takePartner
  dsimp only
  rw [hw, beq_self_eq_true, hkeep]
  rfl

theorem doBulkMessage_status (h : taken mkBulk m s = true) (hfrom : fromPartner s m = true) (hx : m.args.getD 1 0 = bulkStatus) :
    doBulkMessage m s = takePartner (m.args.getD 2 0) (m.args.getD 3 0) (wordsOf m.bytes) (gotMsg m s) := by
  have hus : forUs m s = true := by rw [forUs, hfrom, Bool.or_true, Bool.true_or]
  unfold doBulkMessage
  rw [fromLead_taken h hus]
  have hne : ∀ {k}, bulkStatus ≠ k → m.args.getD 1 0 ≠ k := fun hk => hx.trans_ne hk
  refine (if_neg Bool.false_ne_true).trans ((if_neg (hne (by decide))).trans ((if_neg (hne (by decide))).trans ?_))
  unfold takeBulk
  exact (if_neg (hne (by decide))).trans ((if_pos hx).trans (if_pos ((fromPartner_gotMsg ..).trans hfrom)))

theorem doVerifyStall_stalls (hst : mirSt s = 7) (hnew : s.mir.stalled = false)
    (hlate : s.mir.verifyFrom + s.regNat R.mirVerifyMax ≤ s.tick) :
    doVerifyStall s = (({ s with mir := { s.mir with stalled := true } } : State).evt R.mirEvtStatus 5) :=
  if_pos ⟨hst, hnew, hlate⟩

theorem doVerifyStall_not (h : mirSt s ≠ 7 ∨ s.mir.stalled = true) : doVerifyStall s = s := by
  refine if_neg fun hc => ?_
  obtain ⟨hst, hnew, -⟩ := hc
  obtain h | h := h
  · exact h hst
  · exact Bool.false_ne_true (hnew.symm.trans h)

end

/-! ### What the commands leave as they settle -/

section
variable {m : LinkMsg} {s : State}

theorem settled_linkUp {u t : State} (h : Settled u t) (l : Nat) : linkUp t l = linkUp u l :=
  linkUp_of_reg (settled_regHigh h (le_linkReg l 0))

theorem settled_field {u t : State} (h : Settled u t) {a : Nat} (ha : 0x30000 ≤ a) (hi lo : Nat) : t.field a hi lo = u.field a hi lo := by
  rw [State.field, State.field, settled_regHigh h ha]

theorem digestTimeout_loses {o : Nat × Nat × List Nat} {rest : List (Nat × Nat × List Nat)} (ho : s.mir.own = o :: rest)
    (hdue : s.dueOk (o.2.1 + s.field R.mirDigTo 19 0) = true) (hloss : s.field R.mirLossTicks 7 0 ≤ s.mir.missing + 1)
    (hst : mirSt s = 2) :
    Leaves .digestTimeout s fun t => mirSt t = 3 ∧ isPref t = true ∧ t.mir.own = [] ∧ t.mir.partner = 0 :=
  leaves_of (u := doDigestTimeout s) rfl fun t ht => by
    rw [doDigestTimeout_due ho hdue] at ht
    exact (partnerLost_survives ((missDigest_mirSt _ rest).trans hst)).settled ((if_pos hloss : (if _ then _ else _) = _) ▸ ht)

theorem commitMissing_member (h : missingGo s ≠ []) (hrole : gangRole s = 2) :
    Leaves .commitMissing s fun t => gangSt t = 3 ∧ t.bit R.nylEvtStatus 3 = true ∧ t.mir.based = false ∧
      t.cmd.txns = s.cmd.txns.filter fun a => !((missingGo s).any fun u => u.num == a.num) :=
  leaves_of (u := doCommitMissing s) rfl fun t ht => by
    rw [doCommitMissing_member h hrole] at ht
    have hlink := linkOnly_tellLeader (outOfStep (dropMissing s)) 1 0
    refine ⟨?_, ?_, ?_, ?_⟩
    · rw [gangSt, settled_field ht (by decide), hlink.field]
      exact outOfStep_gangSt
    · rw [settled_bitHigh ht (by decide), hlink.bit]
      exact bit_evt_self _ _ (by decide) (.inr (by decide))
    · rw [ht.mir, hlink.mir]
      rfl
    · rw [ht.cmd, hlink.cmd, outOfStep, nylEvt, evt_cmd]
      rfl

theorem journalMessage_bases {c : Checkpoint} (h : taken mkJournal m s = true) (hus : forUs m s = true) (hrep : replaying s = true)
    (hx : m.args.getD 1 0 = 0) (hc : m.chk = some c) (hmore : m.args.getD 7 0 ≠ c.cm.epoch) :
    Leaves (.journalMessage m) s fun t => t.jnl.seq = c.seq ∧ t.jnl.recs = [] ∧ t.jnl.chk.cm.epoch = c.cm.epoch ∧
      t.mir.based = true ∧ t.mir.target = some (m.args.getD 7 0) ∧ t.cm = s.cm :=
  leaves_of (u := doJournalMessage m s) rfl fun t ht => by
    rw [doJournalMessage_checkpoint h hus hrep hx hc] at ht
    dsimp only at ht
    rw [tryJoin_waits fun hj => hmore ((Option.some.inj hj).trans (jnlEpoch_baseOn c))] at ht
    refine ⟨?_, ?_, ?_, ?_, ?_, ?_⟩
    · rw [ht.jnl]
      rfl
    · rw [ht.jnl]
      rfl
    · rw [ht.jnl]
      exact mergeCm_epoch ..
    · rw [ht.mir]
      rfl
    · rw [ht.mir]
      rfl
    · rw [ht.cm]
      exact gotMsg_cm m s

theorem primeComplete_verifies (hcopies : s.mir.copies = some s.mir.got) (hjoin : s.mir.joinAt = none) (hst : mirSt s = 6) :
    Leaves .primeComplete s fun t => mirSt t = 7 ∧ t.mir.copies = none ∧ t.mir.verifyFrom = s.tick ∧ t.reg R.mirVerifyCnt = 0 :=
  leaves_of (u := doPrimeComplete s) rfl fun t ht => by
    rw [doPrimeComplete_verify hcopies hjoin hst] at ht
    refine ⟨?_, ?_, ?_, ?_⟩
    · rw [mirSt_of_reg (settled_regHigh ht (by decide))]
      exact setMir_mirSt _ (by decide)
    · rw [ht.mir, setMir_mir]
      rfl
    · rw [ht.mir, setMir_mir]
      rfl
    · rw [settled_regHigh ht (by decide), (linkOnly_setMir _ _).reg, reg_setField_ne _ _ _ _ (by decide), reg_setReg_self]

theorem primeComplete_forms (hcopies : s.mir.copies = some s.mir.got) (hjoin : s.mir.joinAt = none) (hst : mirSt s ≠ 6)
    (hrole : gangRole s = 2) (hgang : gangSt s ≠ 2) :
    Leaves .primeComplete s fun t => gangSt t = 2 ∧ t.mir.copies = none :=
  leaves_of (u := doPrimeComplete s) rfl fun t ht => by
    rw [doPrimeComplete_formed hcopies hjoin hst hrole hgang] at ht
    constructor
    · rw [gangSt, settled_field ht (by decide), (linkOnly_tellLeader ..).field]
      exact field_setField_self { s with mir := { s.mir with copies := none } } R.nylGangState 2 (by decide) (by decide)
    · rw [ht.mir, (linkOnly_tellLeader ..).mir]
      rfl

theorem resendRequest_sends (h : taken mkResend m s = true) :
    Leaves (.resendRequest m) s fun t => t.nyl = s.nyl ∧
      ∀ x ∈ (tabGetD s.nyl.sent (8 * m.link + m.args.getD 0 0) []).dropWhile (fun x => x.seq != m.args.getD 1 0),
        Out.link m.link x ∈ t.outbox :=
  leaves_of (u := doResendRequest m s) rfl fun t ht => by
    obtain ⟨n, hn⟩ := doResendRequest_taken h
    rw [hn] at ht
    exact ⟨ht.nyl.trans (emitAll_nyl ..), fun x hx => mem_settled_out ht (emitAll_sends m.link hx s)⟩

theorem laneLockLoss_downs {l : Nat} (h : linkUp s l = true) :
    Leaves (.laneLockLoss l) s fun t => linkUp t l = false ∧ t.reg (linkReg l 0) = 0 ∧ t.bit R.nylEvtStatus 0 = true :=
  leaves_of (u := doLaneLockLoss l s) rfl fun t ht => by
    rw [doLaneLockLoss, if_pos h] at ht
    obtain ⟨hreg, hev⟩ := linkDown_off h
    have hzero := (settled_regHigh ht (le_linkReg l 0)).trans hreg
    exact ⟨linkUp_of_zero hzero, hzero, (settled_bitHigh ht (by decide) 0).trans hev⟩

theorem linkTrained_ups {l : Nat} (hl : l < 6) (hon : linkOn s.mapCm l = true) (hup : linkUp s l = false) :
    Leaves (.linkTrained l) s fun t =>
      linkUp t l = true ∧ t.bit R.nylEvtStatus 0 = true ∧ ∀ k, k / 8 = l → tabGet t.nyl.rx k = none :=
  leaves_of (u := doLinkTrained l s) rfl fun t ht => by
    rw [doLinkTrained_trains hon hup] at ht
    have hlink := linkOnly_tellTrained l (trainedLink l s)
    obtain ⟨htrained, hev, hrx⟩ := trainedLink_up hl s
    refine ⟨?_, ?_, fun k hk => ?_⟩
    · rw [settled_linkUp ht, linkUp_of_reg (hlink.reg _)]
      exact htrained
    · rw [settled_bitHigh ht (by decide), hlink.bit]
      exact hev
    · rw [ht.nyl, hlink.rx]
      exact hrx k hk

end

/-- Settles O52: each clause is what its command does, `doX`, in the case that the clause names. -/
theorem linksGangsAndPairs : Obligations.LinksGangsAndPairs := by
  unfold Obligations.LinksGangsAndPairs
  refine ⟨fun row hrow m s hdown => gives_of (messageRows_dropRefused row hrow m s s fun k _ => takeMsg_down hdown) rfl,
    fun row hrow m s hk hup hcrc hr => gives_of (messageRows_dropRefused row hrow m s _ fun k hkind => ?_) rfl,
    fun m s h hfrom hlen htim => gives_of (v := doPhaseMessage m s) rfl (doPhaseMessage_taken h hfrom hlen htim),
    fun m r s h hfrom hr hnew hwait => ⟨_, tabGet_tabSet_self .., gives_of (v := doPresenceReport m s) rfl
      (doPresenceReport_taken h hfrom hr hnew hwait)⟩,
    fun m s h hfrom hport hpref hrel => gives_of (v := doFillPayload m s) rfl (doFillPayload_serial h hfrom hport hpref hrel),
    fun m c s h hus hep hrole hc => gives_of (v := doStagedCommand m s) rfl (doStagedCommand_taken h hus hep hrole hc),
    fun m s h hus hlate hrole => leaves_of (u := doAdmitMsg m s) rfl fun t ht => ?_,
    fun m a s h hus ha hin => gives_of (v := doVerdict m s) rfl (doVerdict_awaited h hus ha hin),
    fun m c s h hus hdec hc hvotes => gives_of (v := doVerdict m s) rfl (doVerdict_refusal h hus hdec hc hvotes),
    fun s hdec => gives_of (v := doVerdictTimeout s) rfl (doVerdictTimeout_decided hdec),
    fun a s ha hund hwait hdue => gives_of (v := doVerdictTimeout s) rfl (doVerdictTimeout_partner ha hund hwait hdue),
    fun m c s h hus hc hph hlate hvotes => leaves_of (u := doCommit m s) rfl fun t ht => ?_,
    fun s h => gives_of (v := doCommitMissing s) rfl (doCommitMissing_none h),
    fun s h hrole => gives_of (v := doCommitMissing s) rfl (doCommitMissing_drops h hrole),
    fun s h hrole => commitMissing_member h hrole,
    fun m s h hus => gives_of (v := doSnapshotTriggerMessage m s) rfl (doSnapshotTriggerMessage_taken h hus),
    fun m s h hus => gives_of (v := doDoorbellMessage m s) rfl (doDoorbellMessage_taken h hus),
    fun m s h hfrom hst hany => gives_of (v := doDigest m s) rfl (doDigest_known h hfrom hst hany),
    fun m s h hfrom hst hany hown => gives_of (v := doDigest m s) rfl (doDigest_early h hfrom hst hany hown),
    fun s h => gives_of (v := doDigestTimeout s) rfl (doDigestTimeout_none h),
    fun o rest s ho hdue hmiss => gives_of (v := doDigestTimeout s) rfl
      ((doDigestTimeout_due ho hdue).trans (if_neg (Nat.not_le.mpr hmiss))),
    fun o rest s ho hdue hloss hst => digestTimeout_loses ho hdue hloss hst,
    fun k s hk hlate hst => leaves_of (u := doPairLinksDown s) rfl fun t ht => ?_,
    fun s h => gives_of (v := doPairLinksDown s) rfl (doPairLinksDown_none h),
    fun m s h hfrom hst => leaves_of (u := doDownNotice m s) rfl fun t ht => ?_,
    fun m x s h hfrom hrole hme hx hph => gives_of (v := doDownNotice m s) rfl (doDownNotice_member h hfrom hrole hme hx hph),
    fun m s h hus hrep => gives_of (v := doJournalMessage m s) rfl (doJournalMessage_idle h hus hrep),
    fun m c s h hus hrep hx hc hmore => journalMessage_bases h hus hrep hx hc hmore,
    fun m s h hus hst hx => gives_of (v := doPrimeMessage m s) rfl (doPrimeMessage_number h hus hst hx),
    fun m s h hus hst hx => gives_of (v := doPrimeMessage m s) rfl (doPrimeMessage_headworks h hus hst hx),
    fun s hcopies hjoin hst => primeComplete_verifies hcopies hjoin hst,
    fun s hcopies hjoin hst hrole hgang => primeComplete_forms hcopies hjoin hst hrole hgang,
    fun s h => gives_of (v := doPrimeComplete s) rfl (doPrimeComplete_open h),
    fun m s h hfrom hx hask hst hw => gives_of (v := doBulkMessage m s) rfl ?_,
    fun m s h hx => gives_of (v := doDiscovery m s) rfl (doDiscovery_back h hx),
    fun m s h hx => gives_of (v := doDiscovery m s) rfl (doDiscovery_partner h hx),
    fun m s h => gives_of (v := doDiscoveryAnswer m s) rfl (doDiscoveryAnswer_taken h),
    fun m s h => resendRequest_sends h,
    fun l s h => laneLockLoss_downs h,
    fun l s h => gives_of (v := doLaneLockLoss l s) rfl (if_neg (Bool.eq_false_iff.mp h)),
    fun l s hl hon hup => linkTrained_ups hl hon hup,
    fun l s h => gives_of (v := doLinkTrained l s) rfl (if_neg ?_),
    fun s hst hnew hlate => gives_of (v := doVerifyStall s) rfl (doVerifyStall_stalls hst hnew hlate),
    fun s h => gives_of (v := doVerifyStall s) rfl (doVerifyStall_not h)⟩
  · rw [hkind hk]
    exact takeMsg_bad hk hup hcrc hr
  · rw [copyOf_of_cmd ht.cmd]
    exact doAdmitMsg_copy h hus hlate hrole
  · have hlead := lead_of_copyOf hc
    rw [doCommit_taken h hus hc hph hlate hvotes] at ht
    rw [copyOf_of_cmd ht.cmd]
    exact conclude_copy (t := { c with boundary := m.args.getD 2 0, needGo := false })
      ((copyOf_of_cmd (gotMsg_cmd m s) _).trans hc) rfl hlead c.verdict
  · rw [doPairLinksDown_due hk hlate] at ht
    exact (partnerLost_survives hst).settled ht
  · rw [doDownNotice_partner h hfrom] at ht
    exact (partnerLost_survives (mirSt_gotMsg.trans hst)).settled ht
  · rw [doBulkMessage_status h hfrom hx, hask]
    exact takePartner_sending (mirSt_gotMsg.trans hst) hw
  · obtain h | h := h <;> simp [h]

end Sys2Proof.Machine
end
